-- ==== Sys2Proof/Word.lean ====
section
/-! DEFINITION. Machine words of the Qorfin Y8 and their plainest arithmetic: the widths of R8, the bit slice of R6, and the pod's unit numbering (R18, R251) as plain naturals. -/

namespace Sys2Proof

/-- A general register, an address and a control register are 64 bits (R8, R17). -/
abbrev Word := BitVec 64

/-- A vector register is 512 bits (R8). -/
abbrev VWord := BitVec 512

/-- A mask register is 16 bits (R8). -/
abbrev MWord := BitVec 16

/-- A byte of memory (R4). -/
abbrev Byte := BitVec 8

/-- A core of the pod: ((package × 4 + die) × 24 + logical cluster) × 16 + core (R18). -/
abbrev CoreKey := Nat

/-- A cluster of the pod: (package × 4 + die) × 24 + logical cluster (R18). -/
abbrev ClusterKey := Nat

/-- A die of the pod: package × 4 + die (R18). -/
abbrev DieKey := Nat

/-- A package of the pod, 0–511 (R377). -/
abbrev PkgKey := Nat

/-- A rook of the pod: cluster × 4 + rook (R281). -/
abbrev RookKey := Nat

/-- A byte of the pod's physical memory: package × 2^42 + physical address (R251). -/
abbrev PhysAddr := Nat

/-- Bits hi:lo of a natural number (R6). -/
def slice (x hi lo : Nat) : Nat := x / 2 ^ lo % 2 ^ (hi + 1 - lo)

/-- The least multiple-count covering: ceil(a / b). -/
def ceilDiv (a b : Nat) : Nat := (a + b - 1) / b

/-- How many cores the largest pod has (R18). -/
def podCores : Nat := 512 * 4 * 24 * 16

end Sys2Proof
end

