-- ==== Sys2Proof/Syntax.lean ====
section
/-! DEFINITION. Abstract syntax: operands of instruction words, the messages that events carry, and Instr, one constructor per row of the opcode table. -/

namespace Sys2Proof

/-! ### Operands of instruction words -/

/-- Scope codes 0–6 (R64). -/
inductive Scope where
  | th | co | qd | cl | di | pk | pd
  deriving DecidableEq, Repr

/-- Ordering kinds (R64, R113). -/
inductive OrdKind where
  | plain | acq | rel | full
  deriving DecidableEq, Repr

/-- Scalar floating-point formats, codes 0–3 (R83). -/
inductive Fmt where
  | s | d | h | bf
  deriving DecidableEq, Repr

/-- Formats of the fused forms, codes 0–1 (R88). -/
inductive Fmt2 where
  | s | d
  deriving DecidableEq, Repr

/-- Rounding modes, codes 0–4 (R20, R31). -/
inductive RMode where
  | rne | rmm | rtz | rup | rdn
  deriving DecidableEq, Repr

/-- Mode operand of fcvti and fcvtiu; dyn is code 7 (R87). -/
inductive CvtMode where
  | static (m : RMode)
  | dyn
  deriving DecidableEq, Repr

/-- Width of an atomic: .w or .d (R120). -/
inductive Width where
  | w32 | w64
  deriving DecidableEq, Repr

/-- Operations of the atomic unit (R120). -/
inductive AtomOp where
  | add | and | or | xor | max | min | swap | fadd | maxu | minu | fmax | fmin
  deriving DecidableEq, Repr

/-- Operations a reduction may name: those of R120 but swap (R124). -/
inductive RedOp where
  | add | and | or | xor | max | min | fadd | maxu | minu | fmax | fmin
  deriving DecidableEq, Repr

/-- A general, vector or mask register by name (R57). -/
inductive RegName where
  | g (n : Fin 32)
  | v (n : Fin 16)
  | m (n : Fin 8)
  deriving DecidableEq, Repr

/-- How a load fills its register (R103, R104). -/
inductive Ext where
  | zero | sign | vector
  deriving DecidableEq, Repr

/-- The tagged-word operations (R116). -/
inductive TagOp where
  | ldfe | ldff | stfe | stf | ste
  deriving DecidableEq, Repr

/-- Element formats of the tile unit, codes 0–4 of FMT (R178). -/
inductive TileFmt where
  | tap8 | tap6 | int8 | bf16 | fp16
  deriving DecidableEq, Repr

/-! ### Parts of messages -/

/-- A thread by core, slot and generation (R247). -/
structure ThreadRef where
  core : CoreKey
  slot : Nat
  gen : Nat
  deriving DecidableEq, Repr

/-- A poison mark of a register: cause and information word (R219). -/
structure Mark where
  cause : BitVec 9
  info : BitVec 32
  deriving DecidableEq, Repr

/-- Values a trap leaves: cause, address or value, information (R222, R230). -/
structure TrapVal where
  cause : Nat
  tval : Word
  tinf : Word
  deriving DecidableEq, Repr

/-- Who made a global access. -/
inductive Agent where
  | thread (t : ThreadRef)
  /-- block `block` of copy command `cmd` of a core (R273) -/
  | engine (core : CoreKey) (cmd : Nat) (block : Nat)
  /-- access number `seq` of memory port `port` of a rook (R289) -/
  | port (rook : RookKey) (port : Nat) (seq : Nat)
  /-- a drain's row store or bias load, by drain number (R305) -/
  | drain (rook : RookKey) (drain : Nat)
  /-- the launch unit of a die (R329, R332) -/
  | launchUnit (die : DieKey)
  /-- a write of the host in a package's memory (R384) -/
  | host (pkg : PkgKey)
  deriving DecidableEq, Repr

/-- What a global access does at its home. -/
inductive GlobalOp where
  | load
  | store
  | amo (op : AtomOp)
  | lres
  | scnd
  | cas
  | red (op : AtomOp)
  | redo (slice : Nat)
  | ordset
  | arm (monitor : Nat)
  /-- an instruction line: four sectors at one read time (R276) -/
  | fetch
  deriving DecidableEq, Repr

/-- A global access in flight: everything its home and its reply need (R105–R110, R121, R263, R416). -/
structure Access where
  agent : Agent
  /-- outstanding number of the access -/
  id : Nat
  op : GlobalOp
  ctx : Nat
  va : Word
  pa : PhysAddr
  home : ClusterKey
  src : ClusterKey
  size : Nat
  ts : Nat
  snap : Nat
  ordered : Bool
  vbit : Bool
  code : Bool
  uncached : Bool
  data : VWord
  cmp : Word
  dst : Option RegName
  ext : Ext
  /-- 0 the C word, 1 the A word -/
  word : Nat
  issue : Nat
  /-- cycles from performing to the reply (R416) -/
  reply : Nat
  /-- a queueing turn has been taken (R257) -/
  queued : Bool
  /-- the source of an uncorrectable error that its data have met on the way (R379) -/
  bad : Option Nat
  deriving DecidableEq, Repr

/-- A reply or acknowledgement travelling back to the agent of an access (R109, R110). -/
structure AckMsg where
  agent : Agent
  id : Nat
  wts : Nat
  /-- context and address of the access, for shootdowns (R349) -/
  ctx : Nat
  va : Word
  deriving DecidableEq, Repr

/-- A long operation's result on its way to the register file (R29). -/
structure Completion where
  thread : ThreadRef
  id : Nat
  dst : RegName
  /-- the address that a poison mark met on the way would name (R219) -/
  va : Word
  val : VWord
  mark : Option Mark
  /-- cr.time is raised to this (R109, R267); 0 raises nothing -/
  raise : Nat
  issue : Nat
  word : Nat
  deriving DecidableEq, Repr

/-- A fill on its way (R137). -/
structure FillMsg where
  sender : ThreadRef
  target : ThreadRef
  dst : RegName
  val : Word
  time : Nat
  ctx : Nat
  id : Nat
  bad : Option Nat
  deriving DecidableEq, Repr

/-- What a remote scratchpad request does (R105, R116, R254). -/
inductive RemoteOp where
  | load (size : Nat) (ext : Ext)
  | store (size : Nat)
  | tagged (op : TagOp)
  | arm (monitor : Nat)
  | message (mb : Nat) (pri : Bool) (len : Nat) (payload : List Byte)
  deriving DecidableEq, Repr

/-- A remote scratchpad request (R254). -/
structure RemoteReq where
  thread : ThreadRef
  id : Nat
  target : CoreKey
  off : Nat
  va : Word
  op : RemoteOp
  data : VWord
  dst : Option RegName
  time : Nat
  ctx : Nat
  /-- of a tagged operation: cycles of cr.wlim that remain (R119); of a message: 1 once it has been refused (R240) -/
  budget : Nat
  issue : Nat
  word : Nat
  /-- the source of an uncorrectable error that its data have met on the way (R379) -/
  bad : Option Nat
  deriving DecidableEq, Repr

/-- A thread context on its way: spawn or mig (R143). -/
structure CtxMsg where
  spawn : Bool
  sender : ThreadRef
  /-- blocking number of the sender -/
  id : Nat
  target : CoreKey
  pc : Word
  /-- status doubleword: cr.fcsr in 8:0, cr.wlim in 63:32 (R143) -/
  statusDw : Word
  args : List Word
  marks : List (Option Mark)
  idx : Nat
  launch : Nat
  ctx : Nat
  time : Nat
  /-- core of the launch placement, for barriers; none for a spawned thread (R131, R144) -/
  place : Option CoreKey
  /-- interrupts that wait for the thread in its new slot: code and information (R229) -/
  ints : List (Nat × Word)
  deriving DecidableEq, Repr

/-- How a sent context was answered (R143, R144). -/
inductive CtxAnswer where
  | slot (t : ThreadRef)
  | queued
  | refused
  | dropped
  deriving DecidableEq, Repr

/-- What is resent after a refusal (R414). -/
inductive Resend where
  | remote (r : RemoteReq)
  | context (c : CtxMsg)
  deriving DecidableEq, Repr

/-- How a message was answered (R140). -/
inductive MsgAnswer where
  | accepted
  | refusedListed
  | refusedListFull
  /-- the target's FIFO had no room (R254) -/
  | fifoFull
  | disabled
  deriving DecidableEq, Repr

/-- A barrier instance: launch, scope, instance number of that scope, b (R131). -/
structure BarRef where
  launch : Nat
  scope : Scope
  inst : Nat
  b : Nat
  deriving DecidableEq, Repr

/-- A request to the snapshot registry of a package (R148, R150, R364). -/
inductive RegistryReq where
  | snap (t : ThreadRef) (id : Nat) (time : Nat)
  | txb (t : ThreadRef) (id : Nat) (time : Nat)
  | release (time : Nat)
  deriving DecidableEq, Repr

/-- A data token of a rook (R282), with the packet it belongs to (R302). -/
structure Token where
  val : Word
  /-- 0 data, 1 EOR, 2 EOT, 3 END, 4 FNC, 5 SNAP -/
  kind : Nat
  poison : Bool
  /-- SUB in 15:8 and STAGE in 7:0 of the first fault -/
  side : BitVec 16
  pkt : Option Nat
  deriving DecidableEq, Repr

/-- A call on its way to a rook (R209). -/
structure CallMsg where
  thread : ThreadRef
  id : Nat
  /-- serve blocks its thread, servn does not -/
  serve : Bool
  dst : Fin 32
  fid : Nat
  args : List Word
  ctx : Nat
  sup : Bool
  cluster : ClusterKey
  time : Nat
  issue : Nat
  deriving DecidableEq, Repr

/-- The first fault of a packet or drain (R210, R302). -/
structure FaultRec where
  sub : Nat
  stage : Nat
  addr : Word
  deriving DecidableEq, Repr

/-- A call's result on its way to its caller (R209, R210). -/
structure ResultMsg where
  call : CallMsg
  val : Word
  fault : Option FaultRec
  raise : Nat
  deriving DecidableEq, Repr

/-- An mdrain on its way to its rook (R192, R305). -/
structure DrainMsg where
  thread : ThreadRef
  /-- number of the tile command -/
  cmd : Nat
  acc : Fin 4
  fid : Nat
  arg : Word
  ctx : Nat
  sup : Bool
  int8 : Bool
  cluster : ClusterKey
  /-- cr.time of the draining core (R291) -/
  time : Nat
  deriving DecidableEq, Repr

/-- A storage error (R390). -/
inductive SoftErr where
  | corrected (die : DieKey)
  | register (t : ThreadRef) (r : RegName)
  | accumulator (core : CoreKey) (acc : Fin 4)
  | control (t : ThreadRef) (index : BitVec 12)
  | scratchpad (core : CoreKey) (word : Nat)
  | weightStore (cluster : ClusterKey) (word : Nat)
  | rookLocal (rook : RookKey) (cell : Nat) (local_ : Nat)
  /-- the word at a place of a queue: of a cell from a direction, or of unit 64–87, `out` its output queue -/
  | rookQueue (rook : RookKey) (unit : Nat) (dir : Nat) (out : Bool) (place : Nat)
  | clusterCache (cluster : ClusterKey) (sector : PhysAddr)
  /-- the data of the message numbered so in the agenda, which a cluster cache's reply buffer holds -/
  | replyBuffer (msg : Nat)
  | instructionCache (core : CoreKey) (line : PhysAddr)
  | imageCache (cluster : ClusterKey) (ctx fid : Nat)
  | memory (sector : PhysAddr)
  deriving DecidableEq, Repr

/-- A link error (R379). -/
inductive FlitErr where
  /-- a flit is replayed, by a Humir port of a package or on a path between its dies: the message numbered `msg` of the agenda is delayed by `delay`, at most 64 -/
  | replay (pkg : PkgKey) (port : Option Nat) (msg delay : Nat)
  /-- a data flit of that message is uncorrectable on a Humir link, or on a path between dies -/
  | data (humir : Bool) (msg : Nat)
  /-- an uncorrectable control flit -/
  | control (pkg : PkgKey) (port : Option Nat) (msg : Nat)
  deriving DecidableEq, Repr

/-- A firmware image: the 512-byte header of R403 and the body. -/
structure FwImage where
  header : List Byte
  body : List Byte
  deriving DecidableEq, Repr

/-- One lane of a link as its training finds it (R404). -/
structure LaneTest where
  /-- the partner lane that arrives on this local lane -/
  partner : Nat
  inverted : Bool
  /-- rates, in Gbit/s, at which the lane passes -/
  passes : List Nat
  deriving DecidableEq, Repr

/-- A port's partner as its training finds it (R404). -/
structure LinkTest where
  /-- the partner's module serial number (R405) -/
  serial : Nat
  /-- rates that the partner offers -/
  rates : List Nat
  lanes : List LaneTest
  deriving DecidableEq, Repr

/-- What a bring-up finds outside the model: firmware, memories, links (R402). -/
structure BringUp where
  image : FwImage
  /-- per die, the physical clusters 0–25 that are bad -/
  badClusters : List (List Nat)
  /-- per die, the physical clusters whose vault fails step 3 -/
  badVaults : List (List Nat)
  lpddrOk : Bool
  diePairsOk : Bool
  humir : List LinkTest
  birsyn : LinkTest
  deriving DecidableEq, Repr

/-- SETPOD: pod identity and routes (R405, R377, R378). -/
structure PodConfig where
  pkg : Nat
  npkg : Nat
  diam : Nat
  pod : Nat
  /-- (target package, length k, the Humir ports the route leaves by) -/
  routes : List (Nat × Nat × List Nat)
  deriving DecidableEq, Repr

/-- A line that a `cpub` marks: its thread, its number and the line (R128). -/
structure MarkMsg where
  thread : ThreadRef
  id : Nat
  line : PhysAddr
  deriving DecidableEq, Repr

/-- A change of the clock step of a package, at the cycle that package 0 has distributed (R410). -/
structure ClockMsg where
  pkg : PkgKey
  step : Nat
  deriving DecidableEq, Repr

/-- A launch submitted by lnch (R324). -/
structure LnchMsg where
  thread : ThreadRef
  id : Nat
  dst : Fin 32
  va : Word
  /-- the four sectors of the record -/
  sectors : List PhysAddr
  time : Nat
  issue : Nat
  deriving DecidableEq, Repr

/-- A bundle that a follower or a shadow executes on its own core (R236, R394). -/
structure FollowMsg where
  thread : ThreadRef
  leader : ThreadRef
  k : Nat
  pc : Word
  nextPc : Word
  pair : Bool
  hold : Bool
  word0 : BitVec 32
  word1 : BitVec 32
  /-- where the leader goes next: its branch outcome (R93) -/
  leaderNext : Word
  leaderByBranch : Bool
  /-- for a shadow: what the primary read of a control register (R394), and whether the primary's bundle trapped (R396) -/
  view : Option Word
  trapped : Bool
  deriving DecidableEq, Repr

/-- Requests and answers between launch units (R417, R367). -/
structure PlaceMsg where
  /-- number of the round -/
  round : Nat
  home : DieKey
  die : DieKey
  record : List Word
  ctx : Nat
  pri : Nat
  snap : Bool
  deriving DecidableEq, Repr

/-! ### Instructions and events -/

/-- One constructor per row of spec/opcode_table.json. Rows with an encoding carry the operands of their word (the P and H bits stand in `Bundled`, beside the instruction); rows without one carry the message or the unit that the step concerns. -/
inductive Instr where
  /-- LONG_OPERATION_COMPLETION (R29): A long operation's result reaches the register file and turns its Pending destination Full, possibly with a poison mark. -/
  | longOperationCompletion (c : Completion)
  /-- FILL_ARRIVAL (R11): A fill delivery reaches its target core and fills an Open register or is dropped and counted. -/
  | fillArrival (f : FillMsg)
  /-- OPEN_WAIT_LIMIT (R10): A thread parked on an Open register reaches cr.wlim and traps with 0x022. -/
  | openWaitLimit (t : ThreadRef)
  /-- INTERRUPT_TAKEN (R228): A pending, enabled interrupt is taken at the slot's next bundle boundary and delivered at supervisor level. -/
  | interruptTaken (t : ThreadRef)
  /-- GANG_FOLLOWER_ISSUE (R236): A follower executes the leader's bundle in its reserved cycle on its own core. -/
  | gangFollowerIssue (f : FollowMsg)
  /-- THREAD_RETIREMENT (R97): An exiting thread's drain ends, its transaction, snapshot, monitors and accumulators are released and its scrub begins. -/
  | threadRetirement (t : ThreadRef)
  /-- SLOT_SCRUB (R246): The 32-cycle slot scrub ends and the slot becomes free. -/
  | slotScrub (t : ThreadRef)
  /-- CONTEXT_ARRIVAL (R242): A migrated or spawned context reaches its target core and is placed in a slot, queue or spill area, or refused. -/
  | contextArrival (c : CtxMsg)
  /-- CONTEXT_INSTALLATION (R243): The head of the arrival queue is installed into a free slot over 3 cycles with a new generation. -/
  | contextInstallation (core : CoreKey)
  /-- SPILL_MOVE (R243): The head of the spill area moves into the arrival queue over 4 cycles. -/
  | spillMove (core : CoreKey) (part : Nat)
  /-- CONTEXT_REPLY (R143): The acceptance or refusal of a sent context reaches the sending thread. -/
  | contextReply (c : CtxMsg) (answer : CtxAnswer)
  /-- REFUSAL_RESEND (R414): A refused remote request, tagged request, message or context is resent after its resend period. -/
  | refusalResend (r : Resend)
  /-- MIGRATION_WAIT_LIMIT (R143): A spawn or migration still refused after cr.wlim traps with 0x127. -/
  | migrationWaitLimit (t : ThreadRef) (id : Nat)
  /-- CONTEXT_SWITCH_SCRUB (R341): A core with LIVE=0 finishes scrubbing its scratchpad for an arrival of another context and takes that context as LAST. -/
  | contextSwitchScrub (core : CoreKey) (ctx : Nat)
  /-- TIME_TICK (R258): Every 64 cycles each core's cr.time rises by 1. -/
  | timeTick (pkg : PkgKey)
  /-- CLUSTER_CACHE_ACCESS (R256): A cluster-cache bank serves a load or fetch request, hitting under its lease or forwarding to the home. -/
  | clusterCacheAccess (a : Access)
  /-- HOME_LOAD (R109): A home's channel takes a load, chooses the version, extends the lease and replies. -/
  | homeLoad (a : Access)
  /-- HOME_STORE (R110): A home applies a store with its wts, adding versions and updating publish state. -/
  | homeStore (a : Access)
  /-- STORE_ACKNOWLEDGEMENT (R110): A store's acknowledgement reaches the core, raising cr.time and ending its outstanding state. -/
  | storeAcknowledgement (k : AckMsg)
  /-- ATOMIC_UNIT_OPERATION (R121): The home's atomic unit performs an atomic, reservation or compare operation on the newest version. -/
  | atomicUnitOperation (a : Access)
  /-- REDUCTION_APPLY (R124): The home's atomic unit applies a red contribution and acknowledges it. -/
  | reductionApply (a : Access)
  /-- ORDSET_DECLARATION (R125): The home processes an ordset declaration and returns its result code. -/
  | ordsetDeclaration (a : Access)
  /-- SLICE_ORDERED_MERGE (R126): A redo contribution reaches the home and is applied in slice order, buffered or discarded. -/
  | sliceOrderedMerge (a : Access)
  /-- RESERVATION_EXPIRY (R123): A reservation breaks 4,096 cycles after it was set. -/
  | reservationExpiry (t : ThreadRef) (id : Nat)
  /-- INSTRUCTION_LINE_FILL (R259): A missing instruction line arrives, fills the instruction cache and unparks the thread or traps. -/
  | instructionLineFill (core : CoreKey) (line : PhysAddr)
  /-- PAGE_WALK_COMPLETION (R347): A table walk ends, installing its leaf or faulting with 0x081. -/
  | pageWalkCompletion (cluster : ClusterKey) (walk : Nat)
  /-- REMOTE_REQUEST_ARRIVAL (R254): A remote scratchpad request reaches the target core's FIFO, or is refused when it is full. -/
  | remoteRequestArrival (r : RemoteReq)
  /-- REMOTE_PORT_ACCESS (R254): The target's remote port performs a remote access or copy block after the context check. -/
  | remotePortAccess (core : CoreKey)
  /-- TAGGED_OPERATION_PERFORMED (R118): A waiting tagged operation whose condition holds is performed at its word. -/
  | taggedOperationPerformed (core : CoreKey) (entry : Nat)
  /-- TAGGED_REPLY (R117): The reply of a remote tagged operation reaches the thread, which becomes ready. -/
  | taggedReply (t : ThreadRef) (id : Nat) (val : Word) (mark : Option Mark) (time : Nat)
  /-- TAGGED_WAIT_LIMIT (R119): A tagged operation waiting locally or to be resent passes cr.wlim and traps with 0x101. -/
  | taggedWaitLimit (t : ThreadRef) (id : Nat)
  /-- TAGGED_BUDGET_EXPIRY (R119): A remote tagged request's budget runs out at the target, which cancels it and replies. -/
  | taggedBudgetExpiry (core : CoreKey) (entry : Nat)
  /-- TAGGED_CANCEL_ARRIVAL (R119): A cancel reaches the thread, which traps with 0x101 in the next cycle. -/
  | taggedCancelArrival (t : ThreadRef) (id : Nat)
  /-- MONITOR_ARM_ACKNOWLEDGEMENT (R134): The home or target acknowledges a monitor's arming, raising cr.time. -/
  | monitorArmAcknowledgement (t : ThreadRef) (id : Nat) (monitor : Nat) (wts : Nat)
  /-- MONITOR_LATCH (R134): A write to a monitored block latches the monitor and wakes a waiting thread. -/
  | monitorLatch (t : ThreadRef) (monitor : Nat) (block : PhysAddr) (wts : Nat)
  /-- WAIT_TIMEOUT (R135): A wait parked for cr.mlim cycles completes with the timeout bit. -/
  | waitTimeout (t : ThreadRef) (id : Nat)
  /-- BARRIER_ARRIVAL (R131): A barrier arrival reaches its instance and adds its pending bytes. -/
  | barrierArrival (b : BarRef) (bytes : Word) (time : Nat) (t : ThreadRef)
  /-- BARRIER_PHASE_COMPLETION (R131): A barrier phase completes when all parties arrived and the counter is 0. -/
  | barrierPhaseCompletion (b : BarRef)
  /-- BARRIER_RELEASE (R132): The release reaches waiting threads, raising their time to the phase time. -/
  | barrierRelease (b : BarRef) (phase : Nat) (time : Nat)
  /-- BARRIER_WAIT_LIMIT (R133): A bar.wt parked for cr.wlim cycles traps with 0x103. -/
  | barrierWaitLimit (t : ThreadRef) (id : Nat)
  /-- MESSAGE_ARRIVAL (R140): A mailbox message reaches its target and is accepted into the ring, refused and listed, or finally refused. -/
  | messageArrival (r : RemoteReq)
  /-- MESSAGE_REPLY (R140): The acceptance or refusal of a message reaches the sender. -/
  | messageReply (r : RemoteReq) (answer : MsgAnswer)
  /-- MAILBOX_NOTICE_ARRIVAL (R140): A waiting-list notice reaches a refused sender, which resends next cycle. -/
  | mailboxNoticeArrival (t : ThreadRef) (id : Nat)
  /-- MAILBOX_WAIT_LIMIT (R140): An msend or mrecv waiting past cr.wlim traps with 0x122. -/
  | mailboxWaitLimit (t : ThreadRef) (id : Nat)
  /-- REGISTRY_REQUEST (R364): The package snapshot registry registers or releases an entry. -/
  | registryRequest (pkg : PkgKey) (r : RegistryReq)
  /-- REGISTRY_ANSWER (R148): The registry's answer reaches a snap or txb thread, setting cr.snap and gd. -/
  | registryAnswer (t : ThreadRef) (id : Nat) (txb : Bool) (time : Nat) (ok : Bool)
  /-- FLOOR_SAMPLE (R365): Every 4,096 cycles the registry samples a new version floor. -/
  | floorSample (pkg : PkgKey)
  /-- FLOOR_APPLY (R365): Every home applies the sampled floor 512 cycles later and records it in cr.vfloor. -/
  | floorApply (pkg : PkgKey) (floor : Nat)
  /-- COLLECTOR_SWEEP (R363): Every 4 cycles the collector examines one pool entry and frees it with its older chain if dead. -/
  | collectorSweep (cluster : ClusterKey)
  /-- TRANSACTION_PREPARE (R369): A home locks the transaction's sectors or votes to abort. -/
  | transactionPrepare (t : ThreadRef) (id : Nat) (home : ClusterKey)
  /-- TRANSACTION_VOTES_COMPLETE (R153): When every home has voted the core sends the commit with C or unlocks on conflict. -/
  | transactionVotesComplete (t : ThreadRef) (id : Nat)
  /-- TRANSACTION_COMMIT_APPLY (R369): A home applies a committed sector with wts C and unlocks it. -/
  | transactionCommitApply (t : ThreadRef) (id : Nat) (sector : PhysAddr) (wts : Nat)
  /-- PUBLISH_MARK (R128): A home marks a code line Published and raises its sectors' rts. -/
  | publishMark (m : MarkMsg) (time : Nat)
  /-- CPUB_TIME_BROADCAST (R128): The publish time reaches the cores of the scope instance, raising their cr.time. -/
  | cpubTimeBroadcast (t : ThreadRef) (id : Nat) (scope : Scope) (time : Nat)
  /-- SHOOTDOWN_COMPLETION (R349): All holders acknowledge and affected accesses are performed, so the writing thread resumes. -/
  | shootdownCompletion (t : ThreadRef) (id : Nat)
  /-- COPY_COMMAND_START (R200): The copy engine starts the next queued command once the previous one has issued its last read. -/
  | copyCommandStart (core : CoreKey)
  /-- COPY_BLOCK_READ (R273): The copy engine reads one block, translating at page crossings. -/
  | copyBlockRead (core : CoreKey)
  /-- COPY_BLOCK_WRITE (R273): A copy block is performed at its destination. -/
  | copyBlockWrite (core : CoreKey) (cmd : Nat) (block : Nat)
  /-- COPY_BLOCK_ACKNOWLEDGEMENT (R200): A global copy block's acknowledgement returns and the command completes after its last one. -/
  | copyBlockAcknowledgement (core : CoreKey) (cmd : Nat) (block : Nat) (wts : Nat)
  /-- SYNC_WORD_WAIT_LIMIT (R206): An swwait parked for cr.wlim cycles traps with 0x104. -/
  | syncWordWaitLimit (t : ThreadRef) (id : Nat)
  /-- TILE_COMMAND_START (R187): The tile unit starts the next queued command and frees its queue entry. -/
  | tileCommandStart (core : CoreKey)
  /-- TILE_COMMAND_COMPLETION (R187): A tile command ends its last unit cycle, releasing its locks. -/
  | tileCommandCompletion (core : CoreKey)
  /-- GMMA_JOIN (R189): The n-th gmma of all four quad cores joins and starts together. -/
  | gmmaJoin (quad : CoreKey)
  /-- ACCUMULATOR_RELEASE_STEP (R186): A 4-cycle release step scrubs the accumulator and clears its ownership. -/
  | accumulatorReleaseStep (core : CoreKey) (acc : Fin 4)
  /-- TILE_WAIT_LIMIT (R193): A thread waiting only on an unjoined gmma for cr.wlim cycles traps with 0x0C6. -/
  | tileWaitLimit (t : ThreadRef)
  /-- WEIGHT_STORE_REFRESH (R188): Every 2,048 cycles a 24-cycle refresh window stalls weight-reading tile cycles and wsld writes. -/
  | weightStoreRefresh (pkg : PkgKey)
  /-- DRAIN_ARRIVAL (R305): An mdrain reaches its drain-mode rook and is started, queued, or poisoned with SUB 5. -/
  | drainArrival (d : DrainMsg)
  /-- DRAIN_COMPLETION (R305): The drain's completion token reaches the core, ending the command and recording any poison. -/
  | drainCompletion (d : DrainMsg) (fault : Option FaultRec)
  /-- CALL_ARRIVAL (R302): A server call reaches the rook's port queue or is answered at once with SUB 5. -/
  | callArrival (c : CallMsg)
  /-- ARGUMENT_PORT_ACCEPT (R288): The argument port accepts the head packet and writes its argument tokens. -/
  | argumentPortAccept (rook : RookKey)
  /-- RESULT_PORT_TAKE (R302): The result port takes one packet's token from E0. -/
  | resultPortTake (rook : RookKey)
  /-- SERVER_REPLY (R415): The reply leaves the rook once the packet's stores are acknowledged. -/
  | serverReply (rook : RookKey) (pkt : Nat)
  /-- SERVER_RESULT (R209): The result reaches the caller, writing gd Full or poisoned and raising cr.time. -/
  | serverResult (r : ResultMsg)
  /-- CONFIGURATION_LOAD (R301): An idle rook starts loading a missing function's image. -/
  | configurationLoad (cluster : ClusterKey) (ctx : Nat) (fid : Nat)
  /-- CONFIGURATION_LOAD_COMPLETION (R301): A rook's image load finishes and the rook becomes live for its fid. -/
  | configurationLoadCompletion (rook : RookKey) (id : Nat)
  /-- MEMORY_PORT_ACCESS (R289): A rook memory port starts one access. -/
  | memoryPortAccess (rook : RookKey) (port : Nat)
  /-- MEMORY_PORT_REPLY (R289): A memory port's access completes and emits its output token in request order. -/
  | memoryPortReply (rook : RookKey) (port : Nat) (seq : Nat) (val : VWord) (poison : Bool) (wts : Nat)
  /-- PORT_TRANSLATION_REFILL (R290): A memory port's translation entry is refilled or its access faults. -/
  | portTranslationRefill (rook : RookKey) (port : Nat) (id : Nat)
  /-- COUNTER_CHAIN_EMIT (R292): A counter chain emits its next iteration token or marker. -/
  | counterChainEmit (rook : RookKey) (chain : Nat)
  /-- REDUCTION_UNIT_STEP (R293): A reduction unit folds a token or acts on a marker. -/
  | reductionUnitStep (rook : RookKey) (unit : Nat)
  /-- SPECIAL_FUNCTION_STEP (R294): A special-function unit applies its function to one token. -/
  | specialFunctionStep (rook : RookKey) (unit : Nat)
  /-- BUTTERFLY_CONVERSION (R295): The butterfly and converter transform a block and emit codes and scale. -/
  | butterflyConversion (rook : RookKey)
  /-- MARKER_PASS (R287): A cell passes a uniform marker through an instruction without advancing PC. -/
  | markerPass (rook : RookKey) (cell : Fin 64)
  /-- CELL_PASS (R286): Cell instruction passing source a to its outputs. -/
  | cellPass (rook : RookKey) (cell : Fin 64)
  /-- CELL_ADD (R286): Cell instruction producing a + b. -/
  | cellAdd (rook : RookKey) (cell : Fin 64)
  /-- CELL_SUB (R286): Cell instruction producing a - b. -/
  | cellSub (rook : RookKey) (cell : Fin 64)
  /-- CELL_MUL (R286): Cell instruction producing the low 64 bits of a x b. -/
  | cellMul (rook : RookKey) (cell : Fin 64)
  /-- CELL_AND (R286): Cell instruction producing a AND b. -/
  | cellAnd (rook : RookKey) (cell : Fin 64)
  /-- CELL_OR (R286): Cell instruction producing a OR b. -/
  | cellOr (rook : RookKey) (cell : Fin 64)
  /-- CELL_XOR (R286): Cell instruction producing a XOR b. -/
  | cellXor (rook : RookKey) (cell : Fin 64)
  /-- CELL_SHL (R286): Cell instruction shifting a left by b. -/
  | cellShl (rook : RookKey) (cell : Fin 64)
  /-- CELL_SHR (R286): Cell instruction shifting a right logically by b. -/
  | cellShr (rook : RookKey) (cell : Fin 64)
  /-- CELL_SRA (R286): Cell instruction shifting a right arithmetically by b. -/
  | cellSra (rook : RookKey) (cell : Fin 64)
  /-- CELL_MIN (R286): Cell instruction producing the signed minimum. -/
  | cellMin (rook : RookKey) (cell : Fin 64)
  /-- CELL_MAX (R286): Cell instruction producing the signed maximum. -/
  | cellMax (rook : RookKey) (cell : Fin 64)
  /-- CELL_SEQ (R286): Cell compare for equality, with data and control outputs. -/
  | cellSeq (rook : RookKey) (cell : Fin 64)
  /-- CELL_SLT (R286): Cell signed less-than compare. -/
  | cellSlt (rook : RookKey) (cell : Fin 64)
  /-- CELL_SLTU (R286): Cell unsigned less-than compare. -/
  | cellSltu (rook : RookKey) (cell : Fin 64)
  /-- CELL_SEL (R286): Cell select of a or b by c. -/
  | cellSel (rook : RookKey) (cell : Fin 64)
  /-- CELL_FADD_S (R286): Cell binary32 addition in RNE. -/
  | cellFaddS (rook : RookKey) (cell : Fin 64)
  /-- CELL_FMUL_S (R286): Cell binary32 multiplication in RNE. -/
  | cellFmulS (rook : RookKey) (cell : Fin 64)
  /-- CELL_FMA_S (R286): Cell binary32 fused multiply-add. -/
  | cellFmaS (rook : RookKey) (cell : Fin 64)
  /-- CELL_FMAX_S (R286): Cell binary32 maximum. -/
  | cellFmaxS (rook : RookKey) (cell : Fin 64)
  /-- CELL_FMIN_S (R286): Cell binary32 minimum. -/
  | cellFminS (rook : RookKey) (cell : Fin 64)
  /-- CELL_FLT_S (R286): Cell binary32 less-than compare with control output. -/
  | cellFltS (rook : RookKey) (cell : Fin 64)
  /-- CELL_CBR (R286): Cell branch on a consumed control token. -/
  | cellCbr (rook : RookKey) (cell : Fin 64)
  /-- CELL_STEER (R286): Cell forwards or discards a by a control token. -/
  | cellSteer (rook : RookKey) (cell : Fin 64)
  /-- CELL_CVT_S_W (R286): Cell INT32 to binary32 conversion. -/
  | cellCvtSW (rook : RookKey) (cell : Fin 64)
  /-- CELL_CVT_W_S (R286): Cell binary32 to saturated INT32 conversion. -/
  | cellCvtWS (rook : RookKey) (cell : Fin 64)
  /-- CELL_FNC (R286): Cell consumes a and emits a fence marker. -/
  | cellFnc (rook : RookKey) (cell : Fin 64)
  /-- LINK_TOKEN_ARRIVAL (R381): A token on a cut stream edge reaches the receiving rook. -/
  | linkTokenArrival (rook : RookKey) (channel : Nat) (tok : Token)
  /-- LINK_CREDIT_RETURN (R381): Credit for a consumed token returns to the sending rook. -/
  | linkCreditReturn (rook : RookKey) (channel : Nat)
  /-- STREAM_GRAPH_START (R306): Sources of a stream graph start after every rook has acknowledged its load. -/
  | streamGraphStart (launch : Nat)
  /-- PHASE_END (R307): A rook's phase ends, its writes are released and it accepts its next configuration. -/
  | phaseEnd (rook : RookKey)
  /-- GRAPH_SWAP (R308): At swap cycle W every old source acts as exhausted. -/
  | graphSwap (launch : Nat) (w : Nat) (pkg : Option PkgKey) (images : List (RookKey × Nat))
  /-- ARBITER_FREEZE (R309): The Arbiter detects a hang and freezes the region, answering its calls poisoned. -/
  | arbiterFreeze (rook : RookKey)
  /-- SNAP_ARRIVAL (R311): A SNAP marker reaches a unit, which saves its state and records later tokens. -/
  | snapArrival (rook : RookKey) (unit : Nat) (input : Nat)
  /-- QUEUE_DOORBELL (R323): A host write to TAIL makes new launch records available and raises the launch unit's time. -/
  | queueDoorbell (die : DieKey) (queue : Nat) (tail : BitVec 32)
  /-- COMPLETION_RING_RELEASE (R323): A host write to CHEAD frees completion-ring room, unblocking held completions and admissions. -/
  | completionRingRelease (die : DieKey) (queue : Nat) (chead : BitVec 32)
  /-- LNCH_SUBMISSION (R324): The launch unit takes a lnch record into the device queue and answers. -/
  | lnchSubmission (m : LnchMsg)
  /-- LAUNCH_ADMISSION (R326): The selected record is checked and admitted when its placement and resources exist. -/
  | launchAdmission (die : DieKey)
  /-- PLACEMENT_REQUEST (R417): Another die processes a placement request, reserving its part or answering not ready. -/
  | placementRequest (m : PlaceMsg)
  /-- PLACEMENT_ANSWER (R417): The receiving die collects placement answers and admits or releases the round. -/
  | placementAnswer (m : PlaceMsg) (ready : Bool) (time : Nat)
  /-- LAUNCH_START (R329): All threads of the die start in one cycle, 40 cycles after admission steps end. -/
  | launchStart (launch : Nat) (die : DieKey)
  /-- LAUNCH_COMPLETION (R331): A launch's threads and rooks have finished, so its phase time is fixed and its snapshot and window released. -/
  | launchCompletion (launch : Nat)
  /-- COMPLETION_REPORT (R332): The completion entry and DONE are written when the ring has room. -/
  | completionReport (die : DieKey)
  /-- ABORT (R334): A launch is aborted, stopping its threads and dropping its contexts. -/
  | abort (launch : Nat) (cause : Nat)
  /-- HCALL (R337): A write to cr.hcall queues a runtime request to the host's completion ring. -/
  | hcall (core : CoreKey) (slot : Nat) (addr : Word)
  /-- INTI (R385): A host write to INTI raises interrupt 0x1E0 in a named thread. -/
  | inti (launch : Nat) (idx : Nat) (source : Nat)
  /-- PREEMPT (R350): A pre-empt request stops admissions and interrupts every thread of the context in its save set. -/
  | preempt (pkg : PkgKey) (ctx : Nat)
  /-- PSAVE (R351): A write to cr.psave parks the thread for saving. -/
  | psave (t : ThreadRef)
  /-- CORE_RECORD_WRITE (R357): Once all its slots are saved and drained, a core writes its record to the save area. -/
  | coreRecordWrite (core : CoreKey)
  /-- WEIGHT_STORE_SAVE (R357): The weight store is written after the cluster's last core record. -/
  | weightStoreSave (cluster : ClusterKey)
  /-- ROOK_RECORD_WRITE (R357): A rook writes its record after its SNAP part completes. -/
  | rookRecordWrite (rook : RookKey)
  /-- SAVE_HEADER_WRITE (R356): The save header is written and, once acknowledged, the pre-emption is reported. -/
  | saveHeaderWrite (pkg : PkgKey)
  /-- RESUME (R358): A resume request reads and restores a context's save area. -/
  | resume (pkg : PkgKey) (ctx : Nat)
  /-- RESUMED_THREAD_START (R358): Restored threads become ready in one cycle, 40 cycles after the last read. -/
  | resumedThreadStart (pkg : PkgKey)
  /-- TLBI_CONTEXT (R348): Shootdown of every translation of the writer's context in the scope. -/
  | tlbiContext (t : ThreadRef) (id : Nat) (scope : Scope)
  /-- TLBI_PAGE (R348): Shootdown of the translation of one page in the scope. -/
  | tlbiPage (t : ThreadRef) (id : Nat) (scope : Scope) (va : Word)
  /-- TLBI_ALL (R348): Shootdown of every translation of every context in the scope. -/
  | tlbiAll (t : ThreadRef) (id : Nat) (scope : Scope)
  /-- MBOX_WRITE (R138): A write to cr.mbox relocates the rings and discards every queued message. -/
  | mboxWrite (core : CoreKey) (val : Word)
  /-- VPOOL_WRITE (R362): A write to cr.vpool places the version pool and resets the sweep pointer. -/
  | vpoolWrite (cluster : ClusterKey) (val : Word)
  /-- HOST_WRITE (R384): A host write over the Birsyn port is applied at the home. -/
  | hostWrite (pkg : PkgKey) (off : Nat) (bytes : List Byte)
  /-- HOST_READ (R384): A host read returns the newest version after earlier host writes are acknowledged. -/
  | hostRead (pkg : PkgKey) (off : Nat) (size : Nat)
  /-- SOFT_ERROR (R390): A storage error is corrected or poisons its unit. -/
  | softError (e : SoftErr)
  /-- FLIT_REPLAY (R379): A link replays a flit that failed its check. -/
  | flitReplay (e : FlitErr)
  /-- SHADOW_BUNDLE (R394): The shadow core executes the primary's bundle one cycle later and compares. -/
  | shadowBundle (f : FollowMsg)
  /-- CHECKPOINT (R397): A mirrored pair stops, compares, copies state and releases held stores. -/
  | checkpoint (core : CoreKey)
  /-- MIRRORED_ROLLBACK (R398): A mismatch rolls the pair back to its last checkpoint. -/
  | mirroredRollback (core : CoreKey) (slot : Nat) (pc : Word)
  /-- RELEASE_REGION (R392): A cr.elctl write with ACT 1 releases a frozen region. -/
  | releaseRegion (rook : RookKey)
  /-- RETIRE_CLUSTER (R401): A cr.elctl write with ACT 2 starts retirement of a logical cluster. -/
  | retireCluster (cluster : ClusterKey)
  /-- RETIREMENT_DONE (R401): The cluster's state moves to a spare, the repair map updates and the result is logged. -/
  | retirementDone (cluster : ClusterKey)
  /-- LPDDR6_REFRESH (R257): An LPDDR6 controller group is closed by refresh. -/
  | lpddr6Refresh (die : DieKey) (group : Nat)
  /-- PCYC_BEACON (R382): A package 0 beacon aligns the pod cycle count. -/
  | pcycBeacon (pkg : PkgKey) (count : BitVec 64)
  /-- COLD_RESET (R402): Power-on or MRST_N runs the whole bring-up sequence. -/
  | coldReset (pkg : PkgKey) (b : BringUp)
  /-- POD_IDENTITY_TIMEOUT (R405): With no SETPOD within 10 s, Yamus writes a one-package pod identity. -/
  | podIdentityTimeout (pkg : PkgKey)
  /-- DIE_RELEASE (R406): Yamus releases the four dies in one cycle with all clocks and times at 0. -/
  | dieRelease (pkg : PkgKey)
  /-- STATUS (R407): Returns bring-up step, fault code and firmware version. -/
  | status (pkg : PkgKey)
  /-- LOADFW (R407): Stages a firmware image for the next reset. -/
  | loadfw (pkg : PkgKey) (image : FwImage)
  /-- RESET (R402): Warm reset running the whole bring-up sequence. -/
  | reset (pkg : PkgKey) (b : BringUp)
  /-- ATTEST (R408): Returns a signed attestation report over a nonce. -/
  | attest (pkg : PkgKey) (nonce : List Byte)
  /-- TELEM (R409): Returns the current telemetry readings. -/
  | telem (pkg : PkgKey)
  /-- SETLIM (R410): Sets the module power limit. -/
  | setlim (pkg : PkgKey) (watts : Nat)
  /-- SETPOD (R405): Writes cr.pod and the routing table, refused after release. -/
  | setpod (pkg : PkgKey) (c : PodConfig)
  /-- GETREP (R407): Returns the repair map and persistent record. -/
  | getrep (pkg : PkgKey)
  /-- UNKNOWN_OPCODE (R407): A management frame with an unassigned opcode is answered with status 0xFF. -/
  | unknownOpcode (pkg : PkgKey) (opcode : Byte)
  /-- TELEMETRY_REFRESH (R409): Yamus refreshes the telemetry readings every 1 ms. -/
  | telemetryRefresh (pkg : PkgKey)
  /-- CLOCK_STEP_DOWN (R410): The 1 s power mean exceeds the limit and the clock drops one step. -/
  | clockStepDown (pkg : PkgKey)
  /-- CLOCK_STEP_UP (R410): The mean stayed 5% below the limit for 1 s and the clock rises one step. -/
  | clockStepUp (pkg : PkgKey)
  /-- THERMAL_LIMIT (R410): A temperature reaches its limit and the clock drops to 425 MHz. -/
  | thermalLimit (pkg : PkgKey)
  /-- POD_CLOCK_STEP_CHANGE (R410): Every package changes clock step at the PCYC value distributed by package 0. -/
  | podClockStepChange (m : ClockMsg)
  /-- FILL_ACKNOWLEDGEMENT (R137): The target core's acknowledgement of a fill, accepted or dropped, reaches the sender and ends the fill's outstanding state. -/
  | fillAcknowledgement (t : ThreadRef) (id : Nat)
  /-- COMMIT_ACKNOWLEDGEMENT (R153): The homes' acknowledgements of a committed transaction reach the core, which raises cr.time to C, writes gd and resumes the thread. -/
  | commitAcknowledgement (t : ThreadRef) (id : Nat) (wts : Nat)
  /-- HOST_WRITE_ACKNOWLEDGEMENT (R384): A host write's acknowledgement returns to the Birsyn port, raising die 0's launch-unit time and releasing held host reads and doorbell writes. -/
  | hostWriteAcknowledgement (pkg : PkgKey) (id : Nat) (wts : Nat)
  /-- IMAGE_CACHE_INVALIDATION (R301): System software invalidates a context's entries in a cluster's image cache after changing that context's function map. -/
  | imageCacheInvalidation (cluster : ClusterKey) (ctx : Nat)
  /-- ADD (R77): Writes the 64-bit wrapping sum of two general registers. -/
  | add (d : Fin 32) (a : Fin 32) (b : Fin 32)
  /-- SUB (R77): Writes the 64-bit wrapping difference of two general registers. -/
  | sub (d : Fin 32) (a : Fin 32) (b : Fin 32)
  /-- AND (R77): Writes the bitwise AND of two general registers. -/
  | and (d : Fin 32) (a : Fin 32) (b : Fin 32)
  /-- OR (R77): Writes the bitwise OR of two general registers. -/
  | or (d : Fin 32) (a : Fin 32) (b : Fin 32)
  /-- XOR (R77): Writes the bitwise XOR of two general registers. -/
  | xor (d : Fin 32) (a : Fin 32) (b : Fin 32)
  /-- ANDN (R77): Writes gs1 AND NOT gs2. -/
  | andn (d : Fin 32) (a : Fin 32) (b : Fin 32)
  /-- SLL (R77): Shifts gs1 left by gs2<5:0>. -/
  | sll (d : Fin 32) (a : Fin 32) (b : Fin 32)
  /-- SRL (R77): Shifts gs1 right logically by gs2<5:0>. -/
  | srl (d : Fin 32) (a : Fin 32) (b : Fin 32)
  /-- SRA (R77): Shifts gs1 right arithmetically by gs2<5:0>. -/
  | sra (d : Fin 32) (a : Fin 32) (b : Fin 32)
  /-- SLT (R77): Writes 1 if gs1 is less than gs2 as signed values, else 0. -/
  | slt (d : Fin 32) (a : Fin 32) (b : Fin 32)
  /-- SLTU (R77): Writes 1 if gs1 is less than gs2 as unsigned values, else 0. -/
  | sltu (d : Fin 32) (a : Fin 32) (b : Fin 32)
  /-- MIN (R77): Writes the signed minimum of two registers. -/
  | min (d : Fin 32) (a : Fin 32) (b : Fin 32)
  /-- MAX (R77): Writes the signed maximum of two registers. -/
  | max (d : Fin 32) (a : Fin 32) (b : Fin 32)
  /-- MINU (R77): Writes the unsigned minimum of two registers. -/
  | minu (d : Fin 32) (a : Fin 32) (b : Fin 32)
  /-- MAXU (R77): Writes the unsigned maximum of two registers. -/
  | maxu (d : Fin 32) (a : Fin 32) (b : Fin 32)
  /-- ADDS (R77): Writes the signed sum saturated to 64 bits. -/
  | adds (d : Fin 32) (a : Fin 32) (b : Fin 32)
  /-- SUBS (R77): Writes the signed difference saturated to 64 bits. -/
  | subs (d : Fin 32) (a : Fin 32) (b : Fin 32)
  /-- ADDI (R78): Adds a sign-extended 13-bit immediate to a register. -/
  | addi (d : Fin 32) (a : Fin 32) (i : BitVec 13)
  /-- ANDI (R78): ANDs a register with a sign-extended immediate. -/
  | andi (d : Fin 32) (a : Fin 32) (i : BitVec 13)
  /-- ORI (R78): ORs a register with a sign-extended immediate. -/
  | ori (d : Fin 32) (a : Fin 32) (i : BitVec 13)
  /-- XORI (R78): XORs a register with a sign-extended immediate. -/
  | xori (d : Fin 32) (a : Fin 32) (i : BitVec 13)
  /-- SLLI (R79): Shifts a register left by an immediate count. -/
  | slli (d : Fin 32) (a : Fin 32) (s : BitVec 6)
  /-- SRLI (R79): Shifts a register right logically by an immediate count. -/
  | srli (d : Fin 32) (a : Fin 32) (s : BitVec 6)
  /-- SRAI (R79): Shifts a register right arithmetically by an immediate count. -/
  | srai (d : Fin 32) (a : Fin 32) (s : BitVec 6)
  /-- SLTI (R78): Writes 1 if the register is less than the immediate as signed values. -/
  | slti (d : Fin 32) (a : Fin 32) (i : BitVec 13)
  /-- SLTIU (R78): Writes 1 if the register is less than the sign-extended immediate as unsigned values. -/
  | sltiu (d : Fin 32) (a : Fin 32) (i : BitVec 13)
  /-- LDI (R78): Loads a sign-extended 18-bit immediate into a register. -/
  | ldi (d : Fin 32) (i : BitVec 18)
  /-- LSH (R78): Shifts the register left by 18 and ORs in a zero-extended 18-bit immediate. -/
  | lsh (d : Fin 32) (i : BitVec 18)
  /-- MUL (R80): Writes the low 64 bits of the product. -/
  | mul (d : Fin 32) (a : Fin 32) (b : Fin 32)
  /-- MULH (R80): Writes the high 64 bits of the signed 128-bit product. -/
  | mulh (d : Fin 32) (a : Fin 32) (b : Fin 32)
  /-- MULHU (R80): Writes the high 64 bits of the unsigned 128-bit product. -/
  | mulhu (d : Fin 32) (a : Fin 32) (b : Fin 32)
  /-- DIV (R80): Starts a signed division whose quotient makes the destination Pending for a data-dependent latency. -/
  | div (d : Fin 32) (a : Fin 32) (b : Fin 32)
  /-- DIV_CK (R80): Signed division that traps with 0x041 at issue on a zero divisor. -/
  | divCk (d : Fin 32) (a : Fin 32) (b : Fin 32)
  /-- DIVU (R80): Starts an unsigned division with a Pending destination. -/
  | divu (d : Fin 32) (a : Fin 32) (b : Fin 32)
  /-- DIVU_CK (R80): Unsigned division that traps on a zero divisor. -/
  | divuCk (d : Fin 32) (a : Fin 32) (b : Fin 32)
  /-- REM (R80): Starts a signed remainder with a Pending destination. -/
  | rem (d : Fin 32) (a : Fin 32) (b : Fin 32)
  /-- REM_CK (R80): Signed remainder that traps on a zero divisor. -/
  | remCk (d : Fin 32) (a : Fin 32) (b : Fin 32)
  /-- REMU (R80): Starts an unsigned remainder with a Pending destination. -/
  | remu (d : Fin 32) (a : Fin 32) (b : Fin 32)
  /-- REMU_CK (R80): Unsigned remainder that traps on a zero divisor. -/
  | remuCk (d : Fin 32) (a : Fin 32) (b : Fin 32)
  /-- MOVZ (R81): Copies gs1 to gd when gs2 is zero, otherwise writes nothing. -/
  | movz (d : Fin 32) (a : Fin 32) (b : Fin 32)
  /-- MOVN (R81): Copies gs1 to gd when gs2 is nonzero, otherwise writes nothing. -/
  | movn (d : Fin 32) (a : Fin 32) (b : Fin 32)
  /-- CLZ (R81): Counts leading zero bits. -/
  | clz (d : Fin 32) (a : Fin 32)
  /-- CTZ (R81): Counts trailing zero bits. -/
  | ctz (d : Fin 32) (a : Fin 32)
  /-- POPC (R81): Counts one bits. -/
  | popc (d : Fin 32) (a : Fin 32)
  /-- FADD (R84): IEEE addition in the selected scalar format, rounded once by RM. -/
  | fadd (d : Fin 32) (a : Fin 32) (b : Fin 32) (f : Fmt)
  /-- FSUB (R84): IEEE subtraction in the selected scalar format. -/
  | fsub (d : Fin 32) (a : Fin 32) (b : Fin 32) (f : Fmt)
  /-- FMUL (R84): IEEE multiplication in the selected scalar format. -/
  | fmul (d : Fin 32) (a : Fin 32) (b : Fin 32) (f : Fmt)
  /-- FDIV (R84): IEEE division in the selected scalar format. -/
  | fdiv (d : Fin 32) (a : Fin 32) (b : Fin 32) (f : Fmt)
  /-- FSQRT (R84): IEEE square root in the selected scalar format. -/
  | fsqrt (d : Fin 32) (a : Fin 32) (f : Fmt)
  /-- FMIN (R85): Writes the lesser operand with NaN and signed-zero rules. -/
  | fmin (d : Fin 32) (a : Fin 32) (b : Fin 32) (f : Fmt)
  /-- FMAX (R85): Writes the greater operand with NaN and signed-zero rules. -/
  | fmax (d : Fin 32) (a : Fin 32) (b : Fin 32) (f : Fmt)
  /-- FCSIGN (R85): Copies gs1 with the sign of gs2. -/
  | fcsign (d : Fin 32) (a : Fin 32) (b : Fin 32) (f : Fmt)
  /-- FNSIGN (R85): Copies gs1 with the inverted sign of gs2. -/
  | fnsign (d : Fin 32) (a : Fin 32) (b : Fin 32) (f : Fmt)
  /-- FXSIGN (R85): Copies gs1 with its sign XORed with the sign of gs2. -/
  | fxsign (d : Fin 32) (a : Fin 32) (b : Fin 32) (f : Fmt)
  /-- FEQ (R86): Writes 1 if the two floating-point operands are equal. -/
  | feq (d : Fin 32) (a : Fin 32) (b : Fin 32) (f : Fmt)
  /-- FLT (R86): Writes 1 if gs1 is less than gs2 in floating point. -/
  | flt (d : Fin 32) (a : Fin 32) (b : Fin 32) (f : Fmt)
  /-- FLE (R86): Writes 1 if gs1 is less than or equal to gs2 in floating point. -/
  | fle (d : Fin 32) (a : Fin 32) (b : Fin 32) (f : Fmt)
  /-- FKIND (R86): Writes a one-hot class mask of the operand. -/
  | fkind (d : Fin 32) (a : Fin 32) (f : Fmt)
  /-- FCVT (R87): Converts between two scalar floating-point formats. -/
  | fcvt (d : Fin 32) (a : Fin 32) (fe : Fmt) (f : Fmt)
  /-- FCVTI (R87): Converts a floating-point value to INT64 in the named rounding mode. -/
  | fcvti (d : Fin 32) (a : Fin 32) (md : CvtMode) (f : Fmt)
  /-- FCVTIU (R87): Converts a floating-point value to unsigned 64-bit in the named rounding mode. -/
  | fcvtiu (d : Fin 32) (a : Fin 32) (md : CvtMode) (f : Fmt)
  /-- ICVTF (R87): Converts INT64 to a floating-point format, rounded by RM. -/
  | icvtf (d : Fin 32) (a : Fin 32) (f : Fmt)
  /-- UCVTF (R87): Converts unsigned 64-bit to a floating-point format, rounded by RM. -/
  | ucvtf (d : Fin 32) (a : Fin 32) (f : Fmt)
  /-- FMADD (R88): Fused gs1 x gs2 + gs3, rounded once. -/
  | fmadd (d : Fin 32) (a : Fin 32) (b : Fin 32) (c : Fin 32) (f : Fmt2)
  /-- FMSUB (R88): Fused gs1 x gs2 - gs3, rounded once. -/
  | fmsub (d : Fin 32) (a : Fin 32) (b : Fin 32) (c : Fin 32) (f : Fmt2)
  /-- FNMADD (R88): Fused -(gs1 x gs2) - gs3, rounded once. -/
  | fnmadd (d : Fin 32) (a : Fin 32) (b : Fin 32) (c : Fin 32) (f : Fmt2)
  /-- FNMSUB (R88): Fused -(gs1 x gs2) + gs3, rounded once. -/
  | fnmsub (d : Fin 32) (a : Fin 32) (b : Fin 32) (c : Fin 32) (f : Fmt2)
  /-- BEQ (R89): Branches when the two registers are equal. -/
  | beq (a : Fin 32) (b : Fin 32) (o : BitVec 13)
  /-- BNE (R89): Branches when the two registers differ. -/
  | bne (a : Fin 32) (b : Fin 32) (o : BitVec 13)
  /-- BLT (R89): Branches when gs1 is less than gs2, signed. -/
  | blt (a : Fin 32) (b : Fin 32) (o : BitVec 13)
  /-- BGE (R89): Branches when gs1 is at least gs2, signed. -/
  | bge (a : Fin 32) (b : Fin 32) (o : BitVec 13)
  /-- BLTU (R89): Branches when gs1 is less than gs2, unsigned. -/
  | bltu (a : Fin 32) (b : Fin 32) (o : BitVec 13)
  /-- BGEU (R89): Branches when gs1 is at least gs2, unsigned. -/
  | bgeu (a : Fin 32) (b : Fin 32) (o : BitVec 13)
  /-- BMANY (R90): Branches when any bit of the mask register is set. -/
  | bmany (a : Fin 8) (o : BitVec 13)
  /-- BMNONE (R90): Branches when no bit of the mask register is set. -/
  | bmnone (a : Fin 8) (o : BitVec 13)
  /-- BMALL (R90): Branches when the mask register holds 0xFFFF. -/
  | bmall (a : Fin 8) (o : BitVec 13)
  /-- BMNALL (R90): Branches when any bit of the mask register is clear. -/
  | bmnall (a : Fin 8) (o : BitVec 13)
  /-- JAL (R91): Writes the link and jumps by a word offset. -/
  | jal (d : Fin 32) (o : BitVec 18)
  /-- JALR (R91): Writes the link and jumps to register plus byte immediate, trapping if misaligned. -/
  | jalr (d : Fin 32) (a : Fin 32) (i : BitVec 13)
  /-- CRR (R94): Reads a control register into a general register. -/
  | crr (d : Fin 32) (i : BitVec 12)
  /-- CRW (R94): Writes a general register into a control register under its access rules. -/
  | crw (a : Fin 32) (i : BitVec 12)
  /-- CRS (R94): Returns a control register's old value and sets its RW bits named by gs. -/
  | crs (d : Fin 32) (a : Fin 32) (i : BitVec 12)
  /-- CRC (R94): Returns a control register's old value and clears its RW bits named by gs. -/
  | crc (d : Fin 32) (a : Fin 32) (i : BitVec 12)
  /-- EXIT (R97): Retires the thread: it issues nothing more and begins its drain. -/
  | exit
  /-- SCALL (R98): Completes and raises supervisor-call cause 0x1C0 plus code. -/
  | scall (c : Fin 32)
  /-- BRK (R98): Raises breakpoint cause 0x1E1. -/
  | brk
  /-- HRET (R99): Returns from the user trap handler to cr.epc and clears INTRAP. -/
  | hret
  /-- SRET (R99): Returns from a supervisor trap, restoring PC, SUP and IE. -/
  | sret
  /-- LD_B (R103): Loads a sign-extended byte. -/
  | ldB (d : Fin 32) (a : Fin 32) (i : BitVec 13)
  /-- LD_BU (R103): Loads a zero-extended byte. -/
  | ldBu (d : Fin 32) (a : Fin 32) (i : BitVec 13)
  /-- LD_H (R103): Loads a sign-extended halfword. -/
  | ldH (d : Fin 32) (a : Fin 32) (i : BitVec 13)
  /-- LD_HU (R103): Loads a zero-extended halfword. -/
  | ldHu (d : Fin 32) (a : Fin 32) (i : BitVec 13)
  /-- LD_W (R103): Loads a sign-extended word. -/
  | ldW (d : Fin 32) (a : Fin 32) (i : BitVec 13)
  /-- LD_WU (R103): Loads a zero-extended word. -/
  | ldWu (d : Fin 32) (a : Fin 32) (i : BitVec 13)
  /-- LD_D (R103): Loads a doubleword. -/
  | ldD (d : Fin 32) (a : Fin 32) (i : BitVec 13)
  /-- ST_B (R103): Stores the low byte of a register. -/
  | stB (s : Fin 32) (a : Fin 32) (i : BitVec 13)
  /-- ST_H (R103): Stores the low halfword of a register. -/
  | stH (s : Fin 32) (a : Fin 32) (i : BitVec 13)
  /-- ST_W (R103): Stores the low word of a register. -/
  | stW (s : Fin 32) (a : Fin 32) (i : BitVec 13)
  /-- ST_D (R103): Stores a doubleword. -/
  | stD (s : Fin 32) (a : Fin 32) (i : BitVec 13)
  /-- LD_V (R104): Loads 64 bytes into a vector register. -/
  | ldV (d : Fin 16) (a : Fin 32) (i : BitVec 13)
  /-- ST_V (R104): Stores a vector register as 64 bytes. -/
  | stV (s : Fin 16) (a : Fin 32) (i : BitVec 13)
  /-- VGATH (R176): Gathers enabled lanes' words from the core's scratchpad into a vector register. -/
  | vgath (d : Fin 16) (a : Fin 32) (b : Fin 16) (mk : Fin 8)
  /-- VSCAT (R176): Scatters enabled lanes' words into the core's scratchpad in ascending lane order. -/
  | vscat (s : Fin 16) (a : Fin 32) (b : Fin 16) (mk : Fin 8)
  /-- LDFE (R116): Takes a full tagged word and sets it empty, waiting while it is empty. -/
  | ldfe (t : Fin 32) (n : Fin 32) (r : Bool) (e : Scope)
  /-- LDFF (R116): Reads a full tagged word, leaving it full, waiting while it is empty. -/
  | ldff (t : Fin 32) (n : Fin 32) (r : Bool) (e : Scope)
  /-- STFE (R116): Writes an empty tagged word and sets it full, waiting while it is full. -/
  | stfe (t : Fin 32) (n : Fin 32) (r : Bool) (e : Scope)
  /-- STF (R116): Writes a tagged word and sets it full. -/
  | stf (t : Fin 32) (n : Fin 32) (r : Bool) (e : Scope)
  /-- STE (R116): Writes a tagged word and sets it empty. -/
  | ste (t : Fin 32) (n : Fin 32) (r : Bool) (e : Scope)
  /-- LD_BU_ACQ (R114): Ordered byte load read at the home with acquire ordering. -/
  | ldBuAcq (t : Fin 32) (n : Fin 32) (r : Bool) (e : Scope)
  /-- LD_HU_ACQ (R114): Ordered halfword load with acquire ordering. -/
  | ldHuAcq (t : Fin 32) (n : Fin 32) (r : Bool) (e : Scope)
  /-- LD_WU_ACQ (R114): Ordered word load with acquire ordering. -/
  | ldWuAcq (t : Fin 32) (n : Fin 32) (r : Bool) (e : Scope)
  /-- LD_D_ACQ (R114): Ordered doubleword load with acquire ordering. -/
  | ldDAcq (t : Fin 32) (n : Fin 32) (r : Bool) (e : Scope)
  /-- ST_B_REL (R114): Ordered byte store with release ordering. -/
  | stBRel (t : Fin 32) (n : Fin 32) (r : Bool) (e : Scope)
  /-- ST_H_REL (R114): Ordered halfword store with release ordering. -/
  | stHRel (t : Fin 32) (n : Fin 32) (r : Bool) (e : Scope)
  /-- ST_W_REL (R114): Ordered word store with release ordering. -/
  | stWRel (t : Fin 32) (n : Fin 32) (r : Bool) (e : Scope)
  /-- ST_D_REL (R114): Ordered doubleword store with release ordering. -/
  | stDRel (t : Fin 32) (n : Fin 32) (r : Bool) (e : Scope)
  /-- AMO_ADD (R120): Atomic wrapping add at the home, returning the old value. -/
  | amoAdd (t : Fin 32) (n : Fin 32) (s : Fin 32) (r : OrdKind) (wd : Width)
  /-- AMO_AND (R120): Atomic AND at the home. -/
  | amoAnd (t : Fin 32) (n : Fin 32) (s : Fin 32) (r : OrdKind) (wd : Width)
  /-- AMO_OR (R120): Atomic OR at the home. -/
  | amoOr (t : Fin 32) (n : Fin 32) (s : Fin 32) (r : OrdKind) (wd : Width)
  /-- AMO_XOR (R120): Atomic XOR at the home. -/
  | amoXor (t : Fin 32) (n : Fin 32) (s : Fin 32) (r : OrdKind) (wd : Width)
  /-- AMO_MAX (R120): Atomic signed maximum at the home. -/
  | amoMax (t : Fin 32) (n : Fin 32) (s : Fin 32) (r : OrdKind) (wd : Width)
  /-- AMO_MIN (R120): Atomic signed minimum at the home. -/
  | amoMin (t : Fin 32) (n : Fin 32) (s : Fin 32) (r : OrdKind) (wd : Width)
  /-- AMO_SWAP (R120): Atomic swap at the home. -/
  | amoSwap (t : Fin 32) (n : Fin 32) (s : Fin 32) (r : OrdKind) (wd : Width)
  /-- AMO_FADD (R120): Atomic floating-point add at the home in RNE. -/
  | amoFadd (t : Fin 32) (n : Fin 32) (s : Fin 32) (r : OrdKind) (wd : Width)
  /-- AMO_MAXU (R120): Atomic unsigned maximum at the home. -/
  | amoMaxu (t : Fin 32) (n : Fin 32) (s : Fin 32) (r : OrdKind) (wd : Width)
  /-- AMO_MINU (R120): Atomic unsigned minimum at the home. -/
  | amoMinu (t : Fin 32) (n : Fin 32) (s : Fin 32) (r : OrdKind) (wd : Width)
  /-- AMO_FMAX (R120): Atomic floating-point maximum at the home. -/
  | amoFmax (t : Fin 32) (n : Fin 32) (s : Fin 32) (r : OrdKind) (wd : Width)
  /-- AMO_FMIN (R120): Atomic floating-point minimum at the home. -/
  | amoFmin (t : Fin 32) (n : Fin 32) (s : Fin 32) (r : OrdKind) (wd : Width)
  /-- LRES (R122): Loads the newest value and sets the thread's reservation on the line. -/
  | lres (t : Fin 32) (n : Fin 32) (r : Bool) (wd : Width)
  /-- SCND (R122): Stores if the reservation holds and reports success, clearing the reservation. -/
  | scnd (t : Fin 32) (n : Fin 32) (s : Fin 32) (r : Bool) (wd : Width)
  /-- CAS (R122): Compares memory with gd and swaps in gs when equal, returning the old value. -/
  | cas (t : Fin 32) (n : Fin 32) (s : Fin 32) (r : OrdKind) (wd : Width)
  /-- RED (R124): Sends a reduction applied at the home without a register result. -/
  | red (op : RedOp) (wd : Width) (n : Fin 32) (s : Fin 32) (r : Bool) (e : Scope)
  /-- REDO (R126): Sends a slice-ordered reduction contribution to a declared target. -/
  | redo (t : Fin 32) (n : Fin 32) (s : Fin 32)
  /-- ORDSET (R125): Declares a slice-ordered merge target at the home. -/
  | ordset (t : Fin 32) (n : Fin 32) (s : Fin 32)
  /-- FENCE (R115): Performs the waits of its ordering kind. -/
  | fence (r : OrdKind) (e : Scope)
  /-- CPUB (R128): Publishes the code lines of a range and raises the time of cores in scope. -/
  | cpub (n : Fin 32) (s : Fin 32) (e : Scope)
  /-- BAR_ARR (R132): Arrives at a barrier phase after release waits, declaring pending bytes. -/
  | barArr (b : Fin 4) (s : Fin 32) (e : Scope)
  /-- BAR_WT (R132): Parks until the phase of the thread's last arrival completes. -/
  | barWt (b : Fin 4) (e : Scope)
  /-- BAR (R132): Arrives at a barrier and waits for the phase to complete. -/
  | bar (b : Fin 4) (s : Fin 32) (e : Scope)
  /-- MON (R134): Arms a monitor on a 64-byte block and returns its index. -/
  | mon (d : Fin 32) (a : Fin 32)
  /-- MONX (R134): Disarms every monitor of the thread. -/
  | monx
  /-- WAIT (R135): Completes on a set monitor latch or parks until a latch or timeout. -/
  | wait (d : Fin 32)
  /-- FILL (R137): Sends a value to an Open register of a named slot and generation. -/
  | fill (a : Fin 32) (b : Fin 32)
  /-- OPEN (R136): Sets a register's tag to Open for a later fill. -/
  | openReg (r : RegName)
  /-- MSEND (R140): Sends a scratchpad payload to a mailbox ring of a target core and blocks until accepted. -/
  | msend (a : Fin 32) (b : Fin 32)
  /-- MRECV (R141): Takes the oldest message of a mailbox, high ring first, parking while both are empty. -/
  | mrecv (d : Fin 32) (a : Fin 32) (b : Fin 32)
  /-- MPOLL (R141): Takes the oldest message of a mailbox or returns 0 without parking. -/
  | mpoll (d : Fin 32) (a : Fin 32) (b : Fin 32)
  /-- SPAWN (R144): Sends a new thread context to the home core of a page and blocks until accepted. -/
  | spawn (d : Fin 32) (a : Fin 32) (b : Fin 32)
  /-- MIG (R145): Migrates the thread's context to the home core of a page. -/
  | mig (a : Fin 32)
  /-- GANG (R212): Forms a gang with followers in the same slot of neighbouring quad cores. -/
  | gang (d : Fin 32) (a : Fin 32)
  /-- SPLIT (R214): Dissolves a gang so each member continues independently. -/
  | split
  /-- CFGLD (R211): Loads a function's configuration image into the cluster's image cache. -/
  | cfgld (d : Fin 32) (a : Fin 32)
  /-- LNCH (R146): Submits a launch record to the die's launch unit after release waits. -/
  | lnch (d : Fin 32) (a : Fin 32)
  /-- SNAP (R148): Registers a thread-level snapshot at the core's time. -/
  | snap (d : Fin 32)
  /-- SNEND (R148): Releases a thread-level snapshot and restores the launch snapshot time. -/
  | snend
  /-- TXB (R150): Opens a transaction with a registered snapshot time. -/
  | txb (d : Fin 32)
  /-- TXC (R153): Commits the transaction or reports conflict or failure. -/
  | txc (d : Fin 32)
  /-- TXA (R154): Aborts the transaction, discarding its buffer. -/
  | txa
  /-- MMA (R185): Queues a dense tile multiply-accumulate into an accumulator. -/
  | mma (d : Fin 4) (a : Fin 32) (b : Fin 32)
  /-- GMMA (R189): Queues a joint quad-wide tile multiply-accumulate. -/
  | gmma (d : Fin 4) (a : Fin 32) (b : Fin 32)
  /-- MMAS (R185): Queues a sparse tile multiply-accumulate. -/
  | mmas (d : Fin 4) (a : Fin 32) (b : Fin 32)
  /-- MZERO (R191): Queues a command setting all accumulator elements to zero. -/
  | mzero (d : Fin 4)
  /-- MDRAIN (R192): Queues a drain of the accumulator through a drain-mode function, keeping values. -/
  | mdrain (d : Fin 4) (a : Fin 32) (b : Fin 32)
  /-- MDRAIN_Z (R192): Queues a drain that zeroes the accumulator in its last cycle. -/
  | mdrainZ (d : Fin 4) (a : Fin 32) (b : Fin 32)
  /-- MDRAIN_REL (R192): Queues a drain followed by release of the accumulator. -/
  | mdrainRel (d : Fin 4) (a : Fin 32) (b : Fin 32)
  /-- MVA_TO_VECTOR (R190): Reads 16 accumulator elements into a vector register after earlier tile commands complete. -/
  | mvaToVector (d : Fin 16) (a : Fin 4) (b : Fin 32)
  /-- MVA_TO_ACCUMULATOR (R190): Queues a write of 16 vector lanes into accumulator elements. -/
  | mvaToAccumulator (d : Fin 4) (a : Fin 16) (b : Fin 32)
  /-- MWAIT (R193): Parks until the thread's earlier tile commands on the accumulator complete. -/
  | mwait (d : Fin 4)
  /-- MWAIT_REL (R193): Waits for the accumulator's commands, then releases it. -/
  | mwaitRel (d : Fin 4)
  /-- CPY (R199): Queues a contiguous copy-engine copy. -/
  | cpy (d : Fin 32) (a : Fin 32) (b : Fin 32)
  /-- CPY2 (R199): Queues a strided two-dimensional copy. -/
  | cpy2 (d : Fin 32) (a : Fin 32) (b : Fin 32)
  /-- GATH (R199): Queues an indexed gather by the copy engine. -/
  | gath (d : Fin 32) (a : Fin 32) (b : Fin 32)
  /-- SCAT (R199): Queues an indexed scatter by the copy engine. -/
  | scat (d : Fin 32) (a : Fin 32) (b : Fin 32)
  /-- WSLD (R199): Queues a copy into the cluster's weight store. -/
  | wsld (d : Fin 32) (a : Fin 32) (b : Fin 32)
  /-- CWAIT (R201): Parks until the thread's copy commands complete or stop, then reports. -/
  | cwait (d : Fin 32)
  /-- GRES (R204): Resumes the thread's stopped copy command. -/
  | gres
  /-- GCAN (R204): Cancels the thread's stopped copy command and releases its locks. -/
  | gcan
  /-- SWSET (R206): Sets a sync word's target and runs its generation loop. -/
  | swset (a : Fin 32) (b : Fin 32)
  /-- SWWAIT (R206): Parks while a sync word's generation equals the given value. -/
  | swwait (d : Fin 32) (a : Fin 32) (b : Fin 32)
  /-- SERVE (R209): Calls a function server and blocks until the result returns. -/
  | serve (d : Fin 32) (a : Fin 32) (n : Fin 8) (f : BitVec 10)
  /-- SERVN (R209): Calls a function server leaving the result register Pending. -/
  | servn (d : Fin 32) (a : Fin 32) (n : Fin 8) (f : BitVec 10)
  /-- VBCST (R161): Broadcasts the low word of a general register to enabled lanes. -/
  | vbcst (d : Fin 16) (a : Fin 32) (mk : Fin 8)
  /-- VINS (R161): Inserts a word into one lane. -/
  | vins (d : Fin 16) (a : Fin 32) (b : Fin 32)
  /-- VEXT (R161): Extracts one lane zero-extended. -/
  | vext (d : Fin 32) (a : Fin 16) (b : Fin 32)
  /-- VEXTS (R161): Extracts one lane sign-extended. -/
  | vexts (d : Fin 32) (a : Fin 16) (b : Fin 32)
  /-- MTM (R161): Moves the low 16 bits of a general register into a mask register. -/
  | mtm (d : Fin 8) (a : Fin 32)
  /-- MFM (R161): Moves a mask register into a general register. -/
  | mfm (d : Fin 32) (a : Fin 8)
  /-- MPOPC (R161): Counts the set bits of a mask. -/
  | mpopc (d : Fin 32) (a : Fin 8)
  /-- MFFS (R161): Finds the lowest set bit of a mask. -/
  | mffs (d : Fin 32) (a : Fin 8)
  /-- VFADD_S (R162): Lane-wise FP32 addition. -/
  | vfaddS (d : Fin 16) (a : Fin 16) (b : Fin 16) (mk : Fin 8)
  /-- VFSUB_S (R162): Lane-wise FP32 subtraction. -/
  | vfsubS (d : Fin 16) (a : Fin 16) (b : Fin 16) (mk : Fin 8)
  /-- VFMUL_S (R162): Lane-wise FP32 multiplication. -/
  | vfmulS (d : Fin 16) (a : Fin 16) (b : Fin 16) (mk : Fin 8)
  /-- VFDIV_S (R162): Lane-wise FP32 division. -/
  | vfdivS (d : Fin 16) (a : Fin 16) (b : Fin 16) (mk : Fin 8)
  /-- VFSQRT_S (R162): Lane-wise FP32 square root. -/
  | vfsqrtS (d : Fin 16) (a : Fin 16) (mk : Fin 8)
  /-- VFMIN_S (R162): Lane-wise FP32 minimum. -/
  | vfminS (d : Fin 16) (a : Fin 16) (b : Fin 16) (mk : Fin 8)
  /-- VFMAX_S (R162): Lane-wise FP32 maximum. -/
  | vfmaxS (d : Fin 16) (a : Fin 16) (b : Fin 16) (mk : Fin 8)
  /-- VFCSIGN_S (R162): Lane-wise copy sign. -/
  | vfcsignS (d : Fin 16) (a : Fin 16) (b : Fin 16) (mk : Fin 8)
  /-- VFNSIGN_S (R162): Lane-wise negated sign. -/
  | vfnsignS (d : Fin 16) (a : Fin 16) (b : Fin 16) (mk : Fin 8)
  /-- VFXSIGN_S (R162): Lane-wise exclusive sign. -/
  | vfxsignS (d : Fin 16) (a : Fin 16) (b : Fin 16) (mk : Fin 8)
  /-- VADD (R163): Lane-wise INT32 addition. -/
  | vadd (d : Fin 16) (a : Fin 16) (b : Fin 16) (mk : Fin 8)
  /-- VSUB (R163): Lane-wise INT32 subtraction. -/
  | vsub (d : Fin 16) (a : Fin 16) (b : Fin 16) (mk : Fin 8)
  /-- VMUL (R163): Lane-wise low 32 bits of the product. -/
  | vmul (d : Fin 16) (a : Fin 16) (b : Fin 16) (mk : Fin 8)
  /-- VAND (R163): Lane-wise AND. -/
  | vand (d : Fin 16) (a : Fin 16) (b : Fin 16) (mk : Fin 8)
  /-- VOR (R163): Lane-wise OR. -/
  | vor (d : Fin 16) (a : Fin 16) (b : Fin 16) (mk : Fin 8)
  /-- VXOR (R163): Lane-wise XOR. -/
  | vxor (d : Fin 16) (a : Fin 16) (b : Fin 16) (mk : Fin 8)
  /-- VSLL (R163): Lane-wise left shift. -/
  | vsll (d : Fin 16) (a : Fin 16) (b : Fin 16) (mk : Fin 8)
  /-- VSRL (R163): Lane-wise logical right shift. -/
  | vsrl (d : Fin 16) (a : Fin 16) (b : Fin 16) (mk : Fin 8)
  /-- VSRA (R163): Lane-wise arithmetic right shift. -/
  | vsra (d : Fin 16) (a : Fin 16) (b : Fin 16) (mk : Fin 8)
  /-- VMIN (R163): Lane-wise signed minimum. -/
  | vmin (d : Fin 16) (a : Fin 16) (b : Fin 16) (mk : Fin 8)
  /-- VMAX (R163): Lane-wise signed maximum. -/
  | vmax (d : Fin 16) (a : Fin 16) (b : Fin 16) (mk : Fin 8)
  /-- VMINU (R163): Lane-wise unsigned minimum. -/
  | vminu (d : Fin 16) (a : Fin 16) (b : Fin 16) (mk : Fin 8)
  /-- VMAXU (R163): Lane-wise unsigned maximum. -/
  | vmaxu (d : Fin 16) (a : Fin 16) (b : Fin 16) (mk : Fin 8)
  /-- VADDS (R163): Lane-wise saturating signed addition. -/
  | vadds (d : Fin 16) (a : Fin 16) (b : Fin 16) (mk : Fin 8)
  /-- VSUBS (R163): Lane-wise saturating signed subtraction. -/
  | vsubs (d : Fin 16) (a : Fin 16) (b : Fin 16) (mk : Fin 8)
  /-- VFMADD_S (R164): Lane-wise fused FP32 multiply-add. -/
  | vfmaddS (d : Fin 16) (a : Fin 16) (b : Fin 16) (c : Fin 16) (mk : Fin 8)
  /-- VFEQ_S (R165): Lane-wise FP32 equality into a mask. -/
  | vfeqS (d : Fin 8) (a : Fin 16) (b : Fin 16) (mk : Fin 8)
  /-- VFLT_S (R165): Lane-wise FP32 less-than into a mask. -/
  | vfltS (d : Fin 8) (a : Fin 16) (b : Fin 16) (mk : Fin 8)
  /-- VFLE_S (R165): Lane-wise FP32 less-or-equal into a mask. -/
  | vfleS (d : Fin 8) (a : Fin 16) (b : Fin 16) (mk : Fin 8)
  /-- VEQ (R165): Lane-wise INT32 equality into a mask. -/
  | veq (d : Fin 8) (a : Fin 16) (b : Fin 16) (mk : Fin 8)
  /-- VNE (R165): Lane-wise INT32 inequality into a mask. -/
  | vne (d : Fin 8) (a : Fin 16) (b : Fin 16) (mk : Fin 8)
  /-- VLT (R165): Lane-wise signed less-than into a mask. -/
  | vlt (d : Fin 8) (a : Fin 16) (b : Fin 16) (mk : Fin 8)
  /-- VLE (R165): Lane-wise signed less-or-equal into a mask. -/
  | vle (d : Fin 8) (a : Fin 16) (b : Fin 16) (mk : Fin 8)
  /-- VLTU (R165): Lane-wise unsigned less-than into a mask. -/
  | vltu (d : Fin 8) (a : Fin 16) (b : Fin 16) (mk : Fin 8)
  /-- VLEU (R165): Lane-wise unsigned less-or-equal into a mask. -/
  | vleu (d : Fin 8) (a : Fin 16) (b : Fin 16) (mk : Fin 8)
  /-- MAND (R166): Mask AND. -/
  | mand (d : Fin 8) (a : Fin 8) (b : Fin 8)
  /-- MOR (R166): Mask OR. -/
  | mor (d : Fin 8) (a : Fin 8) (b : Fin 8)
  /-- MXOR (R166): Mask XOR. -/
  | mxor (d : Fin 8) (a : Fin 8) (b : Fin 8)
  /-- MANDN (R166): Mask AND NOT. -/
  | mandn (d : Fin 8) (a : Fin 8) (b : Fin 8)
  /-- MNOT (R166): Mask NOT. -/
  | mnot (d : Fin 8) (a : Fin 8)
  /-- VCVT_W_S (R167): Lane-wise FP32 to INT32. -/
  | vcvtWS (d : Fin 16) (a : Fin 16) (mk : Fin 8)
  /-- VCVT_WU_S (R167): Lane-wise FP32 to unsigned 32-bit. -/
  | vcvtWuS (d : Fin 16) (a : Fin 16) (mk : Fin 8)
  /-- VCVT_S_W (R167): Lane-wise INT32 to FP32. -/
  | vcvtSW (d : Fin 16) (a : Fin 16) (mk : Fin 8)
  /-- VCVT_S_WU (R167): Lane-wise unsigned 32-bit to FP32. -/
  | vcvtSWu (d : Fin 16) (a : Fin 16) (mk : Fin 8)
  /-- VCVT_H_S (R167): Packs 32 FP32 values into binary16. -/
  | vcvtHS (d : Fin 16) (a : Fin 16) (b : Fin 16)
  /-- VCVT_BF_S (R167): Packs 32 FP32 values into BF16. -/
  | vcvtBfS (d : Fin 16) (a : Fin 16) (b : Fin 16)
  /-- VCVT_S_H_LO (R167): Unpacks binary16 elements 0-15 to FP32. -/
  | vcvtSHLo (d : Fin 16) (a : Fin 16) (mk : Fin 8)
  /-- VCVT_S_H_HI (R167): Unpacks binary16 elements 16-31 to FP32. -/
  | vcvtSHHi (d : Fin 16) (a : Fin 16) (mk : Fin 8)
  /-- VCVT_S_BF_LO (R167): Unpacks BF16 elements 0-15 to FP32. -/
  | vcvtSBfLo (d : Fin 16) (a : Fin 16) (mk : Fin 8)
  /-- VCVT_S_BF_HI (R167): Unpacks BF16 elements 16-31 to FP32. -/
  | vcvtSBfHi (d : Fin 16) (a : Fin 16) (mk : Fin 8)
  /-- VQUANT_TAP8_P0 (R168): Quantises 32 FP32 values to tap8 codes in bytes 0-31 and a scale byte in a mask. -/
  | vquantTap8P0 (d : Fin 16) (a : Fin 16) (b : Fin 8)
  /-- VQUANT_TAP8_P1 (R168): Quantises 32 FP32 values to tap8 codes in bytes 32-63. -/
  | vquantTap8P1 (d : Fin 16) (a : Fin 16) (b : Fin 8)
  /-- VQUANT_TAP6_P0 (R168): Quantises 32 FP32 values to tap6 codes in bytes 0-23. -/
  | vquantTap6P0 (d : Fin 16) (a : Fin 16) (b : Fin 8)
  /-- VQUANT_TAP6_P1 (R168): Quantises 32 FP32 values to tap6 codes in bytes 24-47. -/
  | vquantTap6P1 (d : Fin 16) (a : Fin 16) (b : Fin 8)
  /-- VDEQ_TAP8_Q0 (R169): Dequantises tap8 elements 0-15 to FP32. -/
  | vdeqTap8Q0 (d : Fin 16) (a : Fin 16) (b : Fin 8) (mk : Fin 8)
  /-- VDEQ_TAP8_Q1 (R169): Dequantises tap8 elements 16-31 to FP32. -/
  | vdeqTap8Q1 (d : Fin 16) (a : Fin 16) (b : Fin 8) (mk : Fin 8)
  /-- VDEQ_TAP8_Q2 (R169): Dequantises tap8 elements 32-47 to FP32. -/
  | vdeqTap8Q2 (d : Fin 16) (a : Fin 16) (b : Fin 8) (mk : Fin 8)
  /-- VDEQ_TAP8_Q3 (R169): Dequantises tap8 elements 48-63 to FP32. -/
  | vdeqTap8Q3 (d : Fin 16) (a : Fin 16) (b : Fin 8) (mk : Fin 8)
  /-- VDEQ_TAP6_Q0 (R169): Dequantises tap6 elements 0-15 to FP32. -/
  | vdeqTap6Q0 (d : Fin 16) (a : Fin 16) (b : Fin 8) (mk : Fin 8)
  /-- VDEQ_TAP6_Q1 (R169): Dequantises tap6 elements 16-31 to FP32. -/
  | vdeqTap6Q1 (d : Fin 16) (a : Fin 16) (b : Fin 8) (mk : Fin 8)
  /-- VDEQ_TAP6_Q2 (R169): Dequantises tap6 elements 32-47 to FP32. -/
  | vdeqTap6Q2 (d : Fin 16) (a : Fin 16) (b : Fin 8) (mk : Fin 8)
  /-- VDEQ_TAP6_Q3 (R169): Dequantises tap6 elements 48-63 to FP32. -/
  | vdeqTap6Q3 (d : Fin 16) (a : Fin 16) (b : Fin 8) (mk : Fin 8)
  /-- VDEQ_TAP6_Q4 (R169): Dequantises tap6 elements 64-79 to FP32. -/
  | vdeqTap6Q4 (d : Fin 16) (a : Fin 16) (b : Fin 8) (mk : Fin 8)
  /-- VCNZ_B (R170): Counts nonzero bytes per lane. -/
  | vcnzB (d : Fin 16) (a : Fin 16) (mk : Fin 8)
  /-- VCNZ_TAP6 (R170): Counts nonzero tap6 elements per lane. -/
  | vcnzTap6 (d : Fin 16) (a : Fin 16) (mk : Fin 8)
  /-- VCNZ_H (R170): Counts nonzero 16-bit floating elements per lane. -/
  | vcnzH (d : Fin 16) (a : Fin 16) (mk : Fin 8)
  /-- VCNZ_S (R170): Counts a nonzero FP32 lane. -/
  | vcnzS (d : Fin 16) (a : Fin 16) (mk : Fin 8)
  /-- VCNZ_W (R170): Counts a nonzero INT32 lane. -/
  | vcnzW (d : Fin 16) (a : Fin 16) (mk : Fin 8)
  /-- VRED_FADD_S (R171): Tree-sums FP32 lanes into a general register. -/
  | vredFaddS (d : Fin 32) (a : Fin 16) (mk : Fin 8)
  /-- VRED_FMIN_S (R171): Tree-minimum of FP32 lanes. -/
  | vredFminS (d : Fin 32) (a : Fin 16) (mk : Fin 8)
  /-- VRED_FMAX_S (R171): Tree-maximum of FP32 lanes. -/
  | vredFmaxS (d : Fin 32) (a : Fin 16) (mk : Fin 8)
  /-- VRED_ADD (R171): Tree-sum of INT32 lanes. -/
  | vredAdd (d : Fin 32) (a : Fin 16) (mk : Fin 8)
  /-- VRED_MIN (R171): Signed tree-minimum of lanes. -/
  | vredMin (d : Fin 32) (a : Fin 16) (mk : Fin 8)
  /-- VRED_MAX (R171): Signed tree-maximum of lanes. -/
  | vredMax (d : Fin 32) (a : Fin 16) (mk : Fin 8)
  /-- VRED_MINU (R171): Unsigned tree-minimum of lanes. -/
  | vredMinu (d : Fin 32) (a : Fin 16) (mk : Fin 8)
  /-- VRED_MAXU (R171): Unsigned tree-maximum of lanes. -/
  | vredMaxu (d : Fin 32) (a : Fin 16) (mk : Fin 8)
  /-- VRED_AND (R171): Tree-AND of lanes. -/
  | vredAnd (d : Fin 32) (a : Fin 16) (mk : Fin 8)
  /-- VRED_OR (R171): Tree-OR of lanes. -/
  | vredOr (d : Fin 32) (a : Fin 16) (mk : Fin 8)
  /-- VRED_XOR (R171): Tree-XOR of lanes. -/
  | vredXor (d : Fin 32) (a : Fin 16) (mk : Fin 8)
  /-- VPERM (R172): Permutes lanes by indices held in a vector register. -/
  | vperm (d : Fin 16) (a : Fin 16) (b : Fin 16) (mk : Fin 8)
  /-- VROT (R172): Rotates lanes by a general-register count. -/
  | vrot (d : Fin 16) (a : Fin 16) (b : Fin 32) (mk : Fin 8)
  /-- VMERGE (R172): Selects each lane from one of two registers by a mask. -/
  | vmerge (d : Fin 16) (a : Fin 16) (b : Fin 16) (mk : Fin 8)
  /-- VFRECIP_S (R173): Starts a 12-bit reciprocal estimate per lane, Pending for 16 cycles. -/
  | vfrecipS (d : Fin 16) (a : Fin 16) (mk : Fin 8)
  /-- VFRSQRT_S (R173): Starts a reciprocal square-root estimate per lane. -/
  | vfrsqrtS (d : Fin 16) (a : Fin 16) (mk : Fin 8)
  /-- VFEXP2_S (R173): Starts a base-2 exponential estimate per lane. -/
  | vfexp2S (d : Fin 16) (a : Fin 16) (mk : Fin 8)
  /-- VFLOG2_S (R173): Starts a base-2 logarithm estimate per lane. -/
  | vflog2S (d : Fin 16) (a : Fin 16) (mk : Fin 8)
  deriving DecidableEq, Repr

/-- An instruction word with its P and H bits (R52). -/
structure Bundled where
  pair : Bool
  hold : Bool
  instr : Instr
  deriving DecidableEq, Repr

end Sys2Proof
end

