-- ==== Sys2Proof/WellFormed.lean ====
section
/-! DEFINITION. Which instructions are well formed: the conditions of R61 and of the instruction rules that operand types do not already express, and events that name units of the pod. -/

namespace Sys2Proof

/-- A register marked even in R196: even and below 30. -/
def evenPair (r : Fin 32) : Bool := r.val % 2 == 0 && r.val ≤ 28

/-- A thread that a pod can hold (R18). -/
def ThreadRef.inPod (t : ThreadRef) : Bool := t.core < podCores && t.slot < 16 && t.gen < 65536

/-- A core that a pod can hold (R18). -/
def coreInPod (c : CoreKey) : Bool := c < podCores

/-- A cluster or a rook that a pod can hold (R18, R281). -/
def clusterInPod (c : ClusterKey) : Bool := c * 16 < podCores

/-- A rook that a pod can hold. -/
def rookInPod (r : RookKey) : Bool := r * 4 < podCores

/-- A die that a pod can hold. -/
def dieInPod (d : DieKey) : Bool := d < 512 * 4

/-- A package that a pod can hold (R377). -/
def pkgInPod (p : PkgKey) : Bool := p < 512

/-- The well-formed instructions: those whose word R61 accepts, and the events of units that exist. -/
def Instr.wf : Instr → Bool
  | .add _ _ _ => true
  | .sub _ _ _ => true
  | .and _ _ _ => true
  | .or _ _ _ => true
  | .xor _ _ _ => true
  | .andn _ _ _ => true
  | .sll _ _ _ => true
  | .srl _ _ _ => true
  | .sra _ _ _ => true
  | .slt _ _ _ => true
  | .sltu _ _ _ => true
  | .min _ _ _ => true
  | .max _ _ _ => true
  | .minu _ _ _ => true
  | .maxu _ _ _ => true
  | .adds _ _ _ => true
  | .subs _ _ _ => true
  | .addi _ _ _ => true
  | .andi _ _ _ => true
  | .ori _ _ _ => true
  | .xori _ _ _ => true
  | .slli _ _ _ => true
  | .srli _ _ _ => true
  | .srai _ _ _ => true
  | .slti _ _ _ => true
  | .sltiu _ _ _ => true
  | .ldi _ _ => true
  | .lsh _ _ => true
  | .mul _ _ _ => true
  | .mulh _ _ _ => true
  | .mulhu _ _ _ => true
  | .div _ _ _ => true
  | .divCk _ _ _ => true
  | .divu _ _ _ => true
  | .divuCk _ _ _ => true
  | .rem _ _ _ => true
  | .remCk _ _ _ => true
  | .remu _ _ _ => true
  | .remuCk _ _ _ => true
  | .movz _ _ _ => true
  | .movn _ _ _ => true
  | .clz _ _ => true
  | .ctz _ _ => true
  | .popc _ _ => true
  | .fadd _ _ _ _ => true
  | .fsub _ _ _ _ => true
  | .fmul _ _ _ _ => true
  | .fdiv _ _ _ _ => true
  | .fsqrt _ _ _ => true
  | .fmin _ _ _ _ => true
  | .fmax _ _ _ _ => true
  | .fcsign _ _ _ _ => true
  | .fnsign _ _ _ _ => true
  | .fxsign _ _ _ _ => true
  | .feq _ _ _ _ => true
  | .flt _ _ _ _ => true
  | .fle _ _ _ _ => true
  | .fkind _ _ _ => true
  | .fcvt _ _ fe f => f != fe
  | .fcvti _ _ _ _ => true
  | .fcvtiu _ _ _ _ => true
  | .icvtf _ _ _ => true
  | .ucvtf _ _ _ => true
  | .fmadd _ _ _ _ _ => true
  | .fmsub _ _ _ _ _ => true
  | .fnmadd _ _ _ _ _ => true
  | .fnmsub _ _ _ _ _ => true
  | .beq _ _ _ => true
  | .bne _ _ _ => true
  | .blt _ _ _ => true
  | .bge _ _ _ => true
  | .bltu _ _ _ => true
  | .bgeu _ _ _ => true
  | .bmany _ _ => true
  | .bmnone _ _ => true
  | .bmall _ _ => true
  | .bmnall _ _ => true
  | .jal _ _ => true
  | .jalr _ _ _ => true
  | .crr _ _ => true
  | .crw _ _ => true
  | .crs _ _ _ => true
  | .crc _ _ _ => true
  | .exit => true
  | .scall _ => true
  | .brk => true
  | .hret => true
  | .sret => true
  | .ldB _ _ _ => true
  | .ldBu _ _ _ => true
  | .ldH _ _ _ => true
  | .ldHu _ _ _ => true
  | .ldW _ _ _ => true
  | .ldWu _ _ _ => true
  | .ldD _ _ _ => true
  | .stB _ _ _ => true
  | .stH _ _ _ => true
  | .stW _ _ _ => true
  | .stD _ _ _ => true
  | .ldV _ _ _ => true
  | .stV _ _ _ => true
  | .vgath _ _ _ _ => true
  | .vscat _ _ _ _ => true
  | .ldfe _ _ r e => r || e == .th
  | .ldff _ _ r e => r || e == .th
  | .stfe _ _ r e => r || e == .th
  | .stf _ _ r e => r || e == .th
  | .ste _ _ r e => r || e == .th
  | .ldBuAcq _ _ _ _ => true
  | .ldHuAcq _ _ _ _ => true
  | .ldWuAcq _ _ _ _ => true
  | .ldDAcq _ _ _ _ => true
  | .stBRel _ _ _ _ => true
  | .stHRel _ _ _ _ => true
  | .stWRel _ _ _ _ => true
  | .stDRel _ _ _ _ => true
  | .amoAdd _ _ _ _ _ => true
  | .amoAnd _ _ _ _ _ => true
  | .amoOr _ _ _ _ _ => true
  | .amoXor _ _ _ _ _ => true
  | .amoMax _ _ _ _ _ => true
  | .amoMin _ _ _ _ _ => true
  | .amoSwap _ _ _ _ _ => true
  | .amoFadd _ _ _ _ _ => true
  | .amoMaxu _ _ _ _ _ => true
  | .amoMinu _ _ _ _ _ => true
  | .amoFmax _ _ _ _ _ => true
  | .amoFmin _ _ _ _ _ => true
  | .lres _ _ _ _ => true
  | .scnd _ _ _ _ _ => true
  | .cas _ _ _ _ _ => true
  | .red _ _ _ _ r e => r != (e == .th)
  | .redo _ _ _ => true
  | .ordset _ _ _ => true
  | .fence r _ => r != .plain
  | .cpub _ _ _ => true
  | .barArr _ _ e => e != .th
  | .barWt _ e => e != .th
  | .bar _ _ e => e != .th
  | .mon _ _ => true
  | .monx => true
  | .wait _ => true
  | .fill _ _ => true
  | .openReg _ => true
  | .msend _ _ => true
  | .mrecv _ _ _ => true
  | .mpoll _ _ _ => true
  | .spawn _ _ _ => true
  | .mig _ => true
  | .gang _ _ => true
  | .split => true
  | .cfgld _ _ => true
  | .lnch _ _ => true
  | .snap _ => true
  | .snend => true
  | .txb _ => true
  | .txc _ => true
  | .txa => true
  | .mma _ _ _ => true
  | .gmma _ _ _ => true
  | .mmas _ _ _ => true
  | .mzero _ => true
  | .mdrain _ _ _ => true
  | .mdrainZ _ _ _ => true
  | .mdrainRel _ _ _ => true
  | .mvaToVector _ _ _ => true
  | .mvaToAccumulator _ _ _ => true
  | .mwait _ => true
  | .mwaitRel _ => true
  | .cpy _ _ _ => true
  | .cpy2 d a _ => evenPair d && evenPair a
  | .gath _ a _ => evenPair a
  | .scat _ a _ => evenPair a
  | .wsld _ _ _ => true
  | .cwait _ => true
  | .gres => true
  | .gcan => true
  | .swset _ _ => true
  | .swwait _ _ _ => true
  | .serve _ a n _ => a.val + n.val ≤ 31
  | .servn _ a n _ => a.val + n.val ≤ 31
  | .vbcst _ _ _ => true
  | .vins _ _ _ => true
  | .vext _ _ _ => true
  | .vexts _ _ _ => true
  | .mtm _ _ => true
  | .mfm _ _ => true
  | .mpopc _ _ => true
  | .mffs _ _ => true
  | .vfaddS _ _ _ _ => true
  | .vfsubS _ _ _ _ => true
  | .vfmulS _ _ _ _ => true
  | .vfdivS _ _ _ _ => true
  | .vfsqrtS _ _ _ => true
  | .vfminS _ _ _ _ => true
  | .vfmaxS _ _ _ _ => true
  | .vfcsignS _ _ _ _ => true
  | .vfnsignS _ _ _ _ => true
  | .vfxsignS _ _ _ _ => true
  | .vadd _ _ _ _ => true
  | .vsub _ _ _ _ => true
  | .vmul _ _ _ _ => true
  | .vand _ _ _ _ => true
  | .vor _ _ _ _ => true
  | .vxor _ _ _ _ => true
  | .vsll _ _ _ _ => true
  | .vsrl _ _ _ _ => true
  | .vsra _ _ _ _ => true
  | .vmin _ _ _ _ => true
  | .vmax _ _ _ _ => true
  | .vminu _ _ _ _ => true
  | .vmaxu _ _ _ _ => true
  | .vadds _ _ _ _ => true
  | .vsubs _ _ _ _ => true
  | .vfmaddS _ _ _ _ _ => true
  | .vfeqS _ _ _ _ => true
  | .vfltS _ _ _ _ => true
  | .vfleS _ _ _ _ => true
  | .veq _ _ _ _ => true
  | .vne _ _ _ _ => true
  | .vlt _ _ _ _ => true
  | .vle _ _ _ _ => true
  | .vltu _ _ _ _ => true
  | .vleu _ _ _ _ => true
  | .mand _ _ _ => true
  | .mor _ _ _ => true
  | .mxor _ _ _ => true
  | .mandn _ _ _ => true
  | .mnot _ _ => true
  | .vcvtWS _ _ _ => true
  | .vcvtWuS _ _ _ => true
  | .vcvtSW _ _ _ => true
  | .vcvtSWu _ _ _ => true
  | .vcvtHS _ _ _ => true
  | .vcvtBfS _ _ _ => true
  | .vcvtSHLo _ _ _ => true
  | .vcvtSHHi _ _ _ => true
  | .vcvtSBfLo _ _ _ => true
  | .vcvtSBfHi _ _ _ => true
  | .vquantTap8P0 _ a _ => a.val % 2 == 0
  | .vquantTap8P1 _ a _ => a.val % 2 == 0
  | .vquantTap6P0 _ a _ => a.val % 2 == 0
  | .vquantTap6P1 _ a _ => a.val % 2 == 0
  | .vdeqTap8Q0 _ _ _ _ => true
  | .vdeqTap8Q1 _ _ _ _ => true
  | .vdeqTap8Q2 _ _ _ _ => true
  | .vdeqTap8Q3 _ _ _ _ => true
  | .vdeqTap6Q0 _ _ _ _ => true
  | .vdeqTap6Q1 _ _ _ _ => true
  | .vdeqTap6Q2 _ _ _ _ => true
  | .vdeqTap6Q3 _ _ _ _ => true
  | .vdeqTap6Q4 _ _ _ _ => true
  | .vcnzB _ _ _ => true
  | .vcnzTap6 _ _ _ => true
  | .vcnzH _ _ _ => true
  | .vcnzS _ _ _ => true
  | .vcnzW _ _ _ => true
  | .vredFaddS _ _ _ => true
  | .vredFminS _ _ _ => true
  | .vredFmaxS _ _ _ => true
  | .vredAdd _ _ _ => true
  | .vredMin _ _ _ => true
  | .vredMax _ _ _ => true
  | .vredMinu _ _ _ => true
  | .vredMaxu _ _ _ => true
  | .vredAnd _ _ _ => true
  | .vredOr _ _ _ => true
  | .vredXor _ _ _ => true
  | .vperm _ _ _ _ => true
  | .vrot _ _ _ _ => true
  | .vmerge _ _ _ _ => true
  | .vfrecipS _ _ _ => true
  | .vfrsqrtS _ _ _ => true
  | .vfexp2S _ _ _ => true
  | .vflog2S _ _ _ => true
  | .longOperationCompletion c => c.thread.inPod
  | .fillArrival f => f.target.inPod
  | .openWaitLimit t => t.inPod
  | .interruptTaken t => t.inPod
  | .gangFollowerIssue f => f.thread.inPod
  | .threadRetirement t => t.inPod
  | .slotScrub t => t.inPod
  | .contextArrival c => coreInPod c.target
  | .contextInstallation core => coreInPod core
  | .spillMove core _ => coreInPod core
  | .contextReply c _ => coreInPod c.target
  | .refusalResend _ => true
  | .migrationWaitLimit t _ => t.inPod
  | .contextSwitchScrub core _ => coreInPod core
  | .timeTick pkg => pkgInPod pkg
  | .clusterCacheAccess a => clusterInPod a.home
  | .homeLoad a => clusterInPod a.home
  | .homeStore a => clusterInPod a.home
  | .storeAcknowledgement _ => true
  | .atomicUnitOperation a => clusterInPod a.home
  | .reductionApply a => clusterInPod a.home
  | .ordsetDeclaration a => clusterInPod a.home
  | .sliceOrderedMerge a => clusterInPod a.home
  | .reservationExpiry t _ => t.inPod
  | .instructionLineFill core _ => coreInPod core
  | .pageWalkCompletion cluster _ => clusterInPod cluster
  | .remoteRequestArrival r => coreInPod r.target
  | .remotePortAccess core => coreInPod core
  | .taggedOperationPerformed core _ => coreInPod core
  | .taggedReply t _ _ _ _ => t.inPod
  | .taggedWaitLimit t _ => t.inPod
  | .taggedBudgetExpiry core _ => coreInPod core
  | .taggedCancelArrival t _ => t.inPod
  | .monitorArmAcknowledgement t _ _ _ => t.inPod
  | .monitorLatch t _ _ _ => t.inPod
  | .waitTimeout t _ => t.inPod
  | .barrierArrival _ _ _ t => t.inPod
  | .barrierPhaseCompletion _ => true
  | .barrierRelease _ _ _ => true
  | .barrierWaitLimit t _ => t.inPod
  | .messageArrival r => coreInPod r.target
  | .messageReply r _ => coreInPod r.target
  | .mailboxNoticeArrival t _ => t.inPod
  | .mailboxWaitLimit t _ => t.inPod
  | .registryRequest pkg _ => pkgInPod pkg
  | .registryAnswer t _ _ _ _ => t.inPod
  | .floorSample pkg => pkgInPod pkg
  | .floorApply pkg _ => pkgInPod pkg
  | .collectorSweep cluster => clusterInPod cluster
  | .transactionPrepare t _ home => t.inPod && clusterInPod home
  | .transactionVotesComplete t _ => t.inPod
  | .transactionCommitApply t _ _ _ => t.inPod
  | .publishMark _ _ => true
  | .cpubTimeBroadcast t _ _ _ => t.inPod
  | .shootdownCompletion t _ => t.inPod
  | .copyCommandStart core => coreInPod core
  | .copyBlockRead core => coreInPod core
  | .copyBlockWrite core _ _ => coreInPod core
  | .copyBlockAcknowledgement core _ _ _ => coreInPod core
  | .syncWordWaitLimit t _ => t.inPod
  | .tileCommandStart core => coreInPod core
  | .tileCommandCompletion core => coreInPod core
  | .gmmaJoin quad => coreInPod quad
  | .accumulatorReleaseStep core _ => coreInPod core
  | .tileWaitLimit t => t.inPod
  | .weightStoreRefresh pkg => pkgInPod pkg
  | .drainArrival d => clusterInPod d.cluster
  | .drainCompletion d _ => clusterInPod d.cluster
  | .callArrival c => clusterInPod c.cluster
  | .argumentPortAccept rook => rookInPod rook
  | .resultPortTake rook => rookInPod rook
  | .serverReply rook _ => rookInPod rook
  | .serverResult r => r.call.thread.inPod
  | .configurationLoad cluster _ _ => clusterInPod cluster
  | .configurationLoadCompletion rook _ => rookInPod rook
  | .memoryPortAccess rook _ => rookInPod rook
  | .memoryPortReply rook _ _ _ _ _ => rookInPod rook
  | .portTranslationRefill rook _ _ => rookInPod rook
  | .counterChainEmit rook _ => rookInPod rook
  | .reductionUnitStep rook _ => rookInPod rook
  | .specialFunctionStep rook _ => rookInPod rook
  | .butterflyConversion rook => rookInPod rook
  | .markerPass rook _ => rookInPod rook
  | .cellPass rook _ => rookInPod rook
  | .cellAdd rook _ => rookInPod rook
  | .cellSub rook _ => rookInPod rook
  | .cellMul rook _ => rookInPod rook
  | .cellAnd rook _ => rookInPod rook
  | .cellOr rook _ => rookInPod rook
  | .cellXor rook _ => rookInPod rook
  | .cellShl rook _ => rookInPod rook
  | .cellShr rook _ => rookInPod rook
  | .cellSra rook _ => rookInPod rook
  | .cellMin rook _ => rookInPod rook
  | .cellMax rook _ => rookInPod rook
  | .cellSeq rook _ => rookInPod rook
  | .cellSlt rook _ => rookInPod rook
  | .cellSltu rook _ => rookInPod rook
  | .cellSel rook _ => rookInPod rook
  | .cellFaddS rook _ => rookInPod rook
  | .cellFmulS rook _ => rookInPod rook
  | .cellFmaS rook _ => rookInPod rook
  | .cellFmaxS rook _ => rookInPod rook
  | .cellFminS rook _ => rookInPod rook
  | .cellFltS rook _ => rookInPod rook
  | .cellCbr rook _ => rookInPod rook
  | .cellSteer rook _ => rookInPod rook
  | .cellCvtSW rook _ => rookInPod rook
  | .cellCvtWS rook _ => rookInPod rook
  | .cellFnc rook _ => rookInPod rook
  | .linkTokenArrival rook _ _ => rookInPod rook
  | .linkCreditReturn rook _ => rookInPod rook
  | .streamGraphStart _ => true
  | .phaseEnd rook => rookInPod rook
  | .graphSwap _ _ _ _ => true
  | .arbiterFreeze rook => rookInPod rook
  | .snapArrival rook _ _ => rookInPod rook
  | .queueDoorbell die _ _ => dieInPod die
  | .completionRingRelease die _ _ => dieInPod die
  | .lnchSubmission m => m.thread.inPod
  | .launchAdmission die => dieInPod die
  | .placementRequest m => dieInPod m.die
  | .placementAnswer m _ _ => dieInPod m.die
  | .launchStart _ die => dieInPod die
  | .launchCompletion _ => true
  | .completionReport die => dieInPod die
  | .abort _ _ => true
  | .hcall core _ _ => coreInPod core
  | .inti _ _ _ => true
  | .preempt pkg _ => pkgInPod pkg
  | .psave t => t.inPod
  | .coreRecordWrite core => coreInPod core
  | .weightStoreSave cluster => clusterInPod cluster
  | .rookRecordWrite rook => rookInPod rook
  | .saveHeaderWrite pkg => pkgInPod pkg
  | .resume pkg _ => pkgInPod pkg
  | .resumedThreadStart pkg => pkgInPod pkg
  | .tlbiContext t _ _ => t.inPod
  | .tlbiPage t _ _ _ => t.inPod
  | .tlbiAll t _ _ => t.inPod
  | .mboxWrite core _ => coreInPod core
  | .vpoolWrite cluster _ => clusterInPod cluster
  | .hostWrite pkg _ _ => pkgInPod pkg
  | .hostRead pkg _ _ => pkgInPod pkg
  | .softError _ => true
  | .flitReplay _ => true
  | .shadowBundle f => f.thread.inPod
  | .checkpoint core => coreInPod core
  | .mirroredRollback core _ _ => coreInPod core
  | .releaseRegion rook => rookInPod rook
  | .retireCluster cluster => clusterInPod cluster
  | .retirementDone cluster => clusterInPod cluster
  | .lpddr6Refresh die _ => dieInPod die
  | .pcycBeacon pkg _ => pkgInPod pkg
  | .coldReset pkg _ => pkgInPod pkg
  | .podIdentityTimeout pkg => pkgInPod pkg
  | .dieRelease pkg => pkgInPod pkg
  | .status pkg => pkgInPod pkg
  | .loadfw pkg _ => pkgInPod pkg
  | .reset pkg _ => pkgInPod pkg
  | .attest pkg _ => pkgInPod pkg
  | .telem pkg => pkgInPod pkg
  | .setlim pkg _ => pkgInPod pkg
  | .setpod pkg _ => pkgInPod pkg
  | .getrep pkg => pkgInPod pkg
  | .unknownOpcode pkg _ => pkgInPod pkg
  | .telemetryRefresh pkg => pkgInPod pkg
  | .clockStepDown pkg => pkgInPod pkg
  | .clockStepUp pkg => pkgInPod pkg
  | .thermalLimit pkg => pkgInPod pkg
  | .podClockStepChange _ => true
  | .fillAcknowledgement t _ => t.inPod
  | .commitAcknowledgement t _ _ => t.inPod
  | .hostWriteAcknowledgement pkg _ _ => pkgInPod pkg
  | .imageCacheInvalidation cluster _ => clusterInPod cluster

/-- A word is well formed when its instruction is, and P stands only on words that may begin a pair (R63, R69). -/
def Instr.mayPair : Instr → Bool
  | .add _ _ _ => false
  | .sub _ _ _ => false
  | .and _ _ _ => false
  | .or _ _ _ => false
  | .xor _ _ _ => false
  | .andn _ _ _ => false
  | .sll _ _ _ => false
  | .srl _ _ _ => false
  | .sra _ _ _ => false
  | .slt _ _ _ => false
  | .sltu _ _ _ => false
  | .min _ _ _ => false
  | .max _ _ _ => false
  | .minu _ _ _ => false
  | .maxu _ _ _ => false
  | .adds _ _ _ => false
  | .subs _ _ _ => false
  | .addi _ _ _ => false
  | .andi _ _ _ => false
  | .ori _ _ _ => false
  | .xori _ _ _ => false
  | .slli _ _ _ => false
  | .srli _ _ _ => false
  | .srai _ _ _ => false
  | .slti _ _ _ => false
  | .sltiu _ _ _ => false
  | .ldi _ _ => false
  | .lsh _ _ => false
  | .mul _ _ _ => false
  | .mulh _ _ _ => false
  | .mulhu _ _ _ => false
  | .div _ _ _ => false
  | .divCk _ _ _ => false
  | .divu _ _ _ => false
  | .divuCk _ _ _ => false
  | .rem _ _ _ => false
  | .remCk _ _ _ => false
  | .remu _ _ _ => false
  | .remuCk _ _ _ => false
  | .movz _ _ _ => false
  | .movn _ _ _ => false
  | .clz _ _ => false
  | .ctz _ _ => false
  | .popc _ _ => false
  | .fadd _ _ _ _ => false
  | .fsub _ _ _ _ => false
  | .fmul _ _ _ _ => false
  | .fdiv _ _ _ _ => false
  | .fsqrt _ _ _ => false
  | .fmin _ _ _ _ => false
  | .fmax _ _ _ _ => false
  | .fcsign _ _ _ _ => false
  | .fnsign _ _ _ _ => false
  | .fxsign _ _ _ _ => false
  | .feq _ _ _ _ => false
  | .flt _ _ _ _ => false
  | .fle _ _ _ _ => false
  | .fkind _ _ _ => false
  | .fcvt _ _ _ _ => false
  | .fcvti _ _ _ _ => false
  | .fcvtiu _ _ _ _ => false
  | .icvtf _ _ _ => false
  | .ucvtf _ _ _ => false
  | .fmadd _ _ _ _ _ => false
  | .fmsub _ _ _ _ _ => false
  | .fnmadd _ _ _ _ _ => false
  | .fnmsub _ _ _ _ _ => false
  | .beq _ _ _ => true
  | .bne _ _ _ => true
  | .blt _ _ _ => true
  | .bge _ _ _ => true
  | .bltu _ _ _ => true
  | .bgeu _ _ _ => true
  | .bmany _ _ => true
  | .bmnone _ _ => true
  | .bmall _ _ => true
  | .bmnall _ _ => true
  | .jal _ _ => true
  | .jalr _ _ _ => true
  | .crr _ _ => true
  | .crw _ _ => true
  | .crs _ _ _ => true
  | .crc _ _ _ => true
  | .exit => false
  | .scall _ => false
  | .brk => false
  | .hret => false
  | .sret => false
  | .ldB _ _ _ => true
  | .ldBu _ _ _ => true
  | .ldH _ _ _ => true
  | .ldHu _ _ _ => true
  | .ldW _ _ _ => true
  | .ldWu _ _ _ => true
  | .ldD _ _ _ => true
  | .stB _ _ _ => true
  | .stH _ _ _ => true
  | .stW _ _ _ => true
  | .stD _ _ _ => true
  | .ldV _ _ _ => true
  | .stV _ _ _ => true
  | .vgath _ _ _ _ => true
  | .vscat _ _ _ _ => true
  | .ldfe _ _ _ _ => true
  | .ldff _ _ _ _ => true
  | .stfe _ _ _ _ => true
  | .stf _ _ _ _ => true
  | .ste _ _ _ _ => true
  | .ldBuAcq _ _ _ _ => true
  | .ldHuAcq _ _ _ _ => true
  | .ldWuAcq _ _ _ _ => true
  | .ldDAcq _ _ _ _ => true
  | .stBRel _ _ _ _ => true
  | .stHRel _ _ _ _ => true
  | .stWRel _ _ _ _ => true
  | .stDRel _ _ _ _ => true
  | .amoAdd _ _ _ _ _ => true
  | .amoAnd _ _ _ _ _ => true
  | .amoOr _ _ _ _ _ => true
  | .amoXor _ _ _ _ _ => true
  | .amoMax _ _ _ _ _ => true
  | .amoMin _ _ _ _ _ => true
  | .amoSwap _ _ _ _ _ => true
  | .amoFadd _ _ _ _ _ => true
  | .amoMaxu _ _ _ _ _ => true
  | .amoMinu _ _ _ _ _ => true
  | .amoFmax _ _ _ _ _ => true
  | .amoFmin _ _ _ _ _ => true
  | .lres _ _ _ _ => true
  | .scnd _ _ _ _ _ => true
  | .cas _ _ _ _ _ => true
  | .red _ _ _ _ _ _ => true
  | .redo _ _ _ => true
  | .ordset _ _ _ => true
  | .fence _ _ => true
  | .cpub _ _ _ => true
  | .barArr _ _ _ => true
  | .barWt _ _ => true
  | .bar _ _ _ => true
  | .mon _ _ => true
  | .monx => true
  | .wait _ => true
  | .fill _ _ => true
  | .openReg _ => true
  | .msend _ _ => true
  | .mrecv _ _ _ => true
  | .mpoll _ _ _ => true
  | .spawn _ _ _ => false
  | .mig _ => false
  | .gang _ _ => false
  | .split => false
  | .cfgld _ _ => true
  | .lnch _ _ => true
  | .snap _ => false
  | .snend => false
  | .txb _ => false
  | .txc _ => false
  | .txa => false
  | .mma _ _ _ => true
  | .gmma _ _ _ => true
  | .mmas _ _ _ => true
  | .mzero _ => true
  | .mdrain _ _ _ => true
  | .mdrainZ _ _ _ => true
  | .mdrainRel _ _ _ => true
  | .mvaToVector _ _ _ => true
  | .mvaToAccumulator _ _ _ => true
  | .mwait _ => true
  | .mwaitRel _ => true
  | .cpy _ _ _ => true
  | .cpy2 _ _ _ => true
  | .gath _ _ _ => true
  | .scat _ _ _ => true
  | .wsld _ _ _ => true
  | .cwait _ => true
  | .gres => true
  | .gcan => true
  | .swset _ _ => true
  | .swwait _ _ _ => true
  | .serve _ _ _ _ => true
  | .servn _ _ _ _ => true
  | .vbcst _ _ _ => false
  | .vins _ _ _ => false
  | .vext _ _ _ => false
  | .vexts _ _ _ => false
  | .mtm _ _ => false
  | .mfm _ _ => false
  | .mpopc _ _ => false
  | .mffs _ _ => false
  | .vfaddS _ _ _ _ => false
  | .vfsubS _ _ _ _ => false
  | .vfmulS _ _ _ _ => false
  | .vfdivS _ _ _ _ => false
  | .vfsqrtS _ _ _ => false
  | .vfminS _ _ _ _ => false
  | .vfmaxS _ _ _ _ => false
  | .vfcsignS _ _ _ _ => false
  | .vfnsignS _ _ _ _ => false
  | .vfxsignS _ _ _ _ => false
  | .vadd _ _ _ _ => false
  | .vsub _ _ _ _ => false
  | .vmul _ _ _ _ => false
  | .vand _ _ _ _ => false
  | .vor _ _ _ _ => false
  | .vxor _ _ _ _ => false
  | .vsll _ _ _ _ => false
  | .vsrl _ _ _ _ => false
  | .vsra _ _ _ _ => false
  | .vmin _ _ _ _ => false
  | .vmax _ _ _ _ => false
  | .vminu _ _ _ _ => false
  | .vmaxu _ _ _ _ => false
  | .vadds _ _ _ _ => false
  | .vsubs _ _ _ _ => false
  | .vfmaddS _ _ _ _ _ => false
  | .vfeqS _ _ _ _ => false
  | .vfltS _ _ _ _ => false
  | .vfleS _ _ _ _ => false
  | .veq _ _ _ _ => false
  | .vne _ _ _ _ => false
  | .vlt _ _ _ _ => false
  | .vle _ _ _ _ => false
  | .vltu _ _ _ _ => false
  | .vleu _ _ _ _ => false
  | .mand _ _ _ => false
  | .mor _ _ _ => false
  | .mxor _ _ _ => false
  | .mandn _ _ _ => false
  | .mnot _ _ => false
  | .vcvtWS _ _ _ => false
  | .vcvtWuS _ _ _ => false
  | .vcvtSW _ _ _ => false
  | .vcvtSWu _ _ _ => false
  | .vcvtHS _ _ _ => false
  | .vcvtBfS _ _ _ => false
  | .vcvtSHLo _ _ _ => false
  | .vcvtSHHi _ _ _ => false
  | .vcvtSBfLo _ _ _ => false
  | .vcvtSBfHi _ _ _ => false
  | .vquantTap8P0 _ _ _ => false
  | .vquantTap8P1 _ _ _ => false
  | .vquantTap6P0 _ _ _ => false
  | .vquantTap6P1 _ _ _ => false
  | .vdeqTap8Q0 _ _ _ _ => false
  | .vdeqTap8Q1 _ _ _ _ => false
  | .vdeqTap8Q2 _ _ _ _ => false
  | .vdeqTap8Q3 _ _ _ _ => false
  | .vdeqTap6Q0 _ _ _ _ => false
  | .vdeqTap6Q1 _ _ _ _ => false
  | .vdeqTap6Q2 _ _ _ _ => false
  | .vdeqTap6Q3 _ _ _ _ => false
  | .vdeqTap6Q4 _ _ _ _ => false
  | .vcnzB _ _ _ => false
  | .vcnzTap6 _ _ _ => false
  | .vcnzH _ _ _ => false
  | .vcnzS _ _ _ => false
  | .vcnzW _ _ _ => false
  | .vredFaddS _ _ _ => false
  | .vredFminS _ _ _ => false
  | .vredFmaxS _ _ _ => false
  | .vredAdd _ _ _ => false
  | .vredMin _ _ _ => false
  | .vredMax _ _ _ => false
  | .vredMinu _ _ _ => false
  | .vredMaxu _ _ _ => false
  | .vredAnd _ _ _ => false
  | .vredOr _ _ _ => false
  | .vredXor _ _ _ => false
  | .vperm _ _ _ _ => false
  | .vrot _ _ _ _ => false
  | .vmerge _ _ _ _ => false
  | .vfrecipS _ _ _ => false
  | .vfrsqrtS _ _ _ => false
  | .vfexp2S _ _ _ => false
  | .vflog2S _ _ _ => false
  | .longOperationCompletion _ => false
  | .fillArrival _ => false
  | .openWaitLimit _ => false
  | .interruptTaken _ => false
  | .gangFollowerIssue _ => false
  | .threadRetirement _ => false
  | .slotScrub _ => false
  | .contextArrival _ => false
  | .contextInstallation _ => false
  | .spillMove _ _ => false
  | .contextReply _ _ => false
  | .refusalResend _ => false
  | .migrationWaitLimit _ _ => false
  | .contextSwitchScrub _ _ => false
  | .timeTick _ => false
  | .clusterCacheAccess _ => false
  | .homeLoad _ => false
  | .homeStore _ => false
  | .storeAcknowledgement _ => false
  | .atomicUnitOperation _ => false
  | .reductionApply _ => false
  | .ordsetDeclaration _ => false
  | .sliceOrderedMerge _ => false
  | .reservationExpiry _ _ => false
  | .instructionLineFill _ _ => false
  | .pageWalkCompletion _ _ => false
  | .remoteRequestArrival _ => false
  | .remotePortAccess _ => false
  | .taggedOperationPerformed _ _ => false
  | .taggedReply _ _ _ _ _ => false
  | .taggedWaitLimit _ _ => false
  | .taggedBudgetExpiry _ _ => false
  | .taggedCancelArrival _ _ => false
  | .monitorArmAcknowledgement _ _ _ _ => false
  | .monitorLatch _ _ _ _ => false
  | .waitTimeout _ _ => false
  | .barrierArrival _ _ _ _ => false
  | .barrierPhaseCompletion _ => false
  | .barrierRelease _ _ _ => false
  | .barrierWaitLimit _ _ => false
  | .messageArrival _ => false
  | .messageReply _ _ => false
  | .mailboxNoticeArrival _ _ => false
  | .mailboxWaitLimit _ _ => false
  | .registryRequest _ _ => false
  | .registryAnswer _ _ _ _ _ => false
  | .floorSample _ => false
  | .floorApply _ _ => false
  | .collectorSweep _ => false
  | .transactionPrepare _ _ _ => false
  | .transactionVotesComplete _ _ => false
  | .transactionCommitApply _ _ _ _ => false
  | .publishMark _ _ => false
  | .cpubTimeBroadcast _ _ _ _ => false
  | .shootdownCompletion _ _ => false
  | .copyCommandStart _ => false
  | .copyBlockRead _ => false
  | .copyBlockWrite _ _ _ => false
  | .copyBlockAcknowledgement _ _ _ _ => false
  | .syncWordWaitLimit _ _ => false
  | .tileCommandStart _ => false
  | .tileCommandCompletion _ => false
  | .gmmaJoin _ => false
  | .accumulatorReleaseStep _ _ => false
  | .tileWaitLimit _ => false
  | .weightStoreRefresh _ => false
  | .drainArrival _ => false
  | .drainCompletion _ _ => false
  | .callArrival _ => false
  | .argumentPortAccept _ => false
  | .resultPortTake _ => false
  | .serverReply _ _ => false
  | .serverResult _ => false
  | .configurationLoad _ _ _ => false
  | .configurationLoadCompletion _ _ => false
  | .memoryPortAccess _ _ => false
  | .memoryPortReply _ _ _ _ _ _ => false
  | .portTranslationRefill _ _ _ => false
  | .counterChainEmit _ _ => false
  | .reductionUnitStep _ _ => false
  | .specialFunctionStep _ _ => false
  | .butterflyConversion _ => false
  | .markerPass _ _ => false
  | .cellPass _ _ => false
  | .cellAdd _ _ => false
  | .cellSub _ _ => false
  | .cellMul _ _ => false
  | .cellAnd _ _ => false
  | .cellOr _ _ => false
  | .cellXor _ _ => false
  | .cellShl _ _ => false
  | .cellShr _ _ => false
  | .cellSra _ _ => false
  | .cellMin _ _ => false
  | .cellMax _ _ => false
  | .cellSeq _ _ => false
  | .cellSlt _ _ => false
  | .cellSltu _ _ => false
  | .cellSel _ _ => false
  | .cellFaddS _ _ => false
  | .cellFmulS _ _ => false
  | .cellFmaS _ _ => false
  | .cellFmaxS _ _ => false
  | .cellFminS _ _ => false
  | .cellFltS _ _ => false
  | .cellCbr _ _ => false
  | .cellSteer _ _ => false
  | .cellCvtSW _ _ => false
  | .cellCvtWS _ _ => false
  | .cellFnc _ _ => false
  | .linkTokenArrival _ _ _ => false
  | .linkCreditReturn _ _ => false
  | .streamGraphStart _ => false
  | .phaseEnd _ => false
  | .graphSwap _ _ _ _ => false
  | .arbiterFreeze _ => false
  | .snapArrival _ _ _ => false
  | .queueDoorbell _ _ _ => false
  | .completionRingRelease _ _ _ => false
  | .lnchSubmission _ => false
  | .launchAdmission _ => false
  | .placementRequest _ => false
  | .placementAnswer _ _ _ => false
  | .launchStart _ _ => false
  | .launchCompletion _ => false
  | .completionReport _ => false
  | .abort _ _ => false
  | .hcall _ _ _ => false
  | .inti _ _ _ => false
  | .preempt _ _ => false
  | .psave _ => false
  | .coreRecordWrite _ => false
  | .weightStoreSave _ => false
  | .rookRecordWrite _ => false
  | .saveHeaderWrite _ => false
  | .resume _ _ => false
  | .resumedThreadStart _ => false
  | .tlbiContext _ _ _ => false
  | .tlbiPage _ _ _ _ => false
  | .tlbiAll _ _ _ => false
  | .mboxWrite _ _ => false
  | .vpoolWrite _ _ => false
  | .hostWrite _ _ _ => false
  | .hostRead _ _ _ => false
  | .softError _ => false
  | .flitReplay _ => false
  | .shadowBundle _ => false
  | .checkpoint _ => false
  | .mirroredRollback _ _ _ => false
  | .releaseRegion _ => false
  | .retireCluster _ => false
  | .retirementDone _ => false
  | .lpddr6Refresh _ _ => false
  | .pcycBeacon _ _ => false
  | .coldReset _ _ => false
  | .podIdentityTimeout _ => false
  | .dieRelease _ => false
  | .status _ => false
  | .loadfw _ _ => false
  | .reset _ _ => false
  | .attest _ _ => false
  | .telem _ => false
  | .setlim _ _ => false
  | .setpod _ _ => false
  | .getrep _ => false
  | .unknownOpcode _ _ => false
  | .telemetryRefresh _ => false
  | .clockStepDown _ => false
  | .clockStepUp _ => false
  | .thermalLimit _ => false
  | .podClockStepChange _ => false
  | .fillAcknowledgement _ _ => false
  | .commitAcknowledgement _ _ _ => false
  | .hostWriteAcknowledgement _ _ _ => false
  | .imageCacheInvalidation _ _ => false

/-- A word with its P and H bits is well formed (R52, R61, R63). -/
def Bundled.wf (b : Bundled) : Bool := b.instr.wf && (b.instr.mayPair || !b.pair)

end Sys2Proof
end

