-- ==== Sys2Proof/Decode.lean ====
section
/-! DEFINITION. Decoding words (R52–R64 and the encoding tables of the instruction chapters), total on every bit pattern, and the encoder written from the same tables. -/

namespace Sys2Proof

/-! ### Fields (R52, R56) -/

/-- Bits 29:23, class and major opcode. -/
def opF (w : Nat) : Nat := w / 8388608 % 128
/-- Bits 12:8. -/
def r2F (w : Nat) : Nat := w / 256 % 32
/-- Bits 7:0. -/
def fnF (w : Nat) : Nat := w % 256

/-- A g register field: every value is legal (R57). -/
def gOf (n : Nat) : Fin 32 := ⟨n % 32, Nat.mod_lt _ (by decide)⟩
/-- A v register field: 0–15 (R57). -/
def vOf (n : Nat) : Option (Fin 16) := if h : n < 16 then some ⟨n, h⟩ else none
/-- An m register field: 0–7 (R57). -/
def mOf (n : Nat) : Option (Fin 8) := if h : n < 8 then some ⟨n, h⟩ else none
/-- An accumulator field: 0–3 (R57). -/
def accOf (n : Nat) : Option (Fin 4) := if h : n < 4 then some ⟨n, h⟩ else none

/-- Scope codes; 7 is illegal (R64). -/
def Scope.ofCode : Nat → Option Scope
  | 0 => some .th | 1 => some .co | 2 => some .qd | 3 => some .cl | 4 => some .di | 5 => some .pk | 6 => some .pd
  | _ => none
/-- The code of a scope (R64). -/
def Scope.code : Scope → Nat
  | .th => 0 | .co => 1 | .qd => 2 | .cl => 3 | .di => 4 | .pk => 5 | .pd => 6
/-- Ordering codes (R64). -/
def OrdKind.ofCode : Nat → OrdKind
  | 0 => .plain | 1 => .acq | 2 => .rel | _ => .full
/-- The code of an ordering kind (R64). -/
def OrdKind.code : OrdKind → Nat
  | .plain => 0 | .acq => 1 | .rel => 2 | .full => 3
/-- Format codes (R83). -/
def Fmt.ofCode : Nat → Fmt
  | 0 => .s | 1 => .d | 2 => .h | _ => .bf
/-- The code of a format (R83). -/
def Fmt.code : Fmt → Nat
  | .s => 0 | .d => 1 | .h => 2 | .bf => 3
/-- The code of a fused format (R88). -/
def Fmt2.code : Fmt2 → Nat
  | .s => 0 | .d => 1
/-- Mode codes of fcvti; 5 and 6 are illegal (R87). -/
def CvtMode.ofCode : Nat → Option CvtMode
  | 0 => some (.static .rne) | 1 => some (.static .rmm) | 2 => some (.static .rtz) | 3 => some (.static .rup)
  | 4 => some (.static .rdn) | 7 => some .dyn | _ => none
/-- The code of a conversion mode (R87). -/
def CvtMode.code : CvtMode → Nat
  | .static .rne => 0 | .static .rmm => 1 | .static .rtz => 2 | .static .rup => 3 | .static .rdn => 4 | .dyn => 7
/-- The width bit (R120). -/
def Width.code : Width → Nat
  | .w32 => 0 | .w64 => 1
/-- Operation and bank of a reduction, rt bits 3:0; swap and the unassigned bank-1 values are illegal (R124). -/
def RedOp.ofCode : Nat → Option RedOp
  | 0 => some .add | 1 => some .and | 2 => some .or | 3 => some .xor | 4 => some .max | 5 => some .min
  | 7 => some .fadd | 8 => some .maxu | 9 => some .minu | 10 => some .fmax | 11 => some .fmin | _ => none
/-- The code of a reduction's operation (R120, R124). -/
def RedOp.code : RedOp → Nat
  | .add => 0 | .and => 1 | .or => 2 | .xor => 3 | .max => 4 | .min => 5 | .fadd => 7
  | .maxu => 8 | .minu => 9 | .fmax => 10 | .fmin => 11
/-- The register that an open names: class and number (R136). -/
def RegName.ofCode (n cls : Nat) : Option RegName :=
  match cls with
  | 0 => some (.g (gOf n))
  | 1 => (vOf n).map .v
  | 2 => (mOf n).map .m
  | _ => none
/-- The class code of a register name (R136). -/
def RegName.cls : RegName → Nat
  | .g _ => 0 | .v _ => 1 | .m _ => 2
/-- The number of a register name. -/
def RegName.num : RegName → Nat
  | .g n => n.val | .v n => n.val | .m n => n.val

/-- An instruction that passes the checks of R61, or nothing. -/
def checked (i : Instr) : Option Instr := if i.wf then some i else none

/-! ### One decoder for each major opcode (R59, R60)

Noncomputable only because Lean's compiler builds no constructor with so high a number; the kernel evaluates these definitions. -/

noncomputable section

/-- C major 0x01: ld.b. -/
def decodeC01 (w : Nat) : Option Instr :=
  some (.ldB (gOf (w / 262144 % 32)) (gOf (w / 8192 % 32)) (BitVec.ofNat 13 (w % 8192)))

/-- C major 0x02: ld.bu. -/
def decodeC02 (w : Nat) : Option Instr :=
  some (.ldBu (gOf (w / 262144 % 32)) (gOf (w / 8192 % 32)) (BitVec.ofNat 13 (w % 8192)))

/-- C major 0x03: ld.h. -/
def decodeC03 (w : Nat) : Option Instr :=
  some (.ldH (gOf (w / 262144 % 32)) (gOf (w / 8192 % 32)) (BitVec.ofNat 13 (w % 8192)))

/-- C major 0x04: ld.hu. -/
def decodeC04 (w : Nat) : Option Instr :=
  some (.ldHu (gOf (w / 262144 % 32)) (gOf (w / 8192 % 32)) (BitVec.ofNat 13 (w % 8192)))

/-- C major 0x05: ld.w. -/
def decodeC05 (w : Nat) : Option Instr :=
  some (.ldW (gOf (w / 262144 % 32)) (gOf (w / 8192 % 32)) (BitVec.ofNat 13 (w % 8192)))

/-- C major 0x06: ld.wu. -/
def decodeC06 (w : Nat) : Option Instr :=
  some (.ldWu (gOf (w / 262144 % 32)) (gOf (w / 8192 % 32)) (BitVec.ofNat 13 (w % 8192)))

/-- C major 0x07: ld.d. -/
def decodeC07 (w : Nat) : Option Instr :=
  some (.ldD (gOf (w / 262144 % 32)) (gOf (w / 8192 % 32)) (BitVec.ofNat 13 (w % 8192)))

/-- C major 0x08: st.b. -/
def decodeC08 (w : Nat) : Option Instr :=
  some (.stB (gOf (w / 262144 % 32)) (gOf (w / 8192 % 32)) (BitVec.ofNat 13 (w % 8192)))

/-- C major 0x09: st.h. -/
def decodeC09 (w : Nat) : Option Instr :=
  some (.stH (gOf (w / 262144 % 32)) (gOf (w / 8192 % 32)) (BitVec.ofNat 13 (w % 8192)))

/-- C major 0x0A: st.w. -/
def decodeC0A (w : Nat) : Option Instr :=
  some (.stW (gOf (w / 262144 % 32)) (gOf (w / 8192 % 32)) (BitVec.ofNat 13 (w % 8192)))

/-- C major 0x0B: st.d. -/
def decodeC0B (w : Nat) : Option Instr :=
  some (.stD (gOf (w / 262144 % 32)) (gOf (w / 8192 % 32)) (BitVec.ofNat 13 (w % 8192)))

/-- C major 0x0C: ld.v. -/
def decodeC0C (w : Nat) : Option Instr :=
  (vOf (w / 262144 % 32)).bind fun d => some (.ldV d (gOf (w / 8192 % 32)) (BitVec.ofNat 13 (w % 8192)))

/-- C major 0x0D: st.v. -/
def decodeC0D (w : Nat) : Option Instr :=
  (vOf (w / 262144 % 32)).bind fun s => some (.stV s (gOf (w / 8192 % 32)) (BitVec.ofNat 13 (w % 8192)))

/-- C major 0x0E: vgath, vscat. -/
def decodeC0E (w : Nat) : Option Instr :=
  match fnF w / 8 with
  | 0 => (vOf (w / 262144 % 32)).bind fun d => (vOf (w / 256 % 32)).bind fun b => some (.vgath d (gOf (w / 8192 % 32)) b (⟨w % 8, Nat.mod_lt _ (by decide)⟩ : Fin 8))
  | 1 => (vOf (w / 262144 % 32)).bind fun s => (vOf (w / 256 % 32)).bind fun b => some (.vscat s (gOf (w / 8192 % 32)) b (⟨w % 8, Nat.mod_lt _ (by decide)⟩ : Fin 8))
  | _ => none

/-- C major 0x0F: ldfe, ldff, stfe, stf, ste. -/
def decodeC0F (w : Nat) : Option Instr :=
  match w % 8 with
  | 0 => if w / 128 % 64 = 0 then (Scope.ofCode (w / 8 % 8)).bind fun e => checked (.ldfe (gOf (w / 262144 % 32)) (gOf (w / 8192 % 32)) (w / 64 % 2 = 1 : Bool) e) else none
  | 1 => if w / 128 % 64 = 0 then (Scope.ofCode (w / 8 % 8)).bind fun e => checked (.ldff (gOf (w / 262144 % 32)) (gOf (w / 8192 % 32)) (w / 64 % 2 = 1 : Bool) e) else none
  | 2 => if w / 64 % 2 = 0 ∧ w / 256 % 32 = 0 then (Scope.ofCode (w / 8 % 8)).bind fun e => checked (.stfe (gOf (w / 262144 % 32)) (gOf (w / 8192 % 32)) (w / 128 % 2 = 1 : Bool) e) else none
  | 3 => if w / 64 % 2 = 0 ∧ w / 256 % 32 = 0 then (Scope.ofCode (w / 8 % 8)).bind fun e => checked (.stf (gOf (w / 262144 % 32)) (gOf (w / 8192 % 32)) (w / 128 % 2 = 1 : Bool) e) else none
  | 4 => if w / 64 % 2 = 0 ∧ w / 256 % 32 = 0 then (Scope.ofCode (w / 8 % 8)).bind fun e => checked (.ste (gOf (w / 262144 % 32)) (gOf (w / 8192 % 32)) (w / 128 % 2 = 1 : Bool) e) else none
  | _ => none

/-- C major 0x10: beq. -/
def decodeC10 (w : Nat) : Option Instr :=
  some (.beq (gOf (w / 262144 % 32)) (gOf (w / 8192 % 32)) (BitVec.ofNat 13 (w % 8192)))

/-- C major 0x11: bne. -/
def decodeC11 (w : Nat) : Option Instr :=
  some (.bne (gOf (w / 262144 % 32)) (gOf (w / 8192 % 32)) (BitVec.ofNat 13 (w % 8192)))

/-- C major 0x12: blt. -/
def decodeC12 (w : Nat) : Option Instr :=
  some (.blt (gOf (w / 262144 % 32)) (gOf (w / 8192 % 32)) (BitVec.ofNat 13 (w % 8192)))

/-- C major 0x13: bge. -/
def decodeC13 (w : Nat) : Option Instr :=
  some (.bge (gOf (w / 262144 % 32)) (gOf (w / 8192 % 32)) (BitVec.ofNat 13 (w % 8192)))

/-- C major 0x14: bltu. -/
def decodeC14 (w : Nat) : Option Instr :=
  some (.bltu (gOf (w / 262144 % 32)) (gOf (w / 8192 % 32)) (BitVec.ofNat 13 (w % 8192)))

/-- C major 0x15: bgeu. -/
def decodeC15 (w : Nat) : Option Instr :=
  some (.bgeu (gOf (w / 262144 % 32)) (gOf (w / 8192 % 32)) (BitVec.ofNat 13 (w % 8192)))

/-- C major 0x16: jal. -/
def decodeC16 (w : Nat) : Option Instr :=
  some (.jal (gOf (w / 262144 % 32)) (BitVec.ofNat 18 (w % 262144)))

/-- C major 0x17: jalr. -/
def decodeC17 (w : Nat) : Option Instr :=
  some (.jalr (gOf (w / 262144 % 32)) (gOf (w / 8192 % 32)) (BitVec.ofNat 13 (w % 8192)))

/-- C major 0x18: bmany, bmnone, bmall, bmnall. -/
def decodeC18 (w : Nat) : Option Instr :=
  match w / 8192 % 32 with
  | 0 => (mOf (w / 262144 % 32)).bind fun a => some (.bmany a (BitVec.ofNat 13 (w % 8192)))
  | 1 => (mOf (w / 262144 % 32)).bind fun a => some (.bmnone a (BitVec.ofNat 13 (w % 8192)))
  | 2 => (mOf (w / 262144 % 32)).bind fun a => some (.bmall a (BitVec.ofNat 13 (w % 8192)))
  | 3 => (mOf (w / 262144 % 32)).bind fun a => some (.bmnall a (BitVec.ofNat 13 (w % 8192)))
  | _ => none

/-- C major 0x19: exit, scall, brk, hret, sret. -/
def decodeC19 (w : Nat) : Option Instr :=
  match fnF w with
  | 0 => if w / 256 % 32768 = 0 then some .exit else none
  | 1 => if w / 8192 % 1024 = 0 then some (.scall (gOf (w / 256 % 32))) else none
  | 2 => if w / 256 % 32768 = 0 then some .brk else none
  | 3 => if w / 256 % 32768 = 0 then some .hret else none
  | 4 => if w / 256 % 32768 = 0 then some .sret else none
  | _ => none

/-- C major 0x1A: crr. -/
def decodeC1A (w : Nat) : Option Instr :=
  if w / 4096 % 64 = 0 then some (.crr (gOf (w / 262144 % 32)) (BitVec.ofNat 12 (w % 4096))) else none

/-- C major 0x1B: crw. -/
def decodeC1B (w : Nat) : Option Instr :=
  if w / 4096 % 2 = 0 ∧ w / 262144 % 32 = 0 then some (.crw (gOf (w / 8192 % 32)) (BitVec.ofNat 12 (w % 4096))) else none

/-- C major 0x1C: crs, crc. -/
def decodeC1C (w : Nat) : Option Instr :=
  match w / 4096 % 2 with
  | 0 => some (.crs (gOf (w / 262144 % 32)) (gOf (w / 8192 % 32)) (BitVec.ofNat 12 (w % 4096)))
  | 1 => some (.crc (gOf (w / 262144 % 32)) (gOf (w / 8192 % 32)) (BitVec.ofNat 12 (w % 4096)))
  | _ => none

/-- C major 0x1D: ld.bu.acq, ld.hu.acq, ld.wu.acq, ld.d.acq, st.b.rel, st.h.rel, st.w.rel, st.d.rel. -/
def decodeC1D (w : Nat) : Option Instr :=
  match w % 8 with
  | 0 => if w / 64 % 2 = 1 ∧ w / 256 % 32 = 0 then (Scope.ofCode (w / 8 % 8)).bind fun e => some (.ldBuAcq (gOf (w / 262144 % 32)) (gOf (w / 8192 % 32)) (w / 128 % 2 = 1 : Bool) e) else none
  | 1 => if w / 64 % 2 = 1 ∧ w / 256 % 32 = 0 then (Scope.ofCode (w / 8 % 8)).bind fun e => some (.ldHuAcq (gOf (w / 262144 % 32)) (gOf (w / 8192 % 32)) (w / 128 % 2 = 1 : Bool) e) else none
  | 2 => if w / 64 % 2 = 1 ∧ w / 256 % 32 = 0 then (Scope.ofCode (w / 8 % 8)).bind fun e => some (.ldWuAcq (gOf (w / 262144 % 32)) (gOf (w / 8192 % 32)) (w / 128 % 2 = 1 : Bool) e) else none
  | 3 => if w / 64 % 2 = 1 ∧ w / 256 % 32 = 0 then (Scope.ofCode (w / 8 % 8)).bind fun e => some (.ldDAcq (gOf (w / 262144 % 32)) (gOf (w / 8192 % 32)) (w / 128 % 2 = 1 : Bool) e) else none
  | 4 => if w / 128 % 64 = 1 then (Scope.ofCode (w / 8 % 8)).bind fun e => some (.stBRel (gOf (w / 262144 % 32)) (gOf (w / 8192 % 32)) (w / 64 % 2 = 1 : Bool) e) else none
  | 5 => if w / 128 % 64 = 1 then (Scope.ofCode (w / 8 % 8)).bind fun e => some (.stHRel (gOf (w / 262144 % 32)) (gOf (w / 8192 % 32)) (w / 64 % 2 = 1 : Bool) e) else none
  | 6 => if w / 128 % 64 = 1 then (Scope.ofCode (w / 8 % 8)).bind fun e => some (.stWRel (gOf (w / 262144 % 32)) (gOf (w / 8192 % 32)) (w / 64 % 2 = 1 : Bool) e) else none
  | 7 => if w / 128 % 64 = 1 then (Scope.ofCode (w / 8 % 8)).bind fun e => some (.stDRel (gOf (w / 262144 % 32)) (gOf (w / 8192 % 32)) (w / 64 % 2 = 1 : Bool) e) else none
  | _ => none

/-- C major 0x1E: amo.add, amo.and, amo.or, amo.xor, amo.max, amo.min, amo.swap, amo.fadd, amo.maxu, amo.minu, amo.fmax, amo.fmin. -/
def decodeC1E (w : Nat) : Option Instr :=
  match w % 8 + 8 * (w / 16 % 4) with
  | 0 => some (.amoAdd (gOf (w / 262144 % 32)) (gOf (w / 8192 % 32)) (gOf (w / 256 % 32)) (OrdKind.ofCode (w / 64 % 4)) (if w / 8 % 2 = 0 then Width.w32 else Width.w64))
  | 1 => some (.amoAnd (gOf (w / 262144 % 32)) (gOf (w / 8192 % 32)) (gOf (w / 256 % 32)) (OrdKind.ofCode (w / 64 % 4)) (if w / 8 % 2 = 0 then Width.w32 else Width.w64))
  | 2 => some (.amoOr (gOf (w / 262144 % 32)) (gOf (w / 8192 % 32)) (gOf (w / 256 % 32)) (OrdKind.ofCode (w / 64 % 4)) (if w / 8 % 2 = 0 then Width.w32 else Width.w64))
  | 3 => some (.amoXor (gOf (w / 262144 % 32)) (gOf (w / 8192 % 32)) (gOf (w / 256 % 32)) (OrdKind.ofCode (w / 64 % 4)) (if w / 8 % 2 = 0 then Width.w32 else Width.w64))
  | 4 => some (.amoMax (gOf (w / 262144 % 32)) (gOf (w / 8192 % 32)) (gOf (w / 256 % 32)) (OrdKind.ofCode (w / 64 % 4)) (if w / 8 % 2 = 0 then Width.w32 else Width.w64))
  | 5 => some (.amoMin (gOf (w / 262144 % 32)) (gOf (w / 8192 % 32)) (gOf (w / 256 % 32)) (OrdKind.ofCode (w / 64 % 4)) (if w / 8 % 2 = 0 then Width.w32 else Width.w64))
  | 6 => some (.amoSwap (gOf (w / 262144 % 32)) (gOf (w / 8192 % 32)) (gOf (w / 256 % 32)) (OrdKind.ofCode (w / 64 % 4)) (if w / 8 % 2 = 0 then Width.w32 else Width.w64))
  | 7 => some (.amoFadd (gOf (w / 262144 % 32)) (gOf (w / 8192 % 32)) (gOf (w / 256 % 32)) (OrdKind.ofCode (w / 64 % 4)) (if w / 8 % 2 = 0 then Width.w32 else Width.w64))
  | 8 => some (.amoMaxu (gOf (w / 262144 % 32)) (gOf (w / 8192 % 32)) (gOf (w / 256 % 32)) (OrdKind.ofCode (w / 64 % 4)) (if w / 8 % 2 = 0 then Width.w32 else Width.w64))
  | 9 => some (.amoMinu (gOf (w / 262144 % 32)) (gOf (w / 8192 % 32)) (gOf (w / 256 % 32)) (OrdKind.ofCode (w / 64 % 4)) (if w / 8 % 2 = 0 then Width.w32 else Width.w64))
  | 10 => some (.amoFmax (gOf (w / 262144 % 32)) (gOf (w / 8192 % 32)) (gOf (w / 256 % 32)) (OrdKind.ofCode (w / 64 % 4)) (if w / 8 % 2 = 0 then Width.w32 else Width.w64))
  | 11 => some (.amoFmin (gOf (w / 262144 % 32)) (gOf (w / 8192 % 32)) (gOf (w / 256 % 32)) (OrdKind.ofCode (w / 64 % 4)) (if w / 8 % 2 = 0 then Width.w32 else Width.w64))
  | _ => none

/-- C major 0x1F: lres, scnd, cas. -/
def decodeC1F (w : Nat) : Option Instr :=
  match w % 8 with
  | 0 => if w / 16 % 4 = 0 ∧ w / 128 % 64 = 0 then some (.lres (gOf (w / 262144 % 32)) (gOf (w / 8192 % 32)) (w / 64 % 2 = 1 : Bool) (if w / 8 % 2 = 0 then Width.w32 else Width.w64)) else none
  | 1 => if w / 16 % 8 = 0 then some (.scnd (gOf (w / 262144 % 32)) (gOf (w / 8192 % 32)) (gOf (w / 256 % 32)) (w / 128 % 2 = 1 : Bool) (if w / 8 % 2 = 0 then Width.w32 else Width.w64)) else none
  | 2 => if w / 16 % 4 = 0 then some (.cas (gOf (w / 262144 % 32)) (gOf (w / 8192 % 32)) (gOf (w / 256 % 32)) (OrdKind.ofCode (w / 64 % 4)) (if w / 8 % 2 = 0 then Width.w32 else Width.w64)) else none
  | _ => none

/-- C major 0x20: red, redo, ordset. -/
def decodeC20 (w : Nat) : Option Instr :=
  match w % 8 with
  | 0 => if w / 64 % 2 = 0 then (RedOp.ofCode (w / 262144 % 16)).bind fun op => (Scope.ofCode (w / 8 % 8)).bind fun e => checked (.red op (if w / 4194304 % 2 = 0 then Width.w32 else Width.w64) (gOf (w / 8192 % 32)) (gOf (w / 256 % 32)) (w / 128 % 2 = 1 : Bool) e) else none
  | 1 => if w / 8 % 32 = 0 then some (.redo (gOf (w / 262144 % 32)) (gOf (w / 8192 % 32)) (gOf (w / 256 % 32))) else none
  | 2 => if w / 8 % 32 = 0 then some (.ordset (gOf (w / 262144 % 32)) (gOf (w / 8192 % 32)) (gOf (w / 256 % 32))) else none
  | _ => none

/-- C major 0x21: fence. -/
def decodeC21 (w : Nat) : Option Instr :=
  if w % 8 = 0 ∧ w / 256 % 32768 = 0 then (Scope.ofCode (w / 8 % 8)).bind fun e => checked (.fence (OrdKind.ofCode (w / 64 % 4)) e) else none

/-- C major 0x22: cpub. -/
def decodeC22 (w : Nat) : Option Instr :=
  if w % 8 = 0 ∧ w / 64 % 4 = 0 ∧ w / 262144 % 32 = 0 then (Scope.ofCode (w / 8 % 8)).bind fun e => some (.cpub (gOf (w / 8192 % 32)) (gOf (w / 256 % 32)) e) else none

/-- C major 0x23: bar.arr, bar.wt, bar. -/
def decodeC23 (w : Nat) : Option Instr :=
  match w % 8 with
  | 0 => if w / 64 % 4 = 0 ∧ w / 8192 % 32 = 0 ∧ w / 1048576 % 8 = 0 then (Scope.ofCode (w / 8 % 8)).bind fun e => checked (.barArr (⟨w / 262144 % 4, Nat.mod_lt _ (by decide)⟩ : Fin 4) (gOf (w / 256 % 32)) e) else none
  | 1 => if w / 64 % 4096 = 0 ∧ w / 1048576 % 8 = 0 then (Scope.ofCode (w / 8 % 8)).bind fun e => checked (.barWt (⟨w / 262144 % 4, Nat.mod_lt _ (by decide)⟩ : Fin 4) e) else none
  | 2 => if w / 64 % 4 = 0 ∧ w / 8192 % 32 = 0 ∧ w / 1048576 % 8 = 0 then (Scope.ofCode (w / 8 % 8)).bind fun e => checked (.bar (⟨w / 262144 % 4, Nat.mod_lt _ (by decide)⟩ : Fin 4) (gOf (w / 256 % 32)) e) else none
  | _ => none

/-- C major 0x24: mon, monx, wait. -/
def decodeC24 (w : Nat) : Option Instr :=
  match fnF w with
  | 0 => if w / 256 % 32 = 0 then some (.mon (gOf (w / 262144 % 32)) (gOf (w / 8192 % 32))) else none
  | 1 => if w / 256 % 32768 = 0 then some .monx else none
  | 2 => if w / 256 % 1024 = 0 then some (.wait (gOf (w / 262144 % 32))) else none
  | _ => none

/-- C major 0x25: fill, open. -/
def decodeC25 (w : Nat) : Option Instr :=
  match fnF w with
  | 0 => if w / 262144 % 32 = 0 then some (.fill (gOf (w / 8192 % 32)) (gOf (w / 256 % 32))) else none
  | 1 => if w / 8192 % 32 = 0 then (RegName.ofCode (w / 262144 % 32) (r2F w)).bind fun r => some (.openReg r) else none
  | _ => none

/-- C major 0x26: msend, mrecv, mpoll. -/
def decodeC26 (w : Nat) : Option Instr :=
  match fnF w with
  | 0 => if w / 262144 % 32 = 0 then some (.msend (gOf (w / 8192 % 32)) (gOf (w / 256 % 32))) else none
  | 1 => some (.mrecv (gOf (w / 262144 % 32)) (gOf (w / 8192 % 32)) (gOf (w / 256 % 32)))
  | 2 => some (.mpoll (gOf (w / 262144 % 32)) (gOf (w / 8192 % 32)) (gOf (w / 256 % 32)))
  | _ => none

/-- C major 0x27: spawn, mig, gang, split. -/
def decodeC27 (w : Nat) : Option Instr :=
  match fnF w with
  | 0 => some (.spawn (gOf (w / 262144 % 32)) (gOf (w / 8192 % 32)) (gOf (w / 256 % 32)))
  | 1 => if w / 256 % 32 = 0 ∧ w / 262144 % 32 = 0 then some (.mig (gOf (w / 8192 % 32))) else none
  | 2 => if w / 256 % 32 = 0 then some (.gang (gOf (w / 262144 % 32)) (gOf (w / 8192 % 32))) else none
  | 3 => if w / 256 % 32768 = 0 then some .split else none
  | _ => none

/-- C major 0x28: snap, snend, txb, txc, txa. -/
def decodeC28 (w : Nat) : Option Instr :=
  match fnF w with
  | 0 => if w / 256 % 1024 = 0 then some (.snap (gOf (w / 262144 % 32))) else none
  | 1 => if w / 256 % 32768 = 0 then some .snend else none
  | 2 => if w / 256 % 1024 = 0 then some (.txb (gOf (w / 262144 % 32))) else none
  | 3 => if w / 256 % 1024 = 0 then some (.txc (gOf (w / 262144 % 32))) else none
  | 4 => if w / 256 % 32768 = 0 then some .txa else none
  | _ => none

/-- C major 0x29: mma, gmma, mmas, mzero. -/
def decodeC29 (w : Nat) : Option Instr :=
  match fnF w with
  | 0 => (accOf (w / 262144 % 32)).bind fun d => some (.mma d (gOf (w / 8192 % 32)) (gOf (w / 256 % 32)))
  | 1 => (accOf (w / 262144 % 32)).bind fun d => some (.gmma d (gOf (w / 8192 % 32)) (gOf (w / 256 % 32)))
  | 2 => (accOf (w / 262144 % 32)).bind fun d => some (.mmas d (gOf (w / 8192 % 32)) (gOf (w / 256 % 32)))
  | 4 => if w / 256 % 1024 = 0 then (accOf (w / 262144 % 32)).bind fun d => some (.mzero d) else none
  | _ => none

/-- C major 0x2A: mdrain, mdrain.z, mdrain.rel, mva, mva, mwait, mwait.rel. -/
def decodeC2A (w : Nat) : Option Instr :=
  match fnF w with
  | 0 => (accOf (w / 262144 % 32)).bind fun d => some (.mdrain d (gOf (w / 8192 % 32)) (gOf (w / 256 % 32)))
  | 1 => (accOf (w / 262144 % 32)).bind fun d => some (.mdrainZ d (gOf (w / 8192 % 32)) (gOf (w / 256 % 32)))
  | 2 => (accOf (w / 262144 % 32)).bind fun d => some (.mdrainRel d (gOf (w / 8192 % 32)) (gOf (w / 256 % 32)))
  | 8 => (vOf (w / 262144 % 32)).bind fun d => (accOf (w / 8192 % 32)).bind fun a => some (.mvaToVector d a (gOf (w / 256 % 32)))
  | 9 => (accOf (w / 262144 % 32)).bind fun d => (vOf (w / 8192 % 32)).bind fun a => some (.mvaToAccumulator d a (gOf (w / 256 % 32)))
  | 16 => if w / 256 % 1024 = 0 then (accOf (w / 262144 % 32)).bind fun d => some (.mwait d) else none
  | 17 => if w / 256 % 1024 = 0 then (accOf (w / 262144 % 32)).bind fun d => some (.mwaitRel d) else none
  | _ => none

/-- C major 0x2B: cpy, cpy2, gath, scat, wsld, cwait, gres, gcan. -/
def decodeC2B (w : Nat) : Option Instr :=
  match fnF w with
  | 0 => some (.cpy (gOf (w / 262144 % 32)) (gOf (w / 8192 % 32)) (gOf (w / 256 % 32)))
  | 1 => checked (.cpy2 (gOf (w / 262144 % 32)) (gOf (w / 8192 % 32)) (gOf (w / 256 % 32)))
  | 2 => checked (.gath (gOf (w / 262144 % 32)) (gOf (w / 8192 % 32)) (gOf (w / 256 % 32)))
  | 3 => checked (.scat (gOf (w / 262144 % 32)) (gOf (w / 8192 % 32)) (gOf (w / 256 % 32)))
  | 4 => some (.wsld (gOf (w / 262144 % 32)) (gOf (w / 8192 % 32)) (gOf (w / 256 % 32)))
  | 8 => if w / 256 % 1024 = 0 then some (.cwait (gOf (w / 262144 % 32))) else none
  | 9 => if w / 256 % 32768 = 0 then some .gres else none
  | 10 => if w / 256 % 32768 = 0 then some .gcan else none
  | _ => none

/-- C major 0x2C: swset, swwait. -/
def decodeC2C (w : Nat) : Option Instr :=
  match fnF w with
  | 0 => if w / 262144 % 32 = 0 then some (.swset (gOf (w / 8192 % 32)) (gOf (w / 256 % 32))) else none
  | 1 => some (.swwait (gOf (w / 262144 % 32)) (gOf (w / 8192 % 32)) (gOf (w / 256 % 32)))
  | _ => none

/-- C major 0x2D: serve. -/
def decodeC2D (w : Nat) : Option Instr :=
  checked (.serve (gOf (w / 262144 % 32)) (gOf (w / 8192 % 32)) (⟨w / 1024 % 8, Nat.mod_lt _ (by decide)⟩ : Fin 8) (BitVec.ofNat 10 (w % 1024)))

/-- C major 0x2E: servn. -/
def decodeC2E (w : Nat) : Option Instr :=
  checked (.servn (gOf (w / 262144 % 32)) (gOf (w / 8192 % 32)) (⟨w / 1024 % 8, Nat.mod_lt _ (by decide)⟩ : Fin 8) (BitVec.ofNat 10 (w % 1024)))

/-- C major 0x2F: cfgld, lnch. -/
def decodeC2F (w : Nat) : Option Instr :=
  match fnF w with
  | 0 => if w / 256 % 32 = 0 then some (.cfgld (gOf (w / 262144 % 32)) (gOf (w / 8192 % 32))) else none
  | 1 => if w / 256 % 32 = 0 then some (.lnch (gOf (w / 262144 % 32)) (gOf (w / 8192 % 32))) else none
  | _ => none

/-- A major 0x01: add, sub, and, or, xor, andn, sll, srl, sra, slt, sltu, min, max, minu, maxu, adds, subs. -/
def decodeA01 (w : Nat) : Option Instr :=
  match fnF w with
  | 0 => some (.add (gOf (w / 262144 % 32)) (gOf (w / 8192 % 32)) (gOf (w / 256 % 32)))
  | 1 => some (.sub (gOf (w / 262144 % 32)) (gOf (w / 8192 % 32)) (gOf (w / 256 % 32)))
  | 2 => some (.and (gOf (w / 262144 % 32)) (gOf (w / 8192 % 32)) (gOf (w / 256 % 32)))
  | 3 => some (.or (gOf (w / 262144 % 32)) (gOf (w / 8192 % 32)) (gOf (w / 256 % 32)))
  | 4 => some (.xor (gOf (w / 262144 % 32)) (gOf (w / 8192 % 32)) (gOf (w / 256 % 32)))
  | 5 => some (.andn (gOf (w / 262144 % 32)) (gOf (w / 8192 % 32)) (gOf (w / 256 % 32)))
  | 6 => some (.sll (gOf (w / 262144 % 32)) (gOf (w / 8192 % 32)) (gOf (w / 256 % 32)))
  | 7 => some (.srl (gOf (w / 262144 % 32)) (gOf (w / 8192 % 32)) (gOf (w / 256 % 32)))
  | 8 => some (.sra (gOf (w / 262144 % 32)) (gOf (w / 8192 % 32)) (gOf (w / 256 % 32)))
  | 9 => some (.slt (gOf (w / 262144 % 32)) (gOf (w / 8192 % 32)) (gOf (w / 256 % 32)))
  | 10 => some (.sltu (gOf (w / 262144 % 32)) (gOf (w / 8192 % 32)) (gOf (w / 256 % 32)))
  | 11 => some (.min (gOf (w / 262144 % 32)) (gOf (w / 8192 % 32)) (gOf (w / 256 % 32)))
  | 12 => some (.max (gOf (w / 262144 % 32)) (gOf (w / 8192 % 32)) (gOf (w / 256 % 32)))
  | 13 => some (.minu (gOf (w / 262144 % 32)) (gOf (w / 8192 % 32)) (gOf (w / 256 % 32)))
  | 14 => some (.maxu (gOf (w / 262144 % 32)) (gOf (w / 8192 % 32)) (gOf (w / 256 % 32)))
  | 15 => some (.adds (gOf (w / 262144 % 32)) (gOf (w / 8192 % 32)) (gOf (w / 256 % 32)))
  | 16 => some (.subs (gOf (w / 262144 % 32)) (gOf (w / 8192 % 32)) (gOf (w / 256 % 32)))
  | _ => none

/-- A major 0x02: mul, mulh, mulhu, div, div.ck, divu, divu.ck, rem, rem.ck, remu, remu.ck. -/
def decodeA02 (w : Nat) : Option Instr :=
  match fnF w with
  | 0 => some (.mul (gOf (w / 262144 % 32)) (gOf (w / 8192 % 32)) (gOf (w / 256 % 32)))
  | 1 => some (.mulh (gOf (w / 262144 % 32)) (gOf (w / 8192 % 32)) (gOf (w / 256 % 32)))
  | 2 => some (.mulhu (gOf (w / 262144 % 32)) (gOf (w / 8192 % 32)) (gOf (w / 256 % 32)))
  | 3 => some (.div (gOf (w / 262144 % 32)) (gOf (w / 8192 % 32)) (gOf (w / 256 % 32)))
  | 131 => some (.divCk (gOf (w / 262144 % 32)) (gOf (w / 8192 % 32)) (gOf (w / 256 % 32)))
  | 4 => some (.divu (gOf (w / 262144 % 32)) (gOf (w / 8192 % 32)) (gOf (w / 256 % 32)))
  | 132 => some (.divuCk (gOf (w / 262144 % 32)) (gOf (w / 8192 % 32)) (gOf (w / 256 % 32)))
  | 5 => some (.rem (gOf (w / 262144 % 32)) (gOf (w / 8192 % 32)) (gOf (w / 256 % 32)))
  | 133 => some (.remCk (gOf (w / 262144 % 32)) (gOf (w / 8192 % 32)) (gOf (w / 256 % 32)))
  | 6 => some (.remu (gOf (w / 262144 % 32)) (gOf (w / 8192 % 32)) (gOf (w / 256 % 32)))
  | 134 => some (.remuCk (gOf (w / 262144 % 32)) (gOf (w / 8192 % 32)) (gOf (w / 256 % 32)))
  | _ => none

/-- A major 0x03: addi. -/
def decodeA03 (w : Nat) : Option Instr :=
  some (.addi (gOf (w / 262144 % 32)) (gOf (w / 8192 % 32)) (BitVec.ofNat 13 (w % 8192)))

/-- A major 0x04: andi. -/
def decodeA04 (w : Nat) : Option Instr :=
  some (.andi (gOf (w / 262144 % 32)) (gOf (w / 8192 % 32)) (BitVec.ofNat 13 (w % 8192)))

/-- A major 0x05: ori. -/
def decodeA05 (w : Nat) : Option Instr :=
  some (.ori (gOf (w / 262144 % 32)) (gOf (w / 8192 % 32)) (BitVec.ofNat 13 (w % 8192)))

/-- A major 0x06: xori. -/
def decodeA06 (w : Nat) : Option Instr :=
  some (.xori (gOf (w / 262144 % 32)) (gOf (w / 8192 % 32)) (BitVec.ofNat 13 (w % 8192)))

/-- A major 0x07: slli, srli, srai. -/
def decodeA07 (w : Nat) : Option Instr :=
  match w / 2048 % 4 with
  | 0 => if w / 64 % 32 = 0 then some (.slli (gOf (w / 262144 % 32)) (gOf (w / 8192 % 32)) (BitVec.ofNat 6 (w % 64))) else none
  | 1 => if w / 64 % 32 = 0 then some (.srli (gOf (w / 262144 % 32)) (gOf (w / 8192 % 32)) (BitVec.ofNat 6 (w % 64))) else none
  | 2 => if w / 64 % 32 = 0 then some (.srai (gOf (w / 262144 % 32)) (gOf (w / 8192 % 32)) (BitVec.ofNat 6 (w % 64))) else none
  | _ => none

/-- A major 0x08: slti. -/
def decodeA08 (w : Nat) : Option Instr :=
  some (.slti (gOf (w / 262144 % 32)) (gOf (w / 8192 % 32)) (BitVec.ofNat 13 (w % 8192)))

/-- A major 0x09: sltiu. -/
def decodeA09 (w : Nat) : Option Instr :=
  some (.sltiu (gOf (w / 262144 % 32)) (gOf (w / 8192 % 32)) (BitVec.ofNat 13 (w % 8192)))

/-- A major 0x0A: ldi. -/
def decodeA0A (w : Nat) : Option Instr :=
  some (.ldi (gOf (w / 262144 % 32)) (BitVec.ofNat 18 (w % 262144)))

/-- A major 0x0B: lsh. -/
def decodeA0B (w : Nat) : Option Instr :=
  some (.lsh (gOf (w / 262144 % 32)) (BitVec.ofNat 18 (w % 262144)))

/-- A major 0x0C: movz, movn. -/
def decodeA0C (w : Nat) : Option Instr :=
  match fnF w with
  | 0 => some (.movz (gOf (w / 262144 % 32)) (gOf (w / 8192 % 32)) (gOf (w / 256 % 32)))
  | 1 => some (.movn (gOf (w / 262144 % 32)) (gOf (w / 8192 % 32)) (gOf (w / 256 % 32)))
  | _ => none

/-- A major 0x0D: clz, ctz, popc. -/
def decodeA0D (w : Nat) : Option Instr :=
  match fnF w with
  | 0 => if w / 256 % 32 = 0 then some (.clz (gOf (w / 262144 % 32)) (gOf (w / 8192 % 32))) else none
  | 1 => if w / 256 % 32 = 0 then some (.ctz (gOf (w / 262144 % 32)) (gOf (w / 8192 % 32))) else none
  | 2 => if w / 256 % 32 = 0 then some (.popc (gOf (w / 262144 % 32)) (gOf (w / 8192 % 32))) else none
  | _ => none

/-- A major 0x0E: vbcst, vins, vext, vexts, mtm, mfm, mpopc, mffs. -/
def decodeA0E (w : Nat) : Option Instr :=
  match w % 32 with
  | 0 => if w / 256 % 32 = 0 then (vOf (w / 262144 % 32)).bind fun d => some (.vbcst d (gOf (w / 8192 % 32)) (⟨w / 32 % 8, Nat.mod_lt _ (by decide)⟩ : Fin 8)) else none
  | 1 => if w / 32 % 8 = 0 then (vOf (w / 262144 % 32)).bind fun d => some (.vins d (gOf (w / 8192 % 32)) (gOf (w / 256 % 32))) else none
  | 2 => if w / 32 % 8 = 0 then (vOf (w / 8192 % 32)).bind fun a => some (.vext (gOf (w / 262144 % 32)) a (gOf (w / 256 % 32))) else none
  | 3 => if w / 32 % 8 = 0 then (vOf (w / 8192 % 32)).bind fun a => some (.vexts (gOf (w / 262144 % 32)) a (gOf (w / 256 % 32))) else none
  | 4 => if w / 32 % 256 = 0 then (mOf (w / 262144 % 32)).bind fun d => some (.mtm d (gOf (w / 8192 % 32))) else none
  | 5 => if w / 32 % 256 = 0 then (mOf (w / 8192 % 32)).bind fun a => some (.mfm (gOf (w / 262144 % 32)) a) else none
  | 6 => if w / 32 % 256 = 0 then (mOf (w / 8192 % 32)).bind fun a => some (.mpopc (gOf (w / 262144 % 32)) a) else none
  | 7 => if w / 32 % 256 = 0 then (mOf (w / 8192 % 32)).bind fun a => some (.mffs (gOf (w / 262144 % 32)) a) else none
  | _ => none

/-- A major 0x10: fadd, fsub, fmul, fdiv, fsqrt, fmin, fmax, fcsign, fnsign, fxsign. -/
def decodeA10 (w : Nat) : Option Instr :=
  match fnF w / 4 with
  | 0 => some (.fadd (gOf (w / 262144 % 32)) (gOf (w / 8192 % 32)) (gOf (w / 256 % 32)) (Fmt.ofCode (w % 4)))
  | 1 => some (.fsub (gOf (w / 262144 % 32)) (gOf (w / 8192 % 32)) (gOf (w / 256 % 32)) (Fmt.ofCode (w % 4)))
  | 2 => some (.fmul (gOf (w / 262144 % 32)) (gOf (w / 8192 % 32)) (gOf (w / 256 % 32)) (Fmt.ofCode (w % 4)))
  | 3 => some (.fdiv (gOf (w / 262144 % 32)) (gOf (w / 8192 % 32)) (gOf (w / 256 % 32)) (Fmt.ofCode (w % 4)))
  | 4 => if w / 256 % 32 = 0 then some (.fsqrt (gOf (w / 262144 % 32)) (gOf (w / 8192 % 32)) (Fmt.ofCode (w % 4))) else none
  | 5 => some (.fmin (gOf (w / 262144 % 32)) (gOf (w / 8192 % 32)) (gOf (w / 256 % 32)) (Fmt.ofCode (w % 4)))
  | 6 => some (.fmax (gOf (w / 262144 % 32)) (gOf (w / 8192 % 32)) (gOf (w / 256 % 32)) (Fmt.ofCode (w % 4)))
  | 7 => some (.fcsign (gOf (w / 262144 % 32)) (gOf (w / 8192 % 32)) (gOf (w / 256 % 32)) (Fmt.ofCode (w % 4)))
  | 8 => some (.fnsign (gOf (w / 262144 % 32)) (gOf (w / 8192 % 32)) (gOf (w / 256 % 32)) (Fmt.ofCode (w % 4)))
  | 9 => some (.fxsign (gOf (w / 262144 % 32)) (gOf (w / 8192 % 32)) (gOf (w / 256 % 32)) (Fmt.ofCode (w % 4)))
  | _ => none

/-- A major 0x11: feq, flt, fle, fkind, fcvt, fcvti, fcvtiu, icvtf, ucvtf. -/
def decodeA11 (w : Nat) : Option Instr :=
  match fnF w / 4 with
  | 0 => some (.feq (gOf (w / 262144 % 32)) (gOf (w / 8192 % 32)) (gOf (w / 256 % 32)) (Fmt.ofCode (w % 4)))
  | 1 => some (.flt (gOf (w / 262144 % 32)) (gOf (w / 8192 % 32)) (gOf (w / 256 % 32)) (Fmt.ofCode (w % 4)))
  | 2 => some (.fle (gOf (w / 262144 % 32)) (gOf (w / 8192 % 32)) (gOf (w / 256 % 32)) (Fmt.ofCode (w % 4)))
  | 3 => if w / 256 % 32 = 0 then some (.fkind (gOf (w / 262144 % 32)) (gOf (w / 8192 % 32)) (Fmt.ofCode (w % 4))) else none
  | 4 => if w / 1024 % 8 = 0 then checked (.fcvt (gOf (w / 262144 % 32)) (gOf (w / 8192 % 32)) (Fmt.ofCode (w / 256 % 4)) (Fmt.ofCode (w % 4))) else none
  | 5 => if w / 2048 % 4 = 0 then (CvtMode.ofCode (w / 256 % 8)).bind fun md => some (.fcvti (gOf (w / 262144 % 32)) (gOf (w / 8192 % 32)) md (Fmt.ofCode (w % 4))) else none
  | 6 => if w / 2048 % 4 = 0 then (CvtMode.ofCode (w / 256 % 8)).bind fun md => some (.fcvtiu (gOf (w / 262144 % 32)) (gOf (w / 8192 % 32)) md (Fmt.ofCode (w % 4))) else none
  | 7 => if w / 256 % 32 = 0 then some (.icvtf (gOf (w / 262144 % 32)) (gOf (w / 8192 % 32)) (Fmt.ofCode (w % 4))) else none
  | 8 => if w / 256 % 32 = 0 then some (.ucvtf (gOf (w / 262144 % 32)) (gOf (w / 8192 % 32)) (Fmt.ofCode (w % 4))) else none
  | _ => none

/-- A major 0x12: fmadd, fmsub, fnmadd, fnmsub. -/
def decodeA12 (w : Nat) : Option Instr :=
  match w % 8 / 2 with
  | 0 => some (.fmadd (gOf (w / 262144 % 32)) (gOf (w / 8192 % 32)) (gOf (w / 256 % 32)) (gOf (w / 8 % 32)) (if w % 2 = 0 then Fmt2.s else Fmt2.d))
  | 1 => some (.fmsub (gOf (w / 262144 % 32)) (gOf (w / 8192 % 32)) (gOf (w / 256 % 32)) (gOf (w / 8 % 32)) (if w % 2 = 0 then Fmt2.s else Fmt2.d))
  | 2 => some (.fnmadd (gOf (w / 262144 % 32)) (gOf (w / 8192 % 32)) (gOf (w / 256 % 32)) (gOf (w / 8 % 32)) (if w % 2 = 0 then Fmt2.s else Fmt2.d))
  | 3 => some (.fnmsub (gOf (w / 262144 % 32)) (gOf (w / 8192 % 32)) (gOf (w / 256 % 32)) (gOf (w / 8 % 32)) (if w % 2 = 0 then Fmt2.s else Fmt2.d))
  | _ => none

/-- A major 0x20: vfadd.s, vfsub.s, vfmul.s, vfdiv.s, vfsqrt.s, vfmin.s, vfmax.s, vfcsign.s, vfnsign.s, vfxsign.s. -/
def decodeA20 (w : Nat) : Option Instr :=
  match w % 32 with
  | 0 => (vOf (w / 262144 % 32)).bind fun d => (vOf (w / 8192 % 32)).bind fun a => (vOf (w / 256 % 32)).bind fun b => some (.vfaddS d a b (⟨w / 32 % 8, Nat.mod_lt _ (by decide)⟩ : Fin 8))
  | 1 => (vOf (w / 262144 % 32)).bind fun d => (vOf (w / 8192 % 32)).bind fun a => (vOf (w / 256 % 32)).bind fun b => some (.vfsubS d a b (⟨w / 32 % 8, Nat.mod_lt _ (by decide)⟩ : Fin 8))
  | 2 => (vOf (w / 262144 % 32)).bind fun d => (vOf (w / 8192 % 32)).bind fun a => (vOf (w / 256 % 32)).bind fun b => some (.vfmulS d a b (⟨w / 32 % 8, Nat.mod_lt _ (by decide)⟩ : Fin 8))
  | 3 => (vOf (w / 262144 % 32)).bind fun d => (vOf (w / 8192 % 32)).bind fun a => (vOf (w / 256 % 32)).bind fun b => some (.vfdivS d a b (⟨w / 32 % 8, Nat.mod_lt _ (by decide)⟩ : Fin 8))
  | 4 => if w / 256 % 32 = 0 then (vOf (w / 262144 % 32)).bind fun d => (vOf (w / 8192 % 32)).bind fun a => some (.vfsqrtS d a (⟨w / 32 % 8, Nat.mod_lt _ (by decide)⟩ : Fin 8)) else none
  | 5 => (vOf (w / 262144 % 32)).bind fun d => (vOf (w / 8192 % 32)).bind fun a => (vOf (w / 256 % 32)).bind fun b => some (.vfminS d a b (⟨w / 32 % 8, Nat.mod_lt _ (by decide)⟩ : Fin 8))
  | 6 => (vOf (w / 262144 % 32)).bind fun d => (vOf (w / 8192 % 32)).bind fun a => (vOf (w / 256 % 32)).bind fun b => some (.vfmaxS d a b (⟨w / 32 % 8, Nat.mod_lt _ (by decide)⟩ : Fin 8))
  | 7 => (vOf (w / 262144 % 32)).bind fun d => (vOf (w / 8192 % 32)).bind fun a => (vOf (w / 256 % 32)).bind fun b => some (.vfcsignS d a b (⟨w / 32 % 8, Nat.mod_lt _ (by decide)⟩ : Fin 8))
  | 8 => (vOf (w / 262144 % 32)).bind fun d => (vOf (w / 8192 % 32)).bind fun a => (vOf (w / 256 % 32)).bind fun b => some (.vfnsignS d a b (⟨w / 32 % 8, Nat.mod_lt _ (by decide)⟩ : Fin 8))
  | 9 => (vOf (w / 262144 % 32)).bind fun d => (vOf (w / 8192 % 32)).bind fun a => (vOf (w / 256 % 32)).bind fun b => some (.vfxsignS d a b (⟨w / 32 % 8, Nat.mod_lt _ (by decide)⟩ : Fin 8))
  | _ => none

/-- A major 0x21: vadd, vsub, vmul, vand, vor, vxor, vsll, vsrl, vsra, vmin, vmax, vminu, vmaxu, vadds, vsubs. -/
def decodeA21 (w : Nat) : Option Instr :=
  match w % 32 with
  | 0 => (vOf (w / 262144 % 32)).bind fun d => (vOf (w / 8192 % 32)).bind fun a => (vOf (w / 256 % 32)).bind fun b => some (.vadd d a b (⟨w / 32 % 8, Nat.mod_lt _ (by decide)⟩ : Fin 8))
  | 1 => (vOf (w / 262144 % 32)).bind fun d => (vOf (w / 8192 % 32)).bind fun a => (vOf (w / 256 % 32)).bind fun b => some (.vsub d a b (⟨w / 32 % 8, Nat.mod_lt _ (by decide)⟩ : Fin 8))
  | 2 => (vOf (w / 262144 % 32)).bind fun d => (vOf (w / 8192 % 32)).bind fun a => (vOf (w / 256 % 32)).bind fun b => some (.vmul d a b (⟨w / 32 % 8, Nat.mod_lt _ (by decide)⟩ : Fin 8))
  | 3 => (vOf (w / 262144 % 32)).bind fun d => (vOf (w / 8192 % 32)).bind fun a => (vOf (w / 256 % 32)).bind fun b => some (.vand d a b (⟨w / 32 % 8, Nat.mod_lt _ (by decide)⟩ : Fin 8))
  | 4 => (vOf (w / 262144 % 32)).bind fun d => (vOf (w / 8192 % 32)).bind fun a => (vOf (w / 256 % 32)).bind fun b => some (.vor d a b (⟨w / 32 % 8, Nat.mod_lt _ (by decide)⟩ : Fin 8))
  | 5 => (vOf (w / 262144 % 32)).bind fun d => (vOf (w / 8192 % 32)).bind fun a => (vOf (w / 256 % 32)).bind fun b => some (.vxor d a b (⟨w / 32 % 8, Nat.mod_lt _ (by decide)⟩ : Fin 8))
  | 6 => (vOf (w / 262144 % 32)).bind fun d => (vOf (w / 8192 % 32)).bind fun a => (vOf (w / 256 % 32)).bind fun b => some (.vsll d a b (⟨w / 32 % 8, Nat.mod_lt _ (by decide)⟩ : Fin 8))
  | 7 => (vOf (w / 262144 % 32)).bind fun d => (vOf (w / 8192 % 32)).bind fun a => (vOf (w / 256 % 32)).bind fun b => some (.vsrl d a b (⟨w / 32 % 8, Nat.mod_lt _ (by decide)⟩ : Fin 8))
  | 8 => (vOf (w / 262144 % 32)).bind fun d => (vOf (w / 8192 % 32)).bind fun a => (vOf (w / 256 % 32)).bind fun b => some (.vsra d a b (⟨w / 32 % 8, Nat.mod_lt _ (by decide)⟩ : Fin 8))
  | 9 => (vOf (w / 262144 % 32)).bind fun d => (vOf (w / 8192 % 32)).bind fun a => (vOf (w / 256 % 32)).bind fun b => some (.vmin d a b (⟨w / 32 % 8, Nat.mod_lt _ (by decide)⟩ : Fin 8))
  | 10 => (vOf (w / 262144 % 32)).bind fun d => (vOf (w / 8192 % 32)).bind fun a => (vOf (w / 256 % 32)).bind fun b => some (.vmax d a b (⟨w / 32 % 8, Nat.mod_lt _ (by decide)⟩ : Fin 8))
  | 11 => (vOf (w / 262144 % 32)).bind fun d => (vOf (w / 8192 % 32)).bind fun a => (vOf (w / 256 % 32)).bind fun b => some (.vminu d a b (⟨w / 32 % 8, Nat.mod_lt _ (by decide)⟩ : Fin 8))
  | 12 => (vOf (w / 262144 % 32)).bind fun d => (vOf (w / 8192 % 32)).bind fun a => (vOf (w / 256 % 32)).bind fun b => some (.vmaxu d a b (⟨w / 32 % 8, Nat.mod_lt _ (by decide)⟩ : Fin 8))
  | 13 => (vOf (w / 262144 % 32)).bind fun d => (vOf (w / 8192 % 32)).bind fun a => (vOf (w / 256 % 32)).bind fun b => some (.vadds d a b (⟨w / 32 % 8, Nat.mod_lt _ (by decide)⟩ : Fin 8))
  | 14 => (vOf (w / 262144 % 32)).bind fun d => (vOf (w / 8192 % 32)).bind fun a => (vOf (w / 256 % 32)).bind fun b => some (.vsubs d a b (⟨w / 32 % 8, Nat.mod_lt _ (by decide)⟩ : Fin 8))
  | _ => none

/-- A major 0x22: vfeq.s, vflt.s, vfle.s, veq, vne, vlt, vle, vltu, vleu. -/
def decodeA22 (w : Nat) : Option Instr :=
  match w % 32 with
  | 0 => (mOf (w / 262144 % 32)).bind fun d => (vOf (w / 8192 % 32)).bind fun a => (vOf (w / 256 % 32)).bind fun b => some (.vfeqS d a b (⟨w / 32 % 8, Nat.mod_lt _ (by decide)⟩ : Fin 8))
  | 1 => (mOf (w / 262144 % 32)).bind fun d => (vOf (w / 8192 % 32)).bind fun a => (vOf (w / 256 % 32)).bind fun b => some (.vfltS d a b (⟨w / 32 % 8, Nat.mod_lt _ (by decide)⟩ : Fin 8))
  | 2 => (mOf (w / 262144 % 32)).bind fun d => (vOf (w / 8192 % 32)).bind fun a => (vOf (w / 256 % 32)).bind fun b => some (.vfleS d a b (⟨w / 32 % 8, Nat.mod_lt _ (by decide)⟩ : Fin 8))
  | 3 => (mOf (w / 262144 % 32)).bind fun d => (vOf (w / 8192 % 32)).bind fun a => (vOf (w / 256 % 32)).bind fun b => some (.veq d a b (⟨w / 32 % 8, Nat.mod_lt _ (by decide)⟩ : Fin 8))
  | 4 => (mOf (w / 262144 % 32)).bind fun d => (vOf (w / 8192 % 32)).bind fun a => (vOf (w / 256 % 32)).bind fun b => some (.vne d a b (⟨w / 32 % 8, Nat.mod_lt _ (by decide)⟩ : Fin 8))
  | 5 => (mOf (w / 262144 % 32)).bind fun d => (vOf (w / 8192 % 32)).bind fun a => (vOf (w / 256 % 32)).bind fun b => some (.vlt d a b (⟨w / 32 % 8, Nat.mod_lt _ (by decide)⟩ : Fin 8))
  | 6 => (mOf (w / 262144 % 32)).bind fun d => (vOf (w / 8192 % 32)).bind fun a => (vOf (w / 256 % 32)).bind fun b => some (.vle d a b (⟨w / 32 % 8, Nat.mod_lt _ (by decide)⟩ : Fin 8))
  | 7 => (mOf (w / 262144 % 32)).bind fun d => (vOf (w / 8192 % 32)).bind fun a => (vOf (w / 256 % 32)).bind fun b => some (.vltu d a b (⟨w / 32 % 8, Nat.mod_lt _ (by decide)⟩ : Fin 8))
  | 8 => (mOf (w / 262144 % 32)).bind fun d => (vOf (w / 8192 % 32)).bind fun a => (vOf (w / 256 % 32)).bind fun b => some (.vleu d a b (⟨w / 32 % 8, Nat.mod_lt _ (by decide)⟩ : Fin 8))
  | _ => none

/-- A major 0x23: mand, mor, mxor, mandn, mnot. -/
def decodeA23 (w : Nat) : Option Instr :=
  match w % 32 with
  | 0 => if w / 32 % 8 = 0 then (mOf (w / 262144 % 32)).bind fun d => (mOf (w / 8192 % 32)).bind fun a => (mOf (w / 256 % 32)).bind fun b => some (.mand d a b) else none
  | 1 => if w / 32 % 8 = 0 then (mOf (w / 262144 % 32)).bind fun d => (mOf (w / 8192 % 32)).bind fun a => (mOf (w / 256 % 32)).bind fun b => some (.mor d a b) else none
  | 2 => if w / 32 % 8 = 0 then (mOf (w / 262144 % 32)).bind fun d => (mOf (w / 8192 % 32)).bind fun a => (mOf (w / 256 % 32)).bind fun b => some (.mxor d a b) else none
  | 3 => if w / 32 % 8 = 0 then (mOf (w / 262144 % 32)).bind fun d => (mOf (w / 8192 % 32)).bind fun a => (mOf (w / 256 % 32)).bind fun b => some (.mandn d a b) else none
  | 4 => if w / 32 % 256 = 0 then (mOf (w / 262144 % 32)).bind fun d => (mOf (w / 8192 % 32)).bind fun a => some (.mnot d a) else none
  | _ => none

/-- A major 0x24: vcvt.w.s, vcvt.wu.s, vcvt.s.w, vcvt.s.wu, vcvt.h.s, vcvt.bf.s, vcvt.s.h.lo, vcvt.s.h.hi, vcvt.s.bf.lo, vcvt.s.bf.hi, vquant.tap8, vquant.tap8, vquant.tap6, vquant.tap6, vdeq.tap8, vdeq.tap8, vdeq.tap8, vdeq.tap8, vdeq.tap6, vdeq.tap6, vdeq.tap6, vdeq.tap6, vdeq.tap6, vcnz.b, vcnz.tap6, vcnz.h, vcnz.s, vcnz.w. -/
def decodeA24 (w : Nat) : Option Instr :=
  match w % 32 with
  | 0 => if w / 256 % 32 = 0 then (vOf (w / 262144 % 32)).bind fun d => (vOf (w / 8192 % 32)).bind fun a => some (.vcvtWS d a (⟨w / 32 % 8, Nat.mod_lt _ (by decide)⟩ : Fin 8)) else none
  | 1 => if w / 256 % 32 = 0 then (vOf (w / 262144 % 32)).bind fun d => (vOf (w / 8192 % 32)).bind fun a => some (.vcvtWuS d a (⟨w / 32 % 8, Nat.mod_lt _ (by decide)⟩ : Fin 8)) else none
  | 2 => if w / 256 % 32 = 0 then (vOf (w / 262144 % 32)).bind fun d => (vOf (w / 8192 % 32)).bind fun a => some (.vcvtSW d a (⟨w / 32 % 8, Nat.mod_lt _ (by decide)⟩ : Fin 8)) else none
  | 3 => if w / 256 % 32 = 0 then (vOf (w / 262144 % 32)).bind fun d => (vOf (w / 8192 % 32)).bind fun a => some (.vcvtSWu d a (⟨w / 32 % 8, Nat.mod_lt _ (by decide)⟩ : Fin 8)) else none
  | 4 => if w / 32 % 8 = 0 then (vOf (w / 262144 % 32)).bind fun d => (vOf (w / 8192 % 32)).bind fun a => (vOf (w / 256 % 32)).bind fun b => some (.vcvtHS d a b) else none
  | 5 => if w / 32 % 8 = 0 then (vOf (w / 262144 % 32)).bind fun d => (vOf (w / 8192 % 32)).bind fun a => (vOf (w / 256 % 32)).bind fun b => some (.vcvtBfS d a b) else none
  | 6 => if w / 256 % 32 = 0 then (vOf (w / 262144 % 32)).bind fun d => (vOf (w / 8192 % 32)).bind fun a => some (.vcvtSHLo d a (⟨w / 32 % 8, Nat.mod_lt _ (by decide)⟩ : Fin 8)) else none
  | 7 => if w / 256 % 32 = 0 then (vOf (w / 262144 % 32)).bind fun d => (vOf (w / 8192 % 32)).bind fun a => some (.vcvtSHHi d a (⟨w / 32 % 8, Nat.mod_lt _ (by decide)⟩ : Fin 8)) else none
  | 8 => if w / 256 % 32 = 0 then (vOf (w / 262144 % 32)).bind fun d => (vOf (w / 8192 % 32)).bind fun a => some (.vcvtSBfLo d a (⟨w / 32 % 8, Nat.mod_lt _ (by decide)⟩ : Fin 8)) else none
  | 9 => if w / 256 % 32 = 0 then (vOf (w / 262144 % 32)).bind fun d => (vOf (w / 8192 % 32)).bind fun a => some (.vcvtSBfHi d a (⟨w / 32 % 8, Nat.mod_lt _ (by decide)⟩ : Fin 8)) else none
  | 10 => if w / 32 % 8 = 0 then (vOf (w / 262144 % 32)).bind fun d => (vOf (w / 8192 % 32)).bind fun a => (mOf (w / 256 % 32)).bind fun b => checked (.vquantTap8P0 d a b) else none
  | 11 => if w / 32 % 8 = 0 then (vOf (w / 262144 % 32)).bind fun d => (vOf (w / 8192 % 32)).bind fun a => (mOf (w / 256 % 32)).bind fun b => checked (.vquantTap8P1 d a b) else none
  | 12 => if w / 32 % 8 = 0 then (vOf (w / 262144 % 32)).bind fun d => (vOf (w / 8192 % 32)).bind fun a => (mOf (w / 256 % 32)).bind fun b => checked (.vquantTap6P0 d a b) else none
  | 13 => if w / 32 % 8 = 0 then (vOf (w / 262144 % 32)).bind fun d => (vOf (w / 8192 % 32)).bind fun a => (mOf (w / 256 % 32)).bind fun b => checked (.vquantTap6P1 d a b) else none
  | 14 => (vOf (w / 262144 % 32)).bind fun d => (vOf (w / 8192 % 32)).bind fun a => (mOf (w / 256 % 32)).bind fun b => some (.vdeqTap8Q0 d a b (⟨w / 32 % 8, Nat.mod_lt _ (by decide)⟩ : Fin 8))
  | 15 => (vOf (w / 262144 % 32)).bind fun d => (vOf (w / 8192 % 32)).bind fun a => (mOf (w / 256 % 32)).bind fun b => some (.vdeqTap8Q1 d a b (⟨w / 32 % 8, Nat.mod_lt _ (by decide)⟩ : Fin 8))
  | 16 => (vOf (w / 262144 % 32)).bind fun d => (vOf (w / 8192 % 32)).bind fun a => (mOf (w / 256 % 32)).bind fun b => some (.vdeqTap8Q2 d a b (⟨w / 32 % 8, Nat.mod_lt _ (by decide)⟩ : Fin 8))
  | 17 => (vOf (w / 262144 % 32)).bind fun d => (vOf (w / 8192 % 32)).bind fun a => (mOf (w / 256 % 32)).bind fun b => some (.vdeqTap8Q3 d a b (⟨w / 32 % 8, Nat.mod_lt _ (by decide)⟩ : Fin 8))
  | 18 => (vOf (w / 262144 % 32)).bind fun d => (vOf (w / 8192 % 32)).bind fun a => (mOf (w / 256 % 32)).bind fun b => some (.vdeqTap6Q0 d a b (⟨w / 32 % 8, Nat.mod_lt _ (by decide)⟩ : Fin 8))
  | 19 => (vOf (w / 262144 % 32)).bind fun d => (vOf (w / 8192 % 32)).bind fun a => (mOf (w / 256 % 32)).bind fun b => some (.vdeqTap6Q1 d a b (⟨w / 32 % 8, Nat.mod_lt _ (by decide)⟩ : Fin 8))
  | 20 => (vOf (w / 262144 % 32)).bind fun d => (vOf (w / 8192 % 32)).bind fun a => (mOf (w / 256 % 32)).bind fun b => some (.vdeqTap6Q2 d a b (⟨w / 32 % 8, Nat.mod_lt _ (by decide)⟩ : Fin 8))
  | 21 => (vOf (w / 262144 % 32)).bind fun d => (vOf (w / 8192 % 32)).bind fun a => (mOf (w / 256 % 32)).bind fun b => some (.vdeqTap6Q3 d a b (⟨w / 32 % 8, Nat.mod_lt _ (by decide)⟩ : Fin 8))
  | 22 => (vOf (w / 262144 % 32)).bind fun d => (vOf (w / 8192 % 32)).bind fun a => (mOf (w / 256 % 32)).bind fun b => some (.vdeqTap6Q4 d a b (⟨w / 32 % 8, Nat.mod_lt _ (by decide)⟩ : Fin 8))
  | 23 => if w / 256 % 32 = 0 then (vOf (w / 262144 % 32)).bind fun d => (vOf (w / 8192 % 32)).bind fun a => some (.vcnzB d a (⟨w / 32 % 8, Nat.mod_lt _ (by decide)⟩ : Fin 8)) else none
  | 24 => if w / 256 % 32 = 0 then (vOf (w / 262144 % 32)).bind fun d => (vOf (w / 8192 % 32)).bind fun a => some (.vcnzTap6 d a (⟨w / 32 % 8, Nat.mod_lt _ (by decide)⟩ : Fin 8)) else none
  | 25 => if w / 256 % 32 = 0 then (vOf (w / 262144 % 32)).bind fun d => (vOf (w / 8192 % 32)).bind fun a => some (.vcnzH d a (⟨w / 32 % 8, Nat.mod_lt _ (by decide)⟩ : Fin 8)) else none
  | 26 => if w / 256 % 32 = 0 then (vOf (w / 262144 % 32)).bind fun d => (vOf (w / 8192 % 32)).bind fun a => some (.vcnzS d a (⟨w / 32 % 8, Nat.mod_lt _ (by decide)⟩ : Fin 8)) else none
  | 27 => if w / 256 % 32 = 0 then (vOf (w / 262144 % 32)).bind fun d => (vOf (w / 8192 % 32)).bind fun a => some (.vcnzW d a (⟨w / 32 % 8, Nat.mod_lt _ (by decide)⟩ : Fin 8)) else none
  | _ => none

/-- A major 0x25: vred.fadd.s, vred.fmin.s, vred.fmax.s, vred.add, vred.min, vred.max, vred.minu, vred.maxu, vred.and, vred.or, vred.xor, vperm, vrot, vmerge. -/
def decodeA25 (w : Nat) : Option Instr :=
  match w % 32 with
  | 0 => if w / 256 % 32 = 0 then (vOf (w / 8192 % 32)).bind fun a => some (.vredFaddS (gOf (w / 262144 % 32)) a (⟨w / 32 % 8, Nat.mod_lt _ (by decide)⟩ : Fin 8)) else none
  | 1 => if w / 256 % 32 = 0 then (vOf (w / 8192 % 32)).bind fun a => some (.vredFminS (gOf (w / 262144 % 32)) a (⟨w / 32 % 8, Nat.mod_lt _ (by decide)⟩ : Fin 8)) else none
  | 2 => if w / 256 % 32 = 0 then (vOf (w / 8192 % 32)).bind fun a => some (.vredFmaxS (gOf (w / 262144 % 32)) a (⟨w / 32 % 8, Nat.mod_lt _ (by decide)⟩ : Fin 8)) else none
  | 3 => if w / 256 % 32 = 0 then (vOf (w / 8192 % 32)).bind fun a => some (.vredAdd (gOf (w / 262144 % 32)) a (⟨w / 32 % 8, Nat.mod_lt _ (by decide)⟩ : Fin 8)) else none
  | 4 => if w / 256 % 32 = 0 then (vOf (w / 8192 % 32)).bind fun a => some (.vredMin (gOf (w / 262144 % 32)) a (⟨w / 32 % 8, Nat.mod_lt _ (by decide)⟩ : Fin 8)) else none
  | 5 => if w / 256 % 32 = 0 then (vOf (w / 8192 % 32)).bind fun a => some (.vredMax (gOf (w / 262144 % 32)) a (⟨w / 32 % 8, Nat.mod_lt _ (by decide)⟩ : Fin 8)) else none
  | 6 => if w / 256 % 32 = 0 then (vOf (w / 8192 % 32)).bind fun a => some (.vredMinu (gOf (w / 262144 % 32)) a (⟨w / 32 % 8, Nat.mod_lt _ (by decide)⟩ : Fin 8)) else none
  | 7 => if w / 256 % 32 = 0 then (vOf (w / 8192 % 32)).bind fun a => some (.vredMaxu (gOf (w / 262144 % 32)) a (⟨w / 32 % 8, Nat.mod_lt _ (by decide)⟩ : Fin 8)) else none
  | 8 => if w / 256 % 32 = 0 then (vOf (w / 8192 % 32)).bind fun a => some (.vredAnd (gOf (w / 262144 % 32)) a (⟨w / 32 % 8, Nat.mod_lt _ (by decide)⟩ : Fin 8)) else none
  | 9 => if w / 256 % 32 = 0 then (vOf (w / 8192 % 32)).bind fun a => some (.vredOr (gOf (w / 262144 % 32)) a (⟨w / 32 % 8, Nat.mod_lt _ (by decide)⟩ : Fin 8)) else none
  | 10 => if w / 256 % 32 = 0 then (vOf (w / 8192 % 32)).bind fun a => some (.vredXor (gOf (w / 262144 % 32)) a (⟨w / 32 % 8, Nat.mod_lt _ (by decide)⟩ : Fin 8)) else none
  | 16 => (vOf (w / 262144 % 32)).bind fun d => (vOf (w / 8192 % 32)).bind fun a => (vOf (w / 256 % 32)).bind fun b => some (.vperm d a b (⟨w / 32 % 8, Nat.mod_lt _ (by decide)⟩ : Fin 8))
  | 17 => (vOf (w / 262144 % 32)).bind fun d => (vOf (w / 8192 % 32)).bind fun a => some (.vrot d a (gOf (w / 256 % 32)) (⟨w / 32 % 8, Nat.mod_lt _ (by decide)⟩ : Fin 8))
  | 18 => (vOf (w / 262144 % 32)).bind fun d => (vOf (w / 8192 % 32)).bind fun a => (vOf (w / 256 % 32)).bind fun b => some (.vmerge d a b (⟨w / 32 % 8, Nat.mod_lt _ (by decide)⟩ : Fin 8))
  | _ => none

/-- A major 0x26: vfrecip.s, vfrsqrt.s, vfexp2.s, vflog2.s. -/
def decodeA26 (w : Nat) : Option Instr :=
  match w % 32 with
  | 0 => if w / 256 % 32 = 0 then (vOf (w / 262144 % 32)).bind fun d => (vOf (w / 8192 % 32)).bind fun a => some (.vfrecipS d a (⟨w / 32 % 8, Nat.mod_lt _ (by decide)⟩ : Fin 8)) else none
  | 1 => if w / 256 % 32 = 0 then (vOf (w / 262144 % 32)).bind fun d => (vOf (w / 8192 % 32)).bind fun a => some (.vfrsqrtS d a (⟨w / 32 % 8, Nat.mod_lt _ (by decide)⟩ : Fin 8)) else none
  | 2 => if w / 256 % 32 = 0 then (vOf (w / 262144 % 32)).bind fun d => (vOf (w / 8192 % 32)).bind fun a => some (.vfexp2S d a (⟨w / 32 % 8, Nat.mod_lt _ (by decide)⟩ : Fin 8)) else none
  | 3 => if w / 256 % 32 = 0 then (vOf (w / 262144 % 32)).bind fun d => (vOf (w / 8192 % 32)).bind fun a => some (.vflog2S d a (⟨w / 32 % 8, Nat.mod_lt _ (by decide)⟩ : Fin 8)) else none
  | _ => none

/-- A major 0x27: vfmadd.s. -/
def decodeA27 (w : Nat) : Option Instr :=
  (vOf (w / 262144 % 32)).bind fun d => (vOf (w / 8192 % 32)).bind fun a => (vOf (w / 256 % 32)).bind fun b => (vOf (w / 8 % 32)).bind fun c => some (.vfmaddS d a b c (⟨w % 8, Nat.mod_lt _ (by decide)⟩ : Fin 8))

/-- The instruction in bits 29:0 of a word: legal_word of R55 apart from the mode, which the machine judges (R61). -/
def decodeInstr (w : Nat) : Option Instr :=
  match opF w with
  | 1 => decodeC01 w
  | 2 => decodeC02 w
  | 3 => decodeC03 w
  | 4 => decodeC04 w
  | 5 => decodeC05 w
  | 6 => decodeC06 w
  | 7 => decodeC07 w
  | 8 => decodeC08 w
  | 9 => decodeC09 w
  | 10 => decodeC0A w
  | 11 => decodeC0B w
  | 12 => decodeC0C w
  | 13 => decodeC0D w
  | 14 => decodeC0E w
  | 15 => decodeC0F w
  | 16 => decodeC10 w
  | 17 => decodeC11 w
  | 18 => decodeC12 w
  | 19 => decodeC13 w
  | 20 => decodeC14 w
  | 21 => decodeC15 w
  | 22 => decodeC16 w
  | 23 => decodeC17 w
  | 24 => decodeC18 w
  | 25 => decodeC19 w
  | 26 => decodeC1A w
  | 27 => decodeC1B w
  | 28 => decodeC1C w
  | 29 => decodeC1D w
  | 30 => decodeC1E w
  | 31 => decodeC1F w
  | 32 => decodeC20 w
  | 33 => decodeC21 w
  | 34 => decodeC22 w
  | 35 => decodeC23 w
  | 36 => decodeC24 w
  | 37 => decodeC25 w
  | 38 => decodeC26 w
  | 39 => decodeC27 w
  | 40 => decodeC28 w
  | 41 => decodeC29 w
  | 42 => decodeC2A w
  | 43 => decodeC2B w
  | 44 => decodeC2C w
  | 45 => decodeC2D w
  | 46 => decodeC2E w
  | 47 => decodeC2F w
  | 65 => decodeA01 w
  | 66 => decodeA02 w
  | 67 => decodeA03 w
  | 68 => decodeA04 w
  | 69 => decodeA05 w
  | 70 => decodeA06 w
  | 71 => decodeA07 w
  | 72 => decodeA08 w
  | 73 => decodeA09 w
  | 74 => decodeA0A w
  | 75 => decodeA0B w
  | 76 => decodeA0C w
  | 77 => decodeA0D w
  | 78 => decodeA0E w
  | 80 => decodeA10 w
  | 81 => decodeA11 w
  | 82 => decodeA12 w
  | 96 => decodeA20 w
  | 97 => decodeA21 w
  | 98 => decodeA22 w
  | 99 => decodeA23 w
  | 100 => decodeA24 w
  | 101 => decodeA25 w
  | 102 => decodeA26 w
  | 103 => decodeA27 w
  | _ => none

/-- A word with its P and H bits; P on a word that may not begin a pair is refused (R52, R63). -/
def decode (w : Nat) : Option Bundled :=
  (decodeInstr w).bind fun i =>
    if w / 2147483648 % 2 = 1 ∧ !i.mayPair then none
    else some { pair := w / 2147483648 % 2 = 1, hold := w / 1073741824 % 2 = 1, instr := i }

/-- The little-endian value of a list of bytes (R4). -/
def leNat : List Byte → Nat
  | [] => 0
  | b :: bs => b.toNat + 256 * leNat bs

/-- The n low bytes of a value, least significant first (R4). -/
def leBytes : Nat → Nat → List Byte
  | 0, _ => []
  | n + 1, x => BitVec.ofNat 8 x :: leBytes n (x / 256)

/-- The word at the head of a list of bytes, and the bytes after it (R4, R52). -/
def decodeBytes : List Byte → Option (Bundled × List Byte)
  | b0 :: b1 :: b2 :: b3 :: rest => (decode (leNat [b0, b1, b2, b3])).map fun b => (b, rest)
  | _ => none

/-- The decoder on a row's word as the opcode table numbers its bits: every row that has an encoding has 32 bits. -/
def decodeTableWord (nbits w : Nat) : Option Instr :=
  if nbits = 0 ∨ 32 < nbits then none
  else (decodeBytes (leBytes 4 (w % 2 ^ nbits))).map fun x => x.1.instr

end

/-! ### The encoder -/

/-- Bits 29:0 of an instruction's word, from the same tables; an event has none. -/
def encodeInstr : Instr → Option Nat
  | .add d a b => some (0x20800000 + d.val * 262144 + a.val * 8192 + b.val * 256)
  | .sub d a b => some (0x20800001 + d.val * 262144 + a.val * 8192 + b.val * 256)
  | .and d a b => some (0x20800002 + d.val * 262144 + a.val * 8192 + b.val * 256)
  | .or d a b => some (0x20800003 + d.val * 262144 + a.val * 8192 + b.val * 256)
  | .xor d a b => some (0x20800004 + d.val * 262144 + a.val * 8192 + b.val * 256)
  | .andn d a b => some (0x20800005 + d.val * 262144 + a.val * 8192 + b.val * 256)
  | .sll d a b => some (0x20800006 + d.val * 262144 + a.val * 8192 + b.val * 256)
  | .srl d a b => some (0x20800007 + d.val * 262144 + a.val * 8192 + b.val * 256)
  | .sra d a b => some (0x20800008 + d.val * 262144 + a.val * 8192 + b.val * 256)
  | .slt d a b => some (0x20800009 + d.val * 262144 + a.val * 8192 + b.val * 256)
  | .sltu d a b => some (0x2080000a + d.val * 262144 + a.val * 8192 + b.val * 256)
  | .min d a b => some (0x2080000b + d.val * 262144 + a.val * 8192 + b.val * 256)
  | .max d a b => some (0x2080000c + d.val * 262144 + a.val * 8192 + b.val * 256)
  | .minu d a b => some (0x2080000d + d.val * 262144 + a.val * 8192 + b.val * 256)
  | .maxu d a b => some (0x2080000e + d.val * 262144 + a.val * 8192 + b.val * 256)
  | .adds d a b => some (0x2080000f + d.val * 262144 + a.val * 8192 + b.val * 256)
  | .subs d a b => some (0x20800010 + d.val * 262144 + a.val * 8192 + b.val * 256)
  | .addi d a i => some (0x21800000 + d.val * 262144 + a.val * 8192 + i.toNat)
  | .andi d a i => some (0x22000000 + d.val * 262144 + a.val * 8192 + i.toNat)
  | .ori d a i => some (0x22800000 + d.val * 262144 + a.val * 8192 + i.toNat)
  | .xori d a i => some (0x23000000 + d.val * 262144 + a.val * 8192 + i.toNat)
  | .slli d a s => some (0x23800000 + d.val * 262144 + a.val * 8192 + s.toNat)
  | .srli d a s => some (0x23800800 + d.val * 262144 + a.val * 8192 + s.toNat)
  | .srai d a s => some (0x23801000 + d.val * 262144 + a.val * 8192 + s.toNat)
  | .slti d a i => some (0x24000000 + d.val * 262144 + a.val * 8192 + i.toNat)
  | .sltiu d a i => some (0x24800000 + d.val * 262144 + a.val * 8192 + i.toNat)
  | .ldi d i => some (0x25000000 + d.val * 262144 + i.toNat)
  | .lsh d i => some (0x25800000 + d.val * 262144 + i.toNat)
  | .mul d a b => some (0x21000000 + d.val * 262144 + a.val * 8192 + b.val * 256)
  | .mulh d a b => some (0x21000001 + d.val * 262144 + a.val * 8192 + b.val * 256)
  | .mulhu d a b => some (0x21000002 + d.val * 262144 + a.val * 8192 + b.val * 256)
  | .div d a b => some (0x21000003 + d.val * 262144 + a.val * 8192 + b.val * 256)
  | .divCk d a b => some (0x21000083 + d.val * 262144 + a.val * 8192 + b.val * 256)
  | .divu d a b => some (0x21000004 + d.val * 262144 + a.val * 8192 + b.val * 256)
  | .divuCk d a b => some (0x21000084 + d.val * 262144 + a.val * 8192 + b.val * 256)
  | .rem d a b => some (0x21000005 + d.val * 262144 + a.val * 8192 + b.val * 256)
  | .remCk d a b => some (0x21000085 + d.val * 262144 + a.val * 8192 + b.val * 256)
  | .remu d a b => some (0x21000006 + d.val * 262144 + a.val * 8192 + b.val * 256)
  | .remuCk d a b => some (0x21000086 + d.val * 262144 + a.val * 8192 + b.val * 256)
  | .movz d a b => some (0x26000000 + d.val * 262144 + a.val * 8192 + b.val * 256)
  | .movn d a b => some (0x26000001 + d.val * 262144 + a.val * 8192 + b.val * 256)
  | .clz d a => some (0x26800000 + d.val * 262144 + a.val * 8192)
  | .ctz d a => some (0x26800001 + d.val * 262144 + a.val * 8192)
  | .popc d a => some (0x26800002 + d.val * 262144 + a.val * 8192)
  | .fadd d a b f => some (0x28000000 + d.val * 262144 + a.val * 8192 + b.val * 256 + f.code)
  | .fsub d a b f => some (0x28000004 + d.val * 262144 + a.val * 8192 + b.val * 256 + f.code)
  | .fmul d a b f => some (0x28000008 + d.val * 262144 + a.val * 8192 + b.val * 256 + f.code)
  | .fdiv d a b f => some (0x2800000c + d.val * 262144 + a.val * 8192 + b.val * 256 + f.code)
  | .fsqrt d a f => some (0x28000010 + d.val * 262144 + a.val * 8192 + f.code)
  | .fmin d a b f => some (0x28000014 + d.val * 262144 + a.val * 8192 + b.val * 256 + f.code)
  | .fmax d a b f => some (0x28000018 + d.val * 262144 + a.val * 8192 + b.val * 256 + f.code)
  | .fcsign d a b f => some (0x2800001c + d.val * 262144 + a.val * 8192 + b.val * 256 + f.code)
  | .fnsign d a b f => some (0x28000020 + d.val * 262144 + a.val * 8192 + b.val * 256 + f.code)
  | .fxsign d a b f => some (0x28000024 + d.val * 262144 + a.val * 8192 + b.val * 256 + f.code)
  | .feq d a b f => some (0x28800000 + d.val * 262144 + a.val * 8192 + b.val * 256 + f.code)
  | .flt d a b f => some (0x28800004 + d.val * 262144 + a.val * 8192 + b.val * 256 + f.code)
  | .fle d a b f => some (0x28800008 + d.val * 262144 + a.val * 8192 + b.val * 256 + f.code)
  | .fkind d a f => some (0x2880000c + d.val * 262144 + a.val * 8192 + f.code)
  | .fcvt d a fe f => some (0x28800010 + d.val * 262144 + a.val * 8192 + fe.code * 256 + f.code)
  | .fcvti d a md f => some (0x28800014 + d.val * 262144 + a.val * 8192 + md.code * 256 + f.code)
  | .fcvtiu d a md f => some (0x28800018 + d.val * 262144 + a.val * 8192 + md.code * 256 + f.code)
  | .icvtf d a f => some (0x2880001c + d.val * 262144 + a.val * 8192 + f.code)
  | .ucvtf d a f => some (0x28800020 + d.val * 262144 + a.val * 8192 + f.code)
  | .fmadd d a b c f => some (0x29000000 + d.val * 262144 + a.val * 8192 + b.val * 256 + c.val * 8 + f.code)
  | .fmsub d a b c f => some (0x29000002 + d.val * 262144 + a.val * 8192 + b.val * 256 + c.val * 8 + f.code)
  | .fnmadd d a b c f => some (0x29000004 + d.val * 262144 + a.val * 8192 + b.val * 256 + c.val * 8 + f.code)
  | .fnmsub d a b c f => some (0x29000006 + d.val * 262144 + a.val * 8192 + b.val * 256 + c.val * 8 + f.code)
  | .beq a b o => some (0x8000000 + a.val * 262144 + b.val * 8192 + o.toNat)
  | .bne a b o => some (0x8800000 + a.val * 262144 + b.val * 8192 + o.toNat)
  | .blt a b o => some (0x9000000 + a.val * 262144 + b.val * 8192 + o.toNat)
  | .bge a b o => some (0x9800000 + a.val * 262144 + b.val * 8192 + o.toNat)
  | .bltu a b o => some (0xa000000 + a.val * 262144 + b.val * 8192 + o.toNat)
  | .bgeu a b o => some (0xa800000 + a.val * 262144 + b.val * 8192 + o.toNat)
  | .bmany a o => some (0xc000000 + a.val * 262144 + o.toNat)
  | .bmnone a o => some (0xc002000 + a.val * 262144 + o.toNat)
  | .bmall a o => some (0xc004000 + a.val * 262144 + o.toNat)
  | .bmnall a o => some (0xc006000 + a.val * 262144 + o.toNat)
  | .jal d o => some (0xb000000 + d.val * 262144 + o.toNat)
  | .jalr d a i => some (0xb800000 + d.val * 262144 + a.val * 8192 + i.toNat)
  | .crr d i => some (0xd000000 + d.val * 262144 + i.toNat)
  | .crw a i => some (0xd800000 + a.val * 8192 + i.toNat)
  | .crs d a i => some (0xe000000 + d.val * 262144 + a.val * 8192 + i.toNat)
  | .crc d a i => some (0xe001000 + d.val * 262144 + a.val * 8192 + i.toNat)
  | .exit => some (0xc800000)
  | .scall c => some (0xc800001 + c.val * 256)
  | .brk => some (0xc800002)
  | .hret => some (0xc800003)
  | .sret => some (0xc800004)
  | .ldB d a i => some (0x800000 + d.val * 262144 + a.val * 8192 + i.toNat)
  | .ldBu d a i => some (0x1000000 + d.val * 262144 + a.val * 8192 + i.toNat)
  | .ldH d a i => some (0x1800000 + d.val * 262144 + a.val * 8192 + i.toNat)
  | .ldHu d a i => some (0x2000000 + d.val * 262144 + a.val * 8192 + i.toNat)
  | .ldW d a i => some (0x2800000 + d.val * 262144 + a.val * 8192 + i.toNat)
  | .ldWu d a i => some (0x3000000 + d.val * 262144 + a.val * 8192 + i.toNat)
  | .ldD d a i => some (0x3800000 + d.val * 262144 + a.val * 8192 + i.toNat)
  | .stB s a i => some (0x4000000 + s.val * 262144 + a.val * 8192 + i.toNat)
  | .stH s a i => some (0x4800000 + s.val * 262144 + a.val * 8192 + i.toNat)
  | .stW s a i => some (0x5000000 + s.val * 262144 + a.val * 8192 + i.toNat)
  | .stD s a i => some (0x5800000 + s.val * 262144 + a.val * 8192 + i.toNat)
  | .ldV d a i => some (0x6000000 + d.val * 262144 + a.val * 8192 + i.toNat)
  | .stV s a i => some (0x6800000 + s.val * 262144 + a.val * 8192 + i.toNat)
  | .vgath d a b mk => some (0x7000000 + d.val * 262144 + a.val * 8192 + b.val * 256 + mk.val)
  | .vscat s a b mk => some (0x7000008 + s.val * 262144 + a.val * 8192 + b.val * 256 + mk.val)
  | .ldfe t n r e => some (0x7800000 + t.val * 262144 + n.val * 8192 + r.toNat * 64 + e.code * 8)
  | .ldff t n r e => some (0x7800001 + t.val * 262144 + n.val * 8192 + r.toNat * 64 + e.code * 8)
  | .stfe t n r e => some (0x7800002 + t.val * 262144 + n.val * 8192 + r.toNat * 128 + e.code * 8)
  | .stf t n r e => some (0x7800003 + t.val * 262144 + n.val * 8192 + r.toNat * 128 + e.code * 8)
  | .ste t n r e => some (0x7800004 + t.val * 262144 + n.val * 8192 + r.toNat * 128 + e.code * 8)
  | .ldBuAcq t n r e => some (0xe800040 + t.val * 262144 + n.val * 8192 + r.toNat * 128 + e.code * 8)
  | .ldHuAcq t n r e => some (0xe800041 + t.val * 262144 + n.val * 8192 + r.toNat * 128 + e.code * 8)
  | .ldWuAcq t n r e => some (0xe800042 + t.val * 262144 + n.val * 8192 + r.toNat * 128 + e.code * 8)
  | .ldDAcq t n r e => some (0xe800043 + t.val * 262144 + n.val * 8192 + r.toNat * 128 + e.code * 8)
  | .stBRel t n r e => some (0xe800084 + t.val * 262144 + n.val * 8192 + r.toNat * 64 + e.code * 8)
  | .stHRel t n r e => some (0xe800085 + t.val * 262144 + n.val * 8192 + r.toNat * 64 + e.code * 8)
  | .stWRel t n r e => some (0xe800086 + t.val * 262144 + n.val * 8192 + r.toNat * 64 + e.code * 8)
  | .stDRel t n r e => some (0xe800087 + t.val * 262144 + n.val * 8192 + r.toNat * 64 + e.code * 8)
  | .amoAdd t n s r wd => some (0xf000000 + t.val * 262144 + n.val * 8192 + s.val * 256 + r.code * 64 + wd.code * 8)
  | .amoAnd t n s r wd => some (0xf000001 + t.val * 262144 + n.val * 8192 + s.val * 256 + r.code * 64 + wd.code * 8)
  | .amoOr t n s r wd => some (0xf000002 + t.val * 262144 + n.val * 8192 + s.val * 256 + r.code * 64 + wd.code * 8)
  | .amoXor t n s r wd => some (0xf000003 + t.val * 262144 + n.val * 8192 + s.val * 256 + r.code * 64 + wd.code * 8)
  | .amoMax t n s r wd => some (0xf000004 + t.val * 262144 + n.val * 8192 + s.val * 256 + r.code * 64 + wd.code * 8)
  | .amoMin t n s r wd => some (0xf000005 + t.val * 262144 + n.val * 8192 + s.val * 256 + r.code * 64 + wd.code * 8)
  | .amoSwap t n s r wd => some (0xf000006 + t.val * 262144 + n.val * 8192 + s.val * 256 + r.code * 64 + wd.code * 8)
  | .amoFadd t n s r wd => some (0xf000007 + t.val * 262144 + n.val * 8192 + s.val * 256 + r.code * 64 + wd.code * 8)
  | .amoMaxu t n s r wd => some (0xf000010 + t.val * 262144 + n.val * 8192 + s.val * 256 + r.code * 64 + wd.code * 8)
  | .amoMinu t n s r wd => some (0xf000011 + t.val * 262144 + n.val * 8192 + s.val * 256 + r.code * 64 + wd.code * 8)
  | .amoFmax t n s r wd => some (0xf000012 + t.val * 262144 + n.val * 8192 + s.val * 256 + r.code * 64 + wd.code * 8)
  | .amoFmin t n s r wd => some (0xf000013 + t.val * 262144 + n.val * 8192 + s.val * 256 + r.code * 64 + wd.code * 8)
  | .lres t n r wd => some (0xf800000 + t.val * 262144 + n.val * 8192 + r.toNat * 64 + wd.code * 8)
  | .scnd t n s r wd => some (0xf800001 + t.val * 262144 + n.val * 8192 + s.val * 256 + r.toNat * 128 + wd.code * 8)
  | .cas t n s r wd => some (0xf800002 + t.val * 262144 + n.val * 8192 + s.val * 256 + r.code * 64 + wd.code * 8)
  | .red op wd n s r e => some (0x10000000 + op.code * 262144 + wd.code * 4194304 + n.val * 8192 + s.val * 256 + r.toNat * 128 + e.code * 8)
  | .redo t n s => some (0x10000001 + t.val * 262144 + n.val * 8192 + s.val * 256)
  | .ordset t n s => some (0x10000002 + t.val * 262144 + n.val * 8192 + s.val * 256)
  | .fence r e => some (0x10800000 + r.code * 64 + e.code * 8)
  | .cpub n s e => some (0x11000000 + n.val * 8192 + s.val * 256 + e.code * 8)
  | .barArr b s e => some (0x11800000 + b.val * 262144 + s.val * 256 + e.code * 8)
  | .barWt b e => some (0x11800001 + b.val * 262144 + e.code * 8)
  | .bar b s e => some (0x11800002 + b.val * 262144 + s.val * 256 + e.code * 8)
  | .mon d a => some (0x12000000 + d.val * 262144 + a.val * 8192)
  | .monx => some (0x12000001)
  | .wait d => some (0x12000002 + d.val * 262144)
  | .fill a b => some (0x12800000 + a.val * 8192 + b.val * 256)
  | .openReg r => some (0x12800001 + r.num * 262144 + r.cls * 256)
  | .msend a b => some (0x13000000 + a.val * 8192 + b.val * 256)
  | .mrecv d a b => some (0x13000001 + d.val * 262144 + a.val * 8192 + b.val * 256)
  | .mpoll d a b => some (0x13000002 + d.val * 262144 + a.val * 8192 + b.val * 256)
  | .spawn d a b => some (0x13800000 + d.val * 262144 + a.val * 8192 + b.val * 256)
  | .mig a => some (0x13800001 + a.val * 8192)
  | .gang d a => some (0x13800002 + d.val * 262144 + a.val * 8192)
  | .split => some (0x13800003)
  | .cfgld d a => some (0x17800000 + d.val * 262144 + a.val * 8192)
  | .lnch d a => some (0x17800001 + d.val * 262144 + a.val * 8192)
  | .snap d => some (0x14000000 + d.val * 262144)
  | .snend => some (0x14000001)
  | .txb d => some (0x14000002 + d.val * 262144)
  | .txc d => some (0x14000003 + d.val * 262144)
  | .txa => some (0x14000004)
  | .mma d a b => some (0x14800000 + d.val * 262144 + a.val * 8192 + b.val * 256)
  | .gmma d a b => some (0x14800001 + d.val * 262144 + a.val * 8192 + b.val * 256)
  | .mmas d a b => some (0x14800002 + d.val * 262144 + a.val * 8192 + b.val * 256)
  | .mzero d => some (0x14800004 + d.val * 262144)
  | .mdrain d a b => some (0x15000000 + d.val * 262144 + a.val * 8192 + b.val * 256)
  | .mdrainZ d a b => some (0x15000001 + d.val * 262144 + a.val * 8192 + b.val * 256)
  | .mdrainRel d a b => some (0x15000002 + d.val * 262144 + a.val * 8192 + b.val * 256)
  | .mvaToVector d a b => some (0x15000008 + d.val * 262144 + a.val * 8192 + b.val * 256)
  | .mvaToAccumulator d a b => some (0x15000009 + d.val * 262144 + a.val * 8192 + b.val * 256)
  | .mwait d => some (0x15000010 + d.val * 262144)
  | .mwaitRel d => some (0x15000011 + d.val * 262144)
  | .cpy d a b => some (0x15800000 + d.val * 262144 + a.val * 8192 + b.val * 256)
  | .cpy2 d a b => some (0x15800001 + d.val * 262144 + a.val * 8192 + b.val * 256)
  | .gath d a b => some (0x15800002 + d.val * 262144 + a.val * 8192 + b.val * 256)
  | .scat d a b => some (0x15800003 + d.val * 262144 + a.val * 8192 + b.val * 256)
  | .wsld d a b => some (0x15800004 + d.val * 262144 + a.val * 8192 + b.val * 256)
  | .cwait d => some (0x15800008 + d.val * 262144)
  | .gres => some (0x15800009)
  | .gcan => some (0x1580000a)
  | .swset a b => some (0x16000000 + a.val * 8192 + b.val * 256)
  | .swwait d a b => some (0x16000001 + d.val * 262144 + a.val * 8192 + b.val * 256)
  | .serve d a n f => some (0x16800000 + d.val * 262144 + a.val * 8192 + n.val * 1024 + f.toNat)
  | .servn d a n f => some (0x17000000 + d.val * 262144 + a.val * 8192 + n.val * 1024 + f.toNat)
  | .vbcst d a mk => some (0x27000000 + d.val * 262144 + a.val * 8192 + mk.val * 32)
  | .vins d a b => some (0x27000001 + d.val * 262144 + a.val * 8192 + b.val * 256)
  | .vext d a b => some (0x27000002 + d.val * 262144 + a.val * 8192 + b.val * 256)
  | .vexts d a b => some (0x27000003 + d.val * 262144 + a.val * 8192 + b.val * 256)
  | .mtm d a => some (0x27000004 + d.val * 262144 + a.val * 8192)
  | .mfm d a => some (0x27000005 + d.val * 262144 + a.val * 8192)
  | .mpopc d a => some (0x27000006 + d.val * 262144 + a.val * 8192)
  | .mffs d a => some (0x27000007 + d.val * 262144 + a.val * 8192)
  | .vfaddS d a b mk => some (0x30000000 + d.val * 262144 + a.val * 8192 + b.val * 256 + mk.val * 32)
  | .vfsubS d a b mk => some (0x30000001 + d.val * 262144 + a.val * 8192 + b.val * 256 + mk.val * 32)
  | .vfmulS d a b mk => some (0x30000002 + d.val * 262144 + a.val * 8192 + b.val * 256 + mk.val * 32)
  | .vfdivS d a b mk => some (0x30000003 + d.val * 262144 + a.val * 8192 + b.val * 256 + mk.val * 32)
  | .vfsqrtS d a mk => some (0x30000004 + d.val * 262144 + a.val * 8192 + mk.val * 32)
  | .vfminS d a b mk => some (0x30000005 + d.val * 262144 + a.val * 8192 + b.val * 256 + mk.val * 32)
  | .vfmaxS d a b mk => some (0x30000006 + d.val * 262144 + a.val * 8192 + b.val * 256 + mk.val * 32)
  | .vfcsignS d a b mk => some (0x30000007 + d.val * 262144 + a.val * 8192 + b.val * 256 + mk.val * 32)
  | .vfnsignS d a b mk => some (0x30000008 + d.val * 262144 + a.val * 8192 + b.val * 256 + mk.val * 32)
  | .vfxsignS d a b mk => some (0x30000009 + d.val * 262144 + a.val * 8192 + b.val * 256 + mk.val * 32)
  | .vadd d a b mk => some (0x30800000 + d.val * 262144 + a.val * 8192 + b.val * 256 + mk.val * 32)
  | .vsub d a b mk => some (0x30800001 + d.val * 262144 + a.val * 8192 + b.val * 256 + mk.val * 32)
  | .vmul d a b mk => some (0x30800002 + d.val * 262144 + a.val * 8192 + b.val * 256 + mk.val * 32)
  | .vand d a b mk => some (0x30800003 + d.val * 262144 + a.val * 8192 + b.val * 256 + mk.val * 32)
  | .vor d a b mk => some (0x30800004 + d.val * 262144 + a.val * 8192 + b.val * 256 + mk.val * 32)
  | .vxor d a b mk => some (0x30800005 + d.val * 262144 + a.val * 8192 + b.val * 256 + mk.val * 32)
  | .vsll d a b mk => some (0x30800006 + d.val * 262144 + a.val * 8192 + b.val * 256 + mk.val * 32)
  | .vsrl d a b mk => some (0x30800007 + d.val * 262144 + a.val * 8192 + b.val * 256 + mk.val * 32)
  | .vsra d a b mk => some (0x30800008 + d.val * 262144 + a.val * 8192 + b.val * 256 + mk.val * 32)
  | .vmin d a b mk => some (0x30800009 + d.val * 262144 + a.val * 8192 + b.val * 256 + mk.val * 32)
  | .vmax d a b mk => some (0x3080000a + d.val * 262144 + a.val * 8192 + b.val * 256 + mk.val * 32)
  | .vminu d a b mk => some (0x3080000b + d.val * 262144 + a.val * 8192 + b.val * 256 + mk.val * 32)
  | .vmaxu d a b mk => some (0x3080000c + d.val * 262144 + a.val * 8192 + b.val * 256 + mk.val * 32)
  | .vadds d a b mk => some (0x3080000d + d.val * 262144 + a.val * 8192 + b.val * 256 + mk.val * 32)
  | .vsubs d a b mk => some (0x3080000e + d.val * 262144 + a.val * 8192 + b.val * 256 + mk.val * 32)
  | .vfmaddS d a b c mk => some (0x33800000 + d.val * 262144 + a.val * 8192 + b.val * 256 + c.val * 8 + mk.val)
  | .vfeqS d a b mk => some (0x31000000 + d.val * 262144 + a.val * 8192 + b.val * 256 + mk.val * 32)
  | .vfltS d a b mk => some (0x31000001 + d.val * 262144 + a.val * 8192 + b.val * 256 + mk.val * 32)
  | .vfleS d a b mk => some (0x31000002 + d.val * 262144 + a.val * 8192 + b.val * 256 + mk.val * 32)
  | .veq d a b mk => some (0x31000003 + d.val * 262144 + a.val * 8192 + b.val * 256 + mk.val * 32)
  | .vne d a b mk => some (0x31000004 + d.val * 262144 + a.val * 8192 + b.val * 256 + mk.val * 32)
  | .vlt d a b mk => some (0x31000005 + d.val * 262144 + a.val * 8192 + b.val * 256 + mk.val * 32)
  | .vle d a b mk => some (0x31000006 + d.val * 262144 + a.val * 8192 + b.val * 256 + mk.val * 32)
  | .vltu d a b mk => some (0x31000007 + d.val * 262144 + a.val * 8192 + b.val * 256 + mk.val * 32)
  | .vleu d a b mk => some (0x31000008 + d.val * 262144 + a.val * 8192 + b.val * 256 + mk.val * 32)
  | .mand d a b => some (0x31800000 + d.val * 262144 + a.val * 8192 + b.val * 256)
  | .mor d a b => some (0x31800001 + d.val * 262144 + a.val * 8192 + b.val * 256)
  | .mxor d a b => some (0x31800002 + d.val * 262144 + a.val * 8192 + b.val * 256)
  | .mandn d a b => some (0x31800003 + d.val * 262144 + a.val * 8192 + b.val * 256)
  | .mnot d a => some (0x31800004 + d.val * 262144 + a.val * 8192)
  | .vcvtWS d a mk => some (0x32000000 + d.val * 262144 + a.val * 8192 + mk.val * 32)
  | .vcvtWuS d a mk => some (0x32000001 + d.val * 262144 + a.val * 8192 + mk.val * 32)
  | .vcvtSW d a mk => some (0x32000002 + d.val * 262144 + a.val * 8192 + mk.val * 32)
  | .vcvtSWu d a mk => some (0x32000003 + d.val * 262144 + a.val * 8192 + mk.val * 32)
  | .vcvtHS d a b => some (0x32000004 + d.val * 262144 + a.val * 8192 + b.val * 256)
  | .vcvtBfS d a b => some (0x32000005 + d.val * 262144 + a.val * 8192 + b.val * 256)
  | .vcvtSHLo d a mk => some (0x32000006 + d.val * 262144 + a.val * 8192 + mk.val * 32)
  | .vcvtSHHi d a mk => some (0x32000007 + d.val * 262144 + a.val * 8192 + mk.val * 32)
  | .vcvtSBfLo d a mk => some (0x32000008 + d.val * 262144 + a.val * 8192 + mk.val * 32)
  | .vcvtSBfHi d a mk => some (0x32000009 + d.val * 262144 + a.val * 8192 + mk.val * 32)
  | .vquantTap8P0 d a b => some (0x3200000a + d.val * 262144 + a.val * 8192 + b.val * 256)
  | .vquantTap8P1 d a b => some (0x3200000b + d.val * 262144 + a.val * 8192 + b.val * 256)
  | .vquantTap6P0 d a b => some (0x3200000c + d.val * 262144 + a.val * 8192 + b.val * 256)
  | .vquantTap6P1 d a b => some (0x3200000d + d.val * 262144 + a.val * 8192 + b.val * 256)
  | .vdeqTap8Q0 d a b mk => some (0x3200000e + d.val * 262144 + a.val * 8192 + b.val * 256 + mk.val * 32)
  | .vdeqTap8Q1 d a b mk => some (0x3200000f + d.val * 262144 + a.val * 8192 + b.val * 256 + mk.val * 32)
  | .vdeqTap8Q2 d a b mk => some (0x32000010 + d.val * 262144 + a.val * 8192 + b.val * 256 + mk.val * 32)
  | .vdeqTap8Q3 d a b mk => some (0x32000011 + d.val * 262144 + a.val * 8192 + b.val * 256 + mk.val * 32)
  | .vdeqTap6Q0 d a b mk => some (0x32000012 + d.val * 262144 + a.val * 8192 + b.val * 256 + mk.val * 32)
  | .vdeqTap6Q1 d a b mk => some (0x32000013 + d.val * 262144 + a.val * 8192 + b.val * 256 + mk.val * 32)
  | .vdeqTap6Q2 d a b mk => some (0x32000014 + d.val * 262144 + a.val * 8192 + b.val * 256 + mk.val * 32)
  | .vdeqTap6Q3 d a b mk => some (0x32000015 + d.val * 262144 + a.val * 8192 + b.val * 256 + mk.val * 32)
  | .vdeqTap6Q4 d a b mk => some (0x32000016 + d.val * 262144 + a.val * 8192 + b.val * 256 + mk.val * 32)
  | .vcnzB d a mk => some (0x32000017 + d.val * 262144 + a.val * 8192 + mk.val * 32)
  | .vcnzTap6 d a mk => some (0x32000018 + d.val * 262144 + a.val * 8192 + mk.val * 32)
  | .vcnzH d a mk => some (0x32000019 + d.val * 262144 + a.val * 8192 + mk.val * 32)
  | .vcnzS d a mk => some (0x3200001a + d.val * 262144 + a.val * 8192 + mk.val * 32)
  | .vcnzW d a mk => some (0x3200001b + d.val * 262144 + a.val * 8192 + mk.val * 32)
  | .vredFaddS d a mk => some (0x32800000 + d.val * 262144 + a.val * 8192 + mk.val * 32)
  | .vredFminS d a mk => some (0x32800001 + d.val * 262144 + a.val * 8192 + mk.val * 32)
  | .vredFmaxS d a mk => some (0x32800002 + d.val * 262144 + a.val * 8192 + mk.val * 32)
  | .vredAdd d a mk => some (0x32800003 + d.val * 262144 + a.val * 8192 + mk.val * 32)
  | .vredMin d a mk => some (0x32800004 + d.val * 262144 + a.val * 8192 + mk.val * 32)
  | .vredMax d a mk => some (0x32800005 + d.val * 262144 + a.val * 8192 + mk.val * 32)
  | .vredMinu d a mk => some (0x32800006 + d.val * 262144 + a.val * 8192 + mk.val * 32)
  | .vredMaxu d a mk => some (0x32800007 + d.val * 262144 + a.val * 8192 + mk.val * 32)
  | .vredAnd d a mk => some (0x32800008 + d.val * 262144 + a.val * 8192 + mk.val * 32)
  | .vredOr d a mk => some (0x32800009 + d.val * 262144 + a.val * 8192 + mk.val * 32)
  | .vredXor d a mk => some (0x3280000a + d.val * 262144 + a.val * 8192 + mk.val * 32)
  | .vperm d a b mk => some (0x32800010 + d.val * 262144 + a.val * 8192 + b.val * 256 + mk.val * 32)
  | .vrot d a b mk => some (0x32800011 + d.val * 262144 + a.val * 8192 + b.val * 256 + mk.val * 32)
  | .vmerge d a b mk => some (0x32800012 + d.val * 262144 + a.val * 8192 + b.val * 256 + mk.val * 32)
  | .vfrecipS d a mk => some (0x33000000 + d.val * 262144 + a.val * 8192 + mk.val * 32)
  | .vfrsqrtS d a mk => some (0x33000001 + d.val * 262144 + a.val * 8192 + mk.val * 32)
  | .vfexp2S d a mk => some (0x33000002 + d.val * 262144 + a.val * 8192 + mk.val * 32)
  | .vflog2S d a mk => some (0x33000003 + d.val * 262144 + a.val * 8192 + mk.val * 32)
  | .longOperationCompletion _ => none
  | .fillArrival _ => none
  | .openWaitLimit _ => none
  | .interruptTaken _ => none
  | .gangFollowerIssue _ => none
  | .threadRetirement _ => none
  | .slotScrub _ => none
  | .contextArrival _ => none
  | .contextInstallation _ => none
  | .spillMove _ _ => none
  | .contextReply _ _ => none
  | .refusalResend _ => none
  | .migrationWaitLimit _ _ => none
  | .contextSwitchScrub _ _ => none
  | .timeTick _ => none
  | .clusterCacheAccess _ => none
  | .homeLoad _ => none
  | .homeStore _ => none
  | .storeAcknowledgement _ => none
  | .atomicUnitOperation _ => none
  | .reductionApply _ => none
  | .ordsetDeclaration _ => none
  | .sliceOrderedMerge _ => none
  | .reservationExpiry _ _ => none
  | .instructionLineFill _ _ => none
  | .pageWalkCompletion _ _ => none
  | .remoteRequestArrival _ => none
  | .remotePortAccess _ => none
  | .taggedOperationPerformed _ _ => none
  | .taggedReply _ _ _ _ _ => none
  | .taggedWaitLimit _ _ => none
  | .taggedBudgetExpiry _ _ => none
  | .taggedCancelArrival _ _ => none
  | .monitorArmAcknowledgement _ _ _ _ => none
  | .monitorLatch _ _ _ _ => none
  | .waitTimeout _ _ => none
  | .barrierArrival _ _ _ _ => none
  | .barrierPhaseCompletion _ => none
  | .barrierRelease _ _ _ => none
  | .barrierWaitLimit _ _ => none
  | .messageArrival _ => none
  | .messageReply _ _ => none
  | .mailboxNoticeArrival _ _ => none
  | .mailboxWaitLimit _ _ => none
  | .registryRequest _ _ => none
  | .registryAnswer _ _ _ _ _ => none
  | .floorSample _ => none
  | .floorApply _ _ => none
  | .collectorSweep _ => none
  | .transactionPrepare _ _ _ => none
  | .transactionVotesComplete _ _ => none
  | .transactionCommitApply _ _ _ _ => none
  | .publishMark _ _ => none
  | .cpubTimeBroadcast _ _ _ _ => none
  | .shootdownCompletion _ _ => none
  | .copyCommandStart _ => none
  | .copyBlockRead _ => none
  | .copyBlockWrite _ _ _ => none
  | .copyBlockAcknowledgement _ _ _ _ => none
  | .syncWordWaitLimit _ _ => none
  | .tileCommandStart _ => none
  | .tileCommandCompletion _ => none
  | .gmmaJoin _ => none
  | .accumulatorReleaseStep _ _ => none
  | .tileWaitLimit _ => none
  | .weightStoreRefresh _ => none
  | .drainArrival _ => none
  | .drainCompletion _ _ => none
  | .callArrival _ => none
  | .argumentPortAccept _ => none
  | .resultPortTake _ => none
  | .serverReply _ _ => none
  | .serverResult _ => none
  | .configurationLoad _ _ _ => none
  | .configurationLoadCompletion _ _ => none
  | .memoryPortAccess _ _ => none
  | .memoryPortReply _ _ _ _ _ _ => none
  | .portTranslationRefill _ _ _ => none
  | .counterChainEmit _ _ => none
  | .reductionUnitStep _ _ => none
  | .specialFunctionStep _ _ => none
  | .butterflyConversion _ => none
  | .markerPass _ _ => none
  | .cellPass _ _ => none
  | .cellAdd _ _ => none
  | .cellSub _ _ => none
  | .cellMul _ _ => none
  | .cellAnd _ _ => none
  | .cellOr _ _ => none
  | .cellXor _ _ => none
  | .cellShl _ _ => none
  | .cellShr _ _ => none
  | .cellSra _ _ => none
  | .cellMin _ _ => none
  | .cellMax _ _ => none
  | .cellSeq _ _ => none
  | .cellSlt _ _ => none
  | .cellSltu _ _ => none
  | .cellSel _ _ => none
  | .cellFaddS _ _ => none
  | .cellFmulS _ _ => none
  | .cellFmaS _ _ => none
  | .cellFmaxS _ _ => none
  | .cellFminS _ _ => none
  | .cellFltS _ _ => none
  | .cellCbr _ _ => none
  | .cellSteer _ _ => none
  | .cellCvtSW _ _ => none
  | .cellCvtWS _ _ => none
  | .cellFnc _ _ => none
  | .linkTokenArrival _ _ _ => none
  | .linkCreditReturn _ _ => none
  | .streamGraphStart _ => none
  | .phaseEnd _ => none
  | .graphSwap _ _ _ _ => none
  | .arbiterFreeze _ => none
  | .snapArrival _ _ _ => none
  | .queueDoorbell _ _ _ => none
  | .completionRingRelease _ _ _ => none
  | .lnchSubmission _ => none
  | .launchAdmission _ => none
  | .placementRequest _ => none
  | .placementAnswer _ _ _ => none
  | .launchStart _ _ => none
  | .launchCompletion _ => none
  | .completionReport _ => none
  | .abort _ _ => none
  | .hcall _ _ _ => none
  | .inti _ _ _ => none
  | .preempt _ _ => none
  | .psave _ => none
  | .coreRecordWrite _ => none
  | .weightStoreSave _ => none
  | .rookRecordWrite _ => none
  | .saveHeaderWrite _ => none
  | .resume _ _ => none
  | .resumedThreadStart _ => none
  | .tlbiContext _ _ _ => none
  | .tlbiPage _ _ _ _ => none
  | .tlbiAll _ _ _ => none
  | .mboxWrite _ _ => none
  | .vpoolWrite _ _ => none
  | .hostWrite _ _ _ => none
  | .hostRead _ _ _ => none
  | .softError _ => none
  | .flitReplay _ => none
  | .shadowBundle _ => none
  | .checkpoint _ => none
  | .mirroredRollback _ _ _ => none
  | .releaseRegion _ => none
  | .retireCluster _ => none
  | .retirementDone _ => none
  | .lpddr6Refresh _ _ => none
  | .pcycBeacon _ _ => none
  | .coldReset _ _ => none
  | .podIdentityTimeout _ => none
  | .dieRelease _ => none
  | .status _ => none
  | .loadfw _ _ => none
  | .reset _ _ => none
  | .attest _ _ => none
  | .telem _ => none
  | .setlim _ _ => none
  | .setpod _ _ => none
  | .getrep _ => none
  | .unknownOpcode _ _ => none
  | .telemetryRefresh _ => none
  | .clockStepDown _ => none
  | .clockStepUp _ => none
  | .thermalLimit _ => none
  | .podClockStepChange _ => none
  | .fillAcknowledgement _ _ => none
  | .commitAcknowledgement _ _ _ => none
  | .hostWriteAcknowledgement _ _ _ => none
  | .imageCacheInvalidation _ _ => none

/-- The word of an instruction with its P and H bits (R52). -/
def encode (b : Bundled) : Option Nat :=
  (encodeInstr b.instr).map fun x => x + b.hold.toNat * 1073741824 + b.pair.toNat * 2147483648

end Sys2Proof
end

