-- ==== Sys2Proof/Config.lean ====
section
/-! DEFINITION. What one chip of the family fixes, and the free values: constants with no body, about which nothing can be proved. -/

namespace Sys2Proof

/-- A value the manual leaves open, fresh for every number (log 2). -/
opaque Config.freeNat : Nat → Nat

/-- Doubleword 3 of an error-log entry of type 4: how the nested cause and cr.stval share it is not stated (R393, log 12). -/
opaque Config.nestedTrapWord : Nat → Word → Word

/-- Whether refresh closes an LPDDR6 group now, where R257 allows it, and for how many cycles (log 13). -/
opaque Config.refreshCloses : Nat → Bool
/-- The length of a closing; the model bounds it by 238 cycles (R257, log 13). -/
opaque Config.refreshLength : Nat → Nat

/-- The cycles of steps 4 and 5 of a retirement; the model bounds them by 65,536 (R401, log 14). -/
opaque Config.retireCycles : Nat → Nat

/-- SHA-384 (R403): a function the manual names and does not define (log 15). -/
opaque Config.sha384 : List Byte → List Byte
/-- ECDSA P-384 verification: message, public key, signature (R403, log 15). -/
opaque Config.ecdsaVerify : List Byte → List Byte → List Byte → Bool
/-- The ECDSA P-384 signature that a module's private key makes: the key's owner and the message (R407, log 15). -/
opaque Config.ecdsaSign : Nat → List Byte → List Byte
/-- The fused digest of the root public key (R402, log 15). -/
opaque Config.rootDigest : List Byte
/-- The fuse configuration that an attestation report shows (R408, log 15). -/
opaque Config.fuses : List Byte
/-- The certificate of a module's attestation key (R408, log 15). -/
opaque Config.certificate : Nat → List Byte

/-- What a package's Yamus measures at its n-th refresh: module power over 1 ms, per-die power, temperatures (R409, log 16). -/
opaque Config.measured : Nat → Nat → List Byte
/-- The 1 s mean of module power in watts at a package's n-th refresh (R409, R410, log 16). -/
opaque Config.meanPower : Nat → Nat → Nat
/-- Whether a temperature is at its limit at a package's n-th refresh (R410, log 16). -/
opaque Config.tooHot : Nat → Nat → Bool

end Sys2Proof
end

