-- ==== Sys2Proof/Machine/State.lean ====
section
/-! DEFINITION. The whole state of the pod as plain data (R8 and the state rules of every chapter), what can stop a step, and the state at die release. -/

namespace Sys2Proof.Machine

open Sys2Proof

/-! ### Registers -/

/-- Register tags (R10, R11). -/
inductive Tag where
  | void | full | pending | opened
  deriving DecidableEq, Repr

/-- A register of w bits with its tag and poison mark (R8, R11, R219). -/
structure Reg (w : Nat) where
  val : BitVec w
  tag : Tag
  mark : Option Mark
  deriving DecidableEq, Repr

/-- The g, v and m registers of a slot (R8). g0 and m0 are fixed by the accessors of Ops (R9). -/
structure Regs where
  g : Vector (Reg 64) 32
  v : Vector (Reg 512) 16
  m : Vector (Reg 16) 8
  deriving DecidableEq, Repr

/-- Roles in a gang (R19). -/
inductive GangRole where
  | independent | leader | follower
  deriving DecidableEq, Repr

/-- cr.status (R19). -/
structure Status where
  sup : Bool
  ie : Bool
  role : GangRole
  gidx : Fin 4
  tx : Bool
  mir : Bool
  intrap : Bool
  deriving DecidableEq, Repr

/-- cr.fcsr (R20). -/
structure Fcsr where
  rm : RMode
  nv : Bool
  dz : Bool
  of : Bool
  uf : Bool
  nx : Bool
  ftz : Bool
  deriving DecidableEq, Repr

/-! ### The issue latch -/

/-- How the bundle in the latch stands. -/
inductive CurStatus where
  /-- its words take effect -/
  | run
  /-- it does not issue in this cycle and is tried again (R10, R12, R13, R22) -/
  | parked
  /-- it raised a trap: neither word takes effect (R25) -/
  | trapped
  /-- it issued and its thread waits for an event -/
  | blocked
  deriving DecidableEq, Repr

/-- The bundle being executed: whose it is, its words, and the registers as they stood before either word wrote (R25, R62). -/
structure Cur where
  core : CoreKey
  slot : Nat
  pc : Word
  nextPc : Word
  pair : Bool
  hold : Bool
  word0 : BitVec 32
  word1 : BitVec 32
  /-- 0 while word0 executes, 1 while word1 does -/
  word : Nat
  /-- the instruction that executes, and the A word of its pair that has yet to -/
  instr : Instr
  aword : Option Instr
  regs : Regs
  fcsr : Fcsr
  /-- 0 at issue; above 0 when a wait after issue has ended -/
  stage : Nat
  /-- cycle of the first attempt, from which wait limits run (R119) -/
  start : Nat
  status : CurStatus
  deriving DecidableEq, Repr

/-! ### Threads -/

/-- What a slot holds (R242, R246, R329, R351). -/
inductive Occ where
  | free
  /-- kept for a thread that an admission or an installation will start -/
  | reserved
  | thread
  /-- exited; its operations drain (R97) -/
  | draining
  | scrubbing
  deriving DecidableEq, Repr

/-- What kind of operation is outstanding (R26, R106, R209). -/
inductive OutKind where
  /-- a long operation with a register result -/
  | long
  /-- a long operation that does not leave the core (R28) -/
  | localLong
  /-- an atomic, reservation or compare with a register result -/
  | atomic
  | globalStore
  | reduction
  | remoteStore
  | fill
  | call
  | tileCommand
  | copyCommand
  deriving DecidableEq, Repr

/-- An outstanding operation of a thread (R26), with the bytes it touches for R106. -/
structure Outstanding where
  id : Nat
  kind : OutKind
  pa : PhysAddr
  size : Nat
  deriving DecidableEq, Repr

/-- Why a thread waits after its instruction has issued (R229, R240). -/
inductive BlockKind where
  | wait (gd : Fin 32)
  | tagLocal (entry : Nat) (gd : Fin 32)
  | tagRemote (gd : Fin 32)
  /-- step 1 of a call: earlier stores and atomics (R209) -/
  | stores
  | serve
  /-- its lines, and its publish time so far (R128, R277) -/
  | cpub (lines : List PhysAddr) (time : Nat)
  | txc (gd : Fin 32)
  | registry (gd : Fin 32)
  | monitorArm (gd : Fin 32) (monitor : Nat)
  | message (r : RemoteReq) (refused : Bool)
  | context (c : CtxMsg) (gd : Fin 32) (refused : Bool)
  | barWait (b : BarRef) (phase : Nat)
  /-- mrecv -/
  | receive
  /-- the release step of mwait.rel -/
  | engine
  | syncWait (off : Nat) (gen : Nat) (gd : Fin 32)
  | release
  | shootdown
  | saved
  deriving DecidableEq, Repr

/-- A wait after issue: its number, its first cycle, and the latch to take up again with its instruction and the A word that has yet to take effect. -/
structure Block where
  kind : BlockKind
  id : Nat
  since : Nat
  cur : Cur
  /-- the wait limit runs from this cycle (R119, R140, R143) -/
  first : Nat
  deriving DecidableEq, Repr

/-- A pending interrupt: code and information (R228). -/
structure PendInt where
  code : Nat
  info : Word
  deriving DecidableEq, Repr

/-- Where a monitor watches (R134). -/
inductive MonAt where
  | mem (block : PhysAddr)
  | spad (core : CoreKey) (block : Nat)
  deriving DecidableEq, Repr

/-- One monitor of a thread (R134). -/
structure Monitor where
  at_ : MonAt
  va : Word
  /-- first cycle whose writes latch it -/
  from_ : Nat
  latched : Bool
  deriving DecidableEq, Repr

/-- One buffered sector of a transaction (R151, R368). -/
structure TxSector where
  sector : PhysAddr
  home : ClusterKey
  code : Bool
  /-- the pages through which its stores went (R368) -/
  vas : List Word
  data : VWord
  mask : BitVec 64
  deriving DecidableEq, Repr

/-- What a prepared home answered (R153, R369). -/
structure TxVote where
  home : ClusterKey
  abort : Bool
  rts : Nat
  wts : Nat
  locked : List PhysAddr
  deriving DecidableEq, Repr

/-- An open transaction of a thread (R150, R151). -/
structure Tx where
  time : Nat
  savedSnap : Nat
  sectors : List TxSector
  failed : Bool
  /-- restored after a pre-emption: its further stores are discarded (R352) -/
  discards : Bool
  votes : List TxVote
  waiting : Nat
  commit : Nat
  deriving DecidableEq, Repr

/-- The thread's last arrival at a barrier instance (R132). -/
structure BarArrival where
  bar : BarRef
  phase : Nat
  /-- the wait of a `bar` was interrupted: the arrival stands for its second run (R229) -/
  stands : Bool
  deriving DecidableEq, Repr

/-- A wait before issue in `mwait` or `mva` (R193): its accumulator, and the first cycle since which only joins hold it. -/
structure ParkLimit where
  acc : Fin 4
  since : Option Nat
  deriving DecidableEq, Repr

/-- A translation: the leaf of a successful walk (R343, R346). -/
structure TlbEntry where
  ctx : Nat
  big : Bool
  vpn : Nat
  pa : PhysAddr
  r : Bool
  w : Bool
  x : Bool
  u : Bool
  v : Bool
  code : Bool
  uncached : Bool
  home : ClusterKey
  hcore : CoreKey
  used : Nat
  deriving DecidableEq, Repr

/-- A thread slot (R8): a thread's registers, control registers and what it waits for. -/
structure Slot where
  occ : Occ
  gen : Nat
  idx : Nat
  launch : Nat
  ctx : Nat
  place : Option CoreKey
  pc : Word
  byBranch : Bool
  regs : Regs
  st : Status
  cause : BitVec 9
  epc : Word
  tval : Word
  tinf : Word
  tvec : Word
  tsave : Word
  mfmt : BitVec 3
  ascl : BitVec 18
  kval : BitVec 11
  mstat : BitVec 3
  fcsr : Fcsr
  wlim : BitVec 32
  mlim : BitVec 32
  snap : Nat
  snapThread : Bool
  scause : BitVec 9
  sepc : Word
  stval : Word
  stinf : Word
  svec : Word
  ssave : Word
  psup : Bool
  pie : Bool
  sdeleg : BitVec 12
  /-- first cycle in which the tempo lets the thread issue (R22) -/
  readyAt : Nat
  hold : Bool
  out : List Outstanding
  /-- cycle of the last end of an outstanding operation (R26) -/
  lastEnd : Nat
  /-- first cycle of a wait on an Open source, with cr.tinf of its limit's trap (R10, R233) -/
  openSince : Option (Nat × Word)
  parkLimit : Option ParkLimit
  block : Option Block
  ints : List PendInt
  /-- its thread has been accepted into this slot, where its interrupts go (R229) -/
  movedTo : Option ThreadRef
  monitors : Vector (Option Monitor) 4
  tx : Option Tx
  bars : List BarArrival
  drainRecs : List (Fin 4 × TrapVal)
  cancelled : Bool
  /-- first cycle in which a cwait may notice the copy command of the thread that ended last (R240) -/
  copyEnd : Nat
  /-- the launch is aborted: stop at the next bundle boundary (R334) -/
  stopping : Bool
  /-- gang: a leader's followers in order, a follower's leader (R212) -/
  gang : List ThreadRef
  /-- a follower's translations as its leader's bundle was judged with them (R235, log 32) -/
  judged : List TlbEntry
  /-- slot-scoped control registers with an uncorrectable error (R390) -/
  crDamage : List (BitVec 12)
  deriving DecidableEq, Repr

/-! ### Engines of a core -/

/-- The space of a range lock (R194). -/
inductive LockSpace where
  | global
  | spad (core : CoreKey)
  | weights
  deriving DecidableEq, Repr

/-- A range-lock entry (R194): bytes lo ≤ a < hi. -/
structure RangeLock where
  space : LockSpace
  lo : Nat
  hi : Nat
  write : Bool
  owner : Nat
  deriving DecidableEq, Repr

/-- Tile commands (R177). -/
inductive TileOp where
  | mma | gmma | mmas | mzero
  | mdrain (zero release : Bool) (fid : Nat) (arg : Word)
  | mvaWrite (row half : Nat) (val : VWord)
  | release
  deriving DecidableEq, Repr

/-- A queued or running tile command with what it sampled at issue (R181). -/
structure TileCmd where
  id : Nat
  thread : ThreadRef
  op : TileOp
  acc : Fin 4
  issue : Nat
  fmt : TileFmt
  kv : Nat
  aOff : Nat
  aScale : List Byte
  /-- a poisoned scale byte sampled at issue: its address and source (R220) -/
  bad : Option (Word × Nat)
  handle : Nat
  ctx : Nat
  sup : Bool
  launch : Nat
  /-- number of this gmma on its core (R189) -/
  join : Nat
  deriving DecidableEq, Repr

/-- The running tile command: the next unit cycle and when it falls (R187). -/
structure TileRun where
  cmd : TileCmd
  next : Nat
  at_ : Nat
  /-- the command whose FMT, kv, A and scale bytes are used: the leader's of a joint operation (R189) -/
  lead : TileCmd
  deriving DecidableEq, Repr

/-- The tile unit (R187, R189). -/
structure TileUnit where
  queue : List TileCmd
  run : Option TileRun
  lastEnd : Nat
  /-- gmma commands issued per launch -/
  joins : List (Nat × Nat)
  /-- drains streamed and not yet completed -/
  drains : List TileCmd
  deriving DecidableEq, Repr

/-- Copy commands (R196). -/
inductive CopyKind where
  | cpy | cpy2 | gath | scat | wsld
  deriving DecidableEq, Repr

/-- One piece that a copy command moves, from its read to its acknowledgement: len bytes from src to dst, its place for R202, the translation of a global destination, its bytes and poison, and how far it has come. -/
structure CopyBlock where
  num : Nat
  src : Word
  dst : Word
  len : Nat
  index : Nat
  to_ : Option TlbEntry
  data : VWord
  poison : Option Nat
  read : Bool
  sent : Bool
  /-- its read, or its write once read, is under way; false when a stop kept it from being performed (R203) -/
  asked : Bool
  deriving DecidableEq, Repr

/-- A copy command (R196–R203). -/
structure CopyCmd where
  id : Nat
  thread : ThreadRef
  kind : CopyKind
  /-- the command's word (R354) -/
  word : BitVec 32
  dst : Word
  /-- cpy2: the destination stride; wsld: 1 once its record has been checked (R199) -/
  dst2 : Word
  src : Word
  src2 : Word
  gc : Word
  ctx : Nat
  sup : Bool
  launch : Nat
  place : Option CoreKey
  /-- pieces read and not yet acknowledged -/
  blocks : List CopyBlock
  /-- bytes, or elements, whose reading has begun -/
  next : Nat
  /-- bytes that the engine may read now (R200) -/
  credit : Nat
  started : Bool
  /-- cycle of issue -/
  issue : Nat
  stopped : Option TrapVal
  /-- wsld: cycles by which refresh has delayed its writes, and the first cycle in which the weight store takes its next one (R260) -/
  slip : Nat
  writeAt : Nat
  deriving DecidableEq, Repr

/-- The copy engine: commands in issue order (R200). -/
structure CopyEngine where
  cmds : List CopyCmd
  /-- blocks that wait for the core's remote port: command, block, and whether it writes (R254) -/
  port : List (Nat × Nat × Bool)
  /-- commands of a thread that ended with a cause its cwait takes (R201) -/
  faults : List (ThreadRef × TrapVal)
  deriving DecidableEq, Repr

/-! ### Translation and caches -/

/-- A walk in progress (R347). -/
structure Walk where
  id : Nat
  ctx : Nat
  va : Word
  level : Nat
  table : PhysAddr
  /-- threads (core, slot) and copy engines (core, 16) that wait; rook ports (rook × 4 + port) that wait -/
  waits : List (CoreKey × Nat)
  ports : List Nat
  /-- cycle of the request -/
  since : Nat
  /-- its next read has taken its turn at a channel (R257) -/
  turn : Bool
  stale : Bool
  /-- the outcome of the walk, once its last entry has been read -/
  result : Option (Option TlbEntry)
  deriving DecidableEq, Repr

/-- A failed walk that the next access of a slot (16: the copy engine) takes (R344). -/
structure WalkFault where
  slot : Nat
  ctx : Nat
  vpn : Nat
  deriving DecidableEq, Repr

/-- A line of an instruction cache (R259). -/
structure ILine where
  line : PhysAddr
  rts : Nat
  data : List VWord
  used : Nat
  deriving DecidableEq, Repr

/-- A sector of a cluster-cache line (R256). -/
structure CSector where
  wts : Nat
  rts : Nat
  data : VWord
  deriving DecidableEq, Repr

/-- A line of a cluster cache (R256). -/
structure CLine where
  line : PhysAddr
  fetched : Bool
  used : Nat
  sectors : Vector (Option CSector) 4
  deriving DecidableEq, Repr

/-- A fill of the cluster cache on its way from a home: the cycle of its reply, its line, and the one sector of a load at its place or the whole line of a fetch (R109, R256). -/
structure CFill where
  at_ : Nat
  line : PhysAddr
  place : Option Nat
  sectors : List CSector
  deriving DecidableEq, Repr

/-- How a fetch that missed ended, until its thread sees it (R221). -/
inductive FetchAnswer where
  | unpublished
  | poisoned (source : Nat)
  deriving DecidableEq, Repr

/-- A fetch that missed: its line, the slots that wait, and what it will bring. -/
structure Fill where
  line : PhysAddr
  slots : List Nat
  got : Option ILine
  /-- the largest wts of the line's sectors -/
  wts : Nat
  answer : Option FetchAnswer
  deriving DecidableEq, Repr

/-! ### Mailboxes, arrivals, tagged words -/

/-- A message held in a ring: ring, its place, header (R138, R141). -/
structure RingMsg where
  ring : Nat
  place : Nat
  sender : ThreadRef
  len : Nat
  deriving DecidableEq, Repr

/-- A refused sender in the waiting list (R140). -/
structure Waiter where
  thread : ThreadRef
  id : Nat
  ring : Nat
  deriving DecidableEq, Repr

/-- A tagged operation that waits at its word (R118). -/
structure TagEntry where
  id : Nat
  off : Nat
  va : Word
  op : TagOp
  data : Word
  thread : ThreadRef
  block : Nat
  local_ : Bool
  /-- of a remote request: the time it carries and its context (R267, R341) -/
  time : Nat
  ctx : Nat
  deriving DecidableEq, Repr

/-- An installation in progress, from its first cycle (R243). -/
structure Install where
  slot : Nat
  ctx : CtxMsg
  start : Nat
  deriving DecidableEq, Repr

/-! ### Mirrored pairs -/

/-- A held global store (R395). -/
structure HeldStore where
  access : Access
  at_ : Nat
  deriving DecidableEq, Repr

/-- A mirrored pair, kept at its primary (R394–R398). -/
structure Mirror where
  shadow : CoreKey
  ckSlots : List Slot
  ckShadow : List Slot
  ckAcc : List (List (BitVec 32))
  ckAccShadow : List (List (BitVec 32))
  store : List HeldStore
  logCount : Nat
  logShadow : Nat
  mismatched : Bool
  /-- the pair has stopped for a checkpoint that is still to be taken -/
  waits : Bool
  ckRings : List RingMsg
  /-- slots whose irrevocable operation is in progress (R395) -/
  busy : List Nat
  deriving DecidableEq, Repr

/-! ### A core -/

/-- What a saved core keeps beside its record for one context: what the layout of R354 has no place for (log 53). -/
structure Kept where
  slots : List (Nat × Slot)
  arrivals : List CtxMsg
  spilled : List CtxMsg
  spillHead : Nat
  rings : List RingMsg
  ringTail : Vector Nat 8
  cmds : List CopyCmd
  locks : List RangeLock
  /-- the core was the primary of a mirrored pair -/
  mirrored : Bool
  deriving DecidableEq, Repr

/-- A core (R8). -/
structure Core where
  time : Nat
  last : Nat
  slots : Vector Slot 16
  acc : Vector (List (BitVec 32)) 4
  accOwn : Vector (Option (Fin 16)) 4
  accDamage : List (Fin 4)
  spad : List Host.Cell
  full : List Nat
  spadPoison : List (Nat × Nat)
  locks : List RangeLock
  tile : TileUnit
  copy : CopyEngine
  icache : List ILine
  fills : List Fill
  fetchFaults : List (Nat × PhysAddr × FetchAnswer)
  tlb : List TlbEntry
  walkFaults : List WalkFault
  mboxBase : BitVec 10
  mboxDepth : BitVec 3
  mboxEn : Bool
  rings : List RingMsg
  /-- where the next message of each ring goes -/
  ringTail : Vector Nat 8
  waiters : List Waiter
  arrivals : List CtxMsg
  installs : List Install
  spillBase : BitVec 11
  spillCap : BitVec 7
  spillCnt : Nat
  spillHead : Nat
  /-- bytes read so far of the entry that moves to the queue (R243) -/
  spillMove : Option (List Byte)
  /-- poison met by the move, by entry byte -/
  spillMarks : List (Nat × Nat)
  /-- what the core keeps beside each spill entry, oldest first -/
  spilled : List CtxMsg
  dropc : BitVec 64
  /-- drops counted in the cycle `dropCycle` (R248) -/
  dropNow : Nat
  dropCycle : Nat
  ctxLast : Nat
  /-- a thread has stood on the core since die release (R336) -/
  tenant : Bool
  /-- a scrub for another context runs until this cycle (R341) -/
  scrubUntil : Option Nat
  fifo : List RemoteReq
  /-- the FIFO was served in the last contested cycle (R254) -/
  servedFifo : Bool
  tagWait : List TagEntry
  /-- completions taken in the cycle `portCycle` (R29) -/
  portCycle : Nat
  portUsed : Nat
  fillCycle : Option Nat
  /-- reserved for a follower in this cycle (R236) -/
  reservedCycle : Option Nat
  flying : Nat
  mirrLbase : BitVec 6
  mirrLcap : BitVec 10
  mirrCkn : BitVec 32
  mirrRoll : BitVec 8
  mirror : Option Mirror
  /-- the primary of which this core is the shadow -/
  shadowOf : Option CoreKey
  /-- issue is stopped until this cycle (R397, R398) -/
  stopUntil : Nat
  /-- of each context saved here and not yet resumed -/
  kept : List (Nat × Kept)
  deriving DecidableEq, Repr

/-! ### Rooks -/

/-- A local register of a cell (R283). -/
structure Local where
  val : Word
  poison : Bool
  side : BitVec 16
  deriving DecidableEq, Repr

/-- A cell of a rook (R283): queues in the order N, E, S, W. -/
structure CellState where
  pc : Nat
  l : Vector Local 4
  dq : Vector (List Token) 4
  cq : Vector (List Bool) 4
  /-- it has forwarded END and fires no more (R307) -/
  ended : Bool
  deriving DecidableEq, Repr

/-- An output of a memory port in request order (R289); none while its access is under way. -/
structure PortOut where
  seq : Nat
  tok : Option Token
  deriving DecidableEq, Repr

/-- An access of a memory port under way: its number, packet and address, and whether it stores. -/
structure PortAccess where
  seq : Nat
  pkt : Option Nat
  va : Word
  store : Bool
  deriving DecidableEq, Repr

/-- A memory port (R289–R291). -/
structure MemPort where
  xlat : Option TlbEntry
  /-- a refill of the entry is under way (R290) -/
  refilling : Bool
  /-- a refill failed: context, 64 KiB page and SUB, for the access that asked (R313) -/
  missed : Option (Nat × Nat × Nat)
  inq : List Token
  /-- argument 0 for each run of the generator that has not ended (R289) -/
  runs : List Word
  i0 : Nat
  i1 : Nat
  i2 : Nat
  exhausted : Bool
  outs : List PortOut
  busy : List PortAccess
  time : Nat
  /-- cycle after the one in which an output last left -/
  outAt : Nat
  /-- END has reached a port without outputs (R307) -/
  ended : Bool
  deriving DecidableEq, Repr

/-- A counter chain (R292). -/
structure Chain where
  i0 : Nat
  i1 : Nat
  i2 : Nat
  /-- first cycle in which II allows the next token -/
  next : Nat
  /-- markers still to emit before the next token -/
  marks : List Nat
  /-- runs that have not ended -/
  runs : Nat
  exhausted : Bool
  deriving DecidableEq, Repr

/-- A reduction unit (R293): its accumulator, none for the identity, its first poison and the packet of its first token. -/
structure RedUnit where
  acc : Option Word
  poison : Option (BitVec 16 × Word)
  pkt : Option Nat
  inq : List Token
  outq : List Token
  deriving DecidableEq, Repr

/-- A special-function unit (R294). -/
structure Sfu where
  inq : List Token
  deriving DecidableEq, Repr

/-- The butterfly network and converter at S4 (R295): tokens of the partial block of each stage, and tokens to emit. -/
structure Butterfly where
  inq : List Token
  block : List Token
  conv : List Token
  outq : List Token
  deriving DecidableEq, Repr

/-- A link channel of a rook (R306, R381). -/
structure Link where
  credit : Nat
  /-- tokens that have arrived and not yet entered the cell's queue -/
  inbuf : List Token
  /-- the rook and channel at the other end -/
  peer : Option (RookKey × Nat)
  /-- END has left by the channel (R307) -/
  ended : Bool
  deriving DecidableEq, Repr

/-- A packet in flight in a rook (R302). -/
structure Packet where
  num : Nat
  call : CallMsg
  tp : Nat
  fault : Option FaultRec
  /-- cycle and port of that fault -/
  faultAt : Nat × Nat
  result : Option Token
  deriving DecidableEq, Repr

/-- A store that a drain hands to memory port 1 or 2 (R305): one sector's bytes of a row, from a cycle on. -/
structure RowStore where
  port : Nat
  row : Nat
  due : Nat
  va : Word
  bytes : List Byte
  deriving DecidableEq, Repr

/-- A drain running or waiting in a rook (R305). -/
structure DrainRun where
  msg : DrainMsg
  num : Nat
  /-- the bias vector, how many of its elements have yet to arrive, and whether one was poisoned or failed -/
  bias : List (BitVec 32)
  biasLeft : Nat
  biasBad : Bool
  /-- first unit cycle, once known; `planned` is what R305 gives it with a bias read -/
  planned : Nat
  first : Option Nat
  /-- elements of the first beat of the row that streams -/
  row : List (BitVec 32)
  /-- the logical time of ports 0, 1, 2 (R291) -/
  times : List Nat
  pend : List RowStore
  /-- stores under way: number, port and row; a row is one access of its port (R289) -/
  out : List (Nat × Nat × Nat)
  fault : Option FaultRec
  faultAt : Nat × Nat
  /-- e + 6 + s, once e is past -/
  ended : Option Nat
  deriving DecidableEq, Repr

/-- The configuration of a rook (R301). -/
structure RookCfg where
  ctx : Nat
  fid : Nat
  img : List Word
  deriving DecidableEq, Repr

/-- A request for a function of the cluster's rooks: a call, a drain, or a rook of a stream graph (R301, R305, R306). -/
inductive RookReq where
  | call (c : CallMsg)
  | drain (d : DrainMsg)
  deriving DecidableEq, Repr

/-- A configuration load in progress, with the requests that wait for it (R301). -/
structure RookLoad where
  id : Nat
  cfg : RookCfg
  waits : List RookReq
  /-- the saved record of the rook is restored when the load ends (R358) -/
  resume : Bool
  deriving DecidableEq, Repr

/-- A part of a SNAP snapshot (R311): units that have saved their state, inputs at which SNAP has arrived. -/
structure SnapRec where
  saved : List Nat
  arrived : List (Nat × Nat)
  deriving DecidableEq, Repr

/-- A rook (R281–R311). -/
structure Rook where
  cfg : Option RookCfg
  load : Option RookLoad
  /-- the launch whose stream graph holds the rook -/
  reserved : Option Nat
  frozen : Bool
  used : Nat
  cells : Vector CellState 64
  ports : Vector MemPort 4
  chains : Vector Chain 2
  reds : Vector RedUnit 2
  sfus : Vector Sfu 4
  butterfly : Butterfly
  /-- tokens that reached the result port (E0) -/
  resq : List Token
  links : Vector Link 7
  calls : List CallMsg
  packets : List Packet
  nextPkt : Nat
  /-- results taken at E0 so far -/
  nextRes : Nat
  lastPkt : Option Nat
  /-- the first fault met before the first acceptance: its record, cycle and port (R302) -/
  early : Option (FaultRec × Nat × Nat)
  drains : List DrainRun
  /-- last unit cycle of the drain before (R305) -/
  lastDrainEnd : Nat
  /-- the last cycle in which a cell fired, a drain streamed or no token was held (R309) -/
  lastFire : Nat
  /-- a rook of a stream graph that has started works; `begun`: its sources have their runs, also when a pre-emption has come between -/
  running : Bool
  begun : Bool
  /-- sources act as exhausted since a swap (R308) -/
  exhausted : Bool
  phaseEnded : Bool
  /-- largest wts of the stores of a stream phase (R307) -/
  phaseTime : Nat
  snap : Option SnapRec
  /-- tokens that enter queues at the end of this cycle: (cell, direction, token) or (64 + unit, 0, token) -/
  staged : List (Nat × Nat × Token)
  /-- control tokens likewise -/
  stagedC : List (Nat × Nat × Bool)
  /-- units that have taken a token in this cycle: its place is free from the next one on (R284) -/
  took : List Nat
  /-- the image staged for a swap (R308), or that of a load which a pre-emption has interrupted (R301) -/
  next : Option RookCfg
  deriving DecidableEq, Repr

/-! ### A cluster -/

/-- A reservation held at a home (R123). -/
structure Reservation where
  thread : ThreadRef
  id : Nat
  line : PhysAddr
  deriving DecidableEq, Repr

/-- An ordset declaration (R125, R126). -/
structure Decl where
  target : PhysAddr
  next : Nat
  nsl : Nat
  op : AtomOp
  wide : Bool
  deriving DecidableEq, Repr

/-- An image held in an image cache (R301). -/
structure ImgEntry where
  ctx : Nat
  fid : Nat
  img : List Word
  used : Nat
  deriving DecidableEq, Repr

/-- A cfgld on its way (R211): its answer, what it asks for, the image's address once the map entry is read and its size once the header is, and the cycle in which what it reads next is there. -/
structure ImgFetch where
  answer : Completion
  ctx : Nat
  fid : Nat
  addr : Option Word
  size : Option Nat
  at_ : Nat
  deriving DecidableEq, Repr

/-- A cluster: its caches, its home agent, its weight store and its rooks. -/
structure Cluster where
  cache : List CLine
  /-- fills on their way, by cycle of their replies -/
  fills : List CFill
  bankFree : List (Nat × Nat)
  tlb : List TlbEntry
  walks : List Walk
  walkWait : List Walk
  weights : List Host.Cell
  weightCtx : Option Nat
  weightPoison : List (Nat × Nat)
  rooks : Vector Rook 4
  images : List ImgEntry
  imgFetches : List ImgFetch
  rookWait : List RookReq
  /-- drains answered without a rook: tile command and fault (R192, R305, R309) -/
  lostDrains : List (Nat × FaultRec)
  window : Option Nat
  poolBase : BitVec 16
  poolLen : BitVec 16
  poolUsed : List (Nat × PhysAddr)
  lost : BitVec 32
  floor : Nat
  sweep : Nat
  chan : List (Nat × Nat)
  atomFree : Nat
  /-- lines that the atomic unit holds, each with the first cycle in which it does not (R121) -/
  atomLines : List (PhysAddr × Nat)
  resv : List Reservation
  decls : List Decl
  merge : List Access
  mergeErr : Nat
  /-- the cluster admits nothing: retirement in progress (R401) -/
  retiring : Bool
  /-- rooks saved and not yet resumed, by context × 4 + rook: what R355 has no place for (log 53) -/
  keptRooks : List (Nat × Rook)
  /-- contexts whose record here holds the weight store (R354) -/
  keptWeights : List Nat
  deriving DecidableEq, Repr

/-! ### Dies, packages, launches -/

/-- A host queue of a launch unit (R323). -/
structure HostQueue where
  qbase : Word
  qlog : BitVec 64
  head : BitVec 32
  tail : BitVec 32
  cbase : Word
  clog : BitVec 64
  chead : BitVec 32
  ctail : BitVec 32
  /-- values written to TAIL that HEAD has not reached, and the cycles in which they were -/
  entered : List (BitVec 32 × Nat)
  /-- launch numbers given to records, by index, for dependences (R318) -/
  given : List (BitVec 32 × Nat)
  deriving DecidableEq, Repr

/-- A record in the device queue (R324). -/
structure DevRecord where
  record : List Word
  from_ : ThreadRef
  addr : Word
  launch : Nat
  /-- the host queue from which the launch descends (R337) -/
  queue : Option (DieKey × Nat)
  ctx : Nat
  entered : Nat
  time : Nat
  deriving DecidableEq, Repr

/-- A completion entry that waits for its ring (R332). -/
structure Report where
  queue : Option Nat
  entry : List Word
  done : Word
  doneTime : Nat
  ctx : Nat
  deriving DecidableEq, Repr

/-- Where a selected record came from. -/
inductive RecSource where
  | queue (q : Nat)
  | device
  | request (m : PlaceMsg)
  deriving DecidableEq, Repr

/-- A record that a launch unit has selected and found valid, with the lists that it read for it (R325, R326); of a request, the record alone. -/
structure Selected where
  src : RecSource
  record : List Word
  addr : Word
  wsl : List (Word × Word × Word)
  graph : List (List Word)
  deriving DecidableEq, Repr

/-- A round of R417 at the receiving die; `full`: packages whose registry was full (R367). -/
structure Round where
  num : Nat
  waiting : List DieKey
  ready : List DieKey
  notReady : List DieKey
  full : List PkgKey
  times : List Nat
  deriving DecidableEq, Repr

/-- A part reserved on a die for a round, in the order of IDX (R417). -/
structure Part where
  round : Nat
  slots : List (CoreKey × Nat)
  mirr : Bool
  deriving DecidableEq, Repr

/-- A launch unit, error log and repair state: one per die. -/
structure Die where
  time : Nat
  seq : Nat
  queues : Vector HostQueue 16
  devq : List DevRecord
  requests : List PlaceMsg
  selected : Option Selected
  round : Option Round
  parts : List Part
  reports : List Report
  /-- runtime requests: the host queue that receives each, its launch, its payload (R337) -/
  hcalls : List (Option (DieKey × Nat) × Nat × List Word)
  elogLog : BitVec 5
  elogBase : BitVec 30
  elHead : BitVec 17
  elTail : BitVec 17
  elOvf : Bool
  elCorr : BitVec 29
  /-- phase times of launches that have completed here, by launch (R329, R335) -/
  phases : List (Nat × Nat)
  /-- entries of the error log that have yet to be written, oldest first (R392) -/
  elWait : List (List Word)
  /-- logical cluster i stands at physical cluster repair[i] (R400) -/
  repair : List Nat
  spares : List Nat
  remaps : List Nat
  /-- of each LPDDR6 group: when it is free, in 1/64 cycles, and the first cycle in which refresh may close it again (R257) -/
  groupFree : List Nat
  groupShut : List Nat
  deriving DecidableEq, Repr

/-- Who holds an entry of the snapshot registry (R364). -/
inductive RegOwner where
  | thread (t : ThreadRef)
  | txn (t : ThreadRef)
  | launch (n : Nat)
  deriving DecidableEq, Repr

/-- An entry of the snapshot registry (R364). -/
structure RegEntry where
  time : Nat
  owner : RegOwner
  deriving DecidableEq, Repr

/-- A record that is being written to the save area (R357): the context offset of its next byte, the time its stores carry, bytes a cycle, what is left of it, and its poisoned words, by offset from that byte. -/
structure SaveJob where
  clu : ClusterKey
  off : Nat
  time : Nat
  rate : Nat
  left : List Byte
  poison : List (Nat × Nat)
  deriving DecidableEq, Repr

/-- A pre-emption or resumption in progress (R350–R358). -/
structure Preempt where
  ctx : Nat
  resume : Bool
  start : Nat
  clusters : List ClusterKey
  launches : List Nat
  coresLeft : List CoreKey
  rooksLeft : List RookKey
  weightsLeft : List ClusterKey
  /-- records being written, and the last cycle in which bytes of one left -/
  jobs : List SaveJob
  lastWrite : Nat
  maxTime : Nat
  psa : Word
  retire : Option ClusterKey
  /-- the header has been written; of a resumption: the reads have begun -/
  written : Bool
  deriving DecidableEq, Repr

/-- A live launch: its record, its placement and what is left of it (R315–R335). Its key is its number and, above bit 31, the package that admitted it. -/
structure Launch where
  num : Nat
  die : DieKey
  ctx : Nat
  record : List Word
  recordAddr : Word
  /-- the host queue from which it descends (R337) -/
  queue : Option (DieKey × Nat)
  /-- submitted by the host: its end is reported in that queue's ring (R332) -/
  host : Bool
  clusters : List ClusterKey
  /-- cores of the placement; of mirrored pairs the primaries -/
  cores : List CoreKey
  /-- placed slots in the order of IDX (R328) -/
  slots : List (CoreKey × Nat)
  tpc : Nat
  /-- the last cycle of its scrubs, and what its start time reaches besides the unit's own time (R329) -/
  scrubs : Nat
  base : Nat
  /-- the start time τ; 0 until the scrubs are over (R329) -/
  tau : Nat
  snap : Nat
  /-- the largest wts acknowledged to its threads or rooks; 0 for none (R331) -/
  phase : Nat
  /-- threads not yet retired, contexts in flight included -/
  alive : Nat
  /-- placement core and IDX of retired parties, for barriers (R131) -/
  retired : List (CoreKey × Nat)
  rooks : List RookKey
  rooksDone : List RookKey
  /-- rooks of the graph that is being loaded or runs, and those whose load is acknowledged, each with the cycle in which that reaches the launch unit (R306, R308) -/
  graph : List RookKey
  acks : List (RookKey × Nat)
  /-- the entries of its weight-load list, as admission read them (R319) -/
  wsl : List (Word × Word × Word)
  aborted : Option Nat
  notify : Option ThreadRef
  deriving DecidableEq, Repr

/-- A barrier instance (R131). -/
structure Barrier where
  bar : BarRef
  phase : Nat
  /-- IDX of each party that has arrived -/
  arrived : List Nat
  count : Int
  time : Nat
  deriving DecidableEq, Repr

/-- A die's part of the persistent record (R400, R401): its repair map, the logical clusters remapped so far, the physical clusters given up. -/
structure RepairRecord where
  map : List Nat
  remaps : List Nat
  bad : List Nat
  deriving DecidableEq, Repr

/-- A trained port (R404): rate in Gbit/s, width in lanes, lane numbers reversed, polarity corrected per local lane, the partner's serial number (R405), replays so far (R409). -/
structure LinkState where
  rate : Nat
  width : Nat
  reversed : Bool
  inverted : List Bool
  serial : Nat
  replays : Nat
  deriving DecidableEq, Repr

/-- What TELEM returns (R409): measurements, the 1 s mean of power, clock step, CORR of each die, links, fault code. -/
structure Telemetry where
  measured : List Byte
  mean : Nat
  clock : Nat
  corr : List (BitVec 29)
  links : List (Option LinkState)
  faultCode : Nat
  deriving DecidableEq, Repr

/-- The management port's answers and reports (R405, R407–R409). -/
inductive MgmtReply where
  | status (step faultCode version : Nat)
  | done
  | refused
  | attest (report signature certificate : List Byte)
  | telem (t : Telemetry)
  | repair (maps : List (List Nat)) (record : List RepairRecord)
  /-- status 0xFF -/
  | unknown
  /-- the report after step 7 -/
  | ports (l : List (Option LinkState))
  | moduleFault (code : Nat)
  deriving DecidableEq, Repr

/-- Bring-up and management (R402–R410). -/
structure Yamus where
  /-- bring-up step 1–8; 9 once the dies are released -/
  step : Nat
  /-- the recovery state, with the bring-up that goes on once an image passes (R403) -/
  recovery : Option BringUp
  faultCode : Nat
  firmware : FwImage
  staged : Option FwImage
  minCounter : Nat
  record : List RepairRecord
  humir : List (Option LinkState)
  /-- no pod manager answered: every Humir port is unused (R405) -/
  unused : Bool
  birsyn : Option LinkState
  /-- refreshes of the readings so far, and the readings -/
  refreshes : Nat
  readings : Option Telemetry
  /-- refreshes since the last change of the step asked for, and since the mean was last not 5 % below the limit -/
  window : Nat
  below : Nat
  /-- what has been sent on the management port, newest first -/
  replies : List MgmtReply
  deriving DecidableEq, Repr

/-- What the launch unit read of a context's descriptor at admission or resumption (R339): the level-1 table, FMAP and PSA. -/
structure CtxDesc where
  root : PhysAddr
  fmap : Word
  psa : Word
  deriving DecidableEq, Repr

/-- A package. -/
structure Package where
  released : Bool
  release : Nat
  podPkg : Nat
  podN : Nat
  podDiam : Nat
  podId : Nat
  routes : List (Nat × Nat)
  registry : List RegEntry
  step : Nat
  hot : Bool
  lim : Nat
  /-- the step this package's Yamus asks for (R410) -/
  asked : Nat
  pcyc : BitVec 64
  cdtb : Word
  pstat : Word
  hwv : Bool
  intl : Word
  /-- numbers of host writes not yet acknowledged -/
  hostOut : List Nat
  /-- host register writes and reads that wait for them (R384) -/
  hostWait : List Instr
  hostReply : List Byte
  preempt : Option Preempt
  ctxs : List (Nat × CtxDesc)
  yamus : Yamus
  deriving DecidableEq, Repr

/-! ### Memory -/

/-- What the home keeps for a sector (R109, R359, R279): wts and rts of the newest version, pool entries newest first, the commit lock with its rts. -/
structure Sector where
  wts : Nat
  rts : Nat
  chain : List Nat
  lock : Option ThreadRef
  poison : Option Nat
  deriving DecidableEq, Repr

/-- The publish state of a line (R371). -/
inductive LineState where
  | none | written | published
  deriving DecidableEq, Repr

/-- How a message goes from one die to another: the virtual channel (R379) and the two dies. -/
structure Wire where
  vc : Nat
  src : DieKey
  dst : DieKey
  deriving DecidableEq, Repr

/-- An event that waits in the agenda: its moment (4 × cycle + phase), its rank among events of one moment (R15), and, of a message that leaves its die, its way. -/
structure Pending where
  due : Nat
  rank : Nat
  num : Nat
  ev : Instr
  wire : Option Wire := none
  deriving DecidableEq, Repr

/-- A message that a link delayed: its way, its number, and the moment and rank at which it arrives; no later message of its route and channel arrives before it (R379). -/
structure Late where
  wire : Wire
  num : Nat
  due : Nat
  rank : Nat
  deriving DecidableEq, Repr

/-- A word whose thread's wait after issue has ended, to be executed again from stage 1. -/
structure Resume where
  due : Nat
  thread : ThreadRef
  /-- number of the wait that has ended -/
  id : Nat
  cur : Cur
  deriving DecidableEq, Repr

/-- A shootdown in progress (R349). -/
structure Shootdown where
  thread : ThreadRef
  id : Nat
  /-- loads, and stores and atomics, that it waits for -/
  loads : List Nat
  stores : List Nat
  /-- stores of memory ports whose acknowledgements are on their way: rook, port, number -/
  ports : List (Nat × Nat × Nat)
  deriving DecidableEq, Repr

/-- The whole machine. Cores, clusters, dies and packages that no entry lists are as reset leaves them. -/
structure State where
  /-- 4 × cycle + phase: 0 events before issue, 1 issue, 2 events after issue, 3 end of cycle -/
  now : Nat
  /-- the core and the search offset that issue has reached in this cycle -/
  scanCore : Nat
  scanOff : Nat
  /-- the slot that has issued on the core being searched; 16 when nothing may issue on it in this cycle -/
  scanIssued : Option Nat
  /-- bundles of followers and shadows whose reserved cycle this is -/
  forced : List FollowMsg
  agenda : List Pending
  /-- delayed messages (R379) -/
  late : List Late
  resumes : List Resume
  cur : Cur
  /-- numbers given to operations -/
  fresh : Nat
  /-- the model's own counter of free values (log 2) -/
  free : Nat
  cores : List (CoreKey × Core)
  clusters : List (ClusterKey × Cluster)
  dies : List (DieKey × Die)
  pkgs : List (PkgKey × Package)
  mem : List Host.Cell
  sectors : List (Nat × Sector)
  lines : List (Nat × LineState)
  barriers : List Barrier
  launches : List Launch
  shootdowns : List Shootdown
  /-- damaged control registers of a core, cluster, die or package: its number and the index (R390) -/
  crDamage : List (Nat × Nat)
  /-- writes of cluster and die registers in this cycle, which take effect at its end: core, index, value, and whether bits that are written with 1 clear (R21) -/
  crWrites : List (CoreKey × Nat × Word × Bool)
  /-- rises of cr.time by ticks, per package, since its release: for unlisted cores -/
  ticks : List (PkgKey × Nat)
  deriving DecidableEq, Repr

/-! ### What reset leaves -/

/-- A Void register (R11); its value is a DESIGN CHOICE, 0 (log 3). -/
def Reg.init {w : Nat} : Reg w := { val := 0, tag := .void, mark := none }

/-- The registers of a scrubbed slot (R246): every value 0 and every tag Void, but g0 and m0 (R9). -/
def Regs.init : Regs :=
  { g := (Vector.replicate 32 Reg.init).set 0 { val := 0, tag := .full, mark := none }
    v := Vector.replicate 16 Reg.init
    m := (Vector.replicate 8 Reg.init).set 0 { val := 0xFFFF#16, tag := .full, mark := none } }

/-- cr.status at thread start (R19). -/
def Status.init : Status :=
  { sup := false, ie := true, role := .independent, gidx := 0, tx := false, mir := false, intrap := false }

/-- cr.fcsr at thread start (R20). -/
def Fcsr.init : Fcsr :=
  { rm := .rne, nv := false, dz := false, of := false, uf := false, nx := false, ftz := false }

/-- A free slot: every register at the reset value of R17 and R224; those marked launch at 0 (DESIGN CHOICE, log 3). -/
def Slot.init : Slot :=
  { occ := .free, gen := 0, idx := 0, launch := 0, ctx := 0, place := none, pc := 0, byBranch := true
    regs := Regs.init, st := Status.init
    cause := 0, epc := 0, tval := 0, tinf := 0, tvec := 0, tsave := 0
    mfmt := 0, ascl := 0, kval := 384, mstat := 0, fcsr := Fcsr.init
    wlim := 0x100000, mlim := 0, snap := 0, snapThread := false
    scause := 0, sepc := 0, stval := 0, stinf := 0, svec := 0, ssave := 0
    psup := false, pie := false, sdeleg := 0
    readyAt := 0, hold := false, out := [], lastEnd := 0, openSince := none, parkLimit := none
    block := none, ints := [], movedTo := none, monitors := Vector.replicate 4 none, tx := none, bars := []
    drainRecs := [], cancelled := false, copyEnd := 0, stopping := false, gang := [], judged := [], crDamage := [] }

/-- An idle tile unit. -/
def TileUnit.init : TileUnit := { queue := [], run := none, lastEnd := 0, joins := [], drains := [] }

/-- A core at die release (R17, R23, R406). -/
def Core.init : Core :=
  { time := 0, last := 15, slots := Vector.replicate 16 Slot.init
    acc := Vector.replicate 4 [], accOwn := Vector.replicate 4 none, accDamage := []
    spad := [], full := [], spadPoison := [], locks := [], tile := TileUnit.init
    copy := { cmds := [], port := [], faults := [] }
    icache := [], fills := [], fetchFaults := [], tlb := [], walkFaults := []
    mboxBase := 0, mboxDepth := 0, mboxEn := false, rings := [], ringTail := Vector.replicate 8 0, waiters := []
    arrivals := [], installs := [], spillBase := 0, spillCap := 0, spillCnt := 0, spillHead := 0
    spillMove := none, spillMarks := [], spilled := [], dropc := 0, dropNow := 0, dropCycle := 0, ctxLast := 0, tenant := false, scrubUntil := none
    fifo := [], servedFifo := false, tagWait := [], portCycle := 0, portUsed := 0
    fillCycle := none, reservedCycle := none, flying := 0
    mirrLbase := 0, mirrLcap := 0, mirrCkn := 0, mirrRoll := 0, mirror := none, shadowOf := none
    stopUntil := 0, kept := [] }

/-- A cell after a configuration load (R283). -/
def CellState.init : CellState :=
  { pc := 0, l := Vector.replicate 4 { val := 0, poison := false, side := 0 }
    dq := Vector.replicate 4 [], cq := Vector.replicate 4 [], ended := false }

/-- A memory port after a configuration load: no translation entry (R313). -/
def MemPort.init : MemPort :=
  { xlat := none, refilling := false, missed := none, inq := [], runs := [], i0 := 0, i1 := 0, i2 := 0, exhausted := false
    outs := [], busy := [], time := 0, outAt := 0, ended := false }

/-- An unconfigured rook. -/
def Rook.init : Rook :=
  { cfg := none, load := none, reserved := none, frozen := false, used := 0
    cells := Vector.replicate 64 CellState.init, ports := Vector.replicate 4 MemPort.init
    chains := Vector.replicate 2 { i0 := 0, i1 := 0, i2 := 0, next := 0, marks := [], runs := 0, exhausted := false }
    reds := Vector.replicate 2 { acc := none, poison := none, pkt := none, inq := [], outq := [] }
    sfus := Vector.replicate 4 { inq := [] }
    butterfly := { inq := [], block := [], conv := [], outq := [] }, resq := []
    links := Vector.replicate 7 { credit := 8, inbuf := [], peer := none, ended := false }
    calls := [], packets := [], nextPkt := 0, nextRes := 0, lastPkt := none, early := none, drains := [], lastDrainEnd := 0
    lastFire := 0, running := false, begun := false, exhausted := false, phaseEnded := false, phaseTime := 0
    snap := none, staged := [], stagedC := [], took := [], next := none }

/-- A cluster at die release: caches and TLBs empty, no pool (R361). -/
def Cluster.init : Cluster :=
  { cache := [], fills := [], bankFree := [], tlb := [], walks := [], walkWait := [], weights := [], weightCtx := none
    weightPoison := [], rooks := Vector.replicate 4 Rook.init, images := [], imgFetches := [], rookWait := [], lostDrains := [], window := none
    poolBase := 0, poolLen := 0, poolUsed := [], lost := 0, floor := 0, sweep := 0, chan := [], atomFree := 0, atomLines := []
    resv := [], decls := [], merge := [], mergeErr := 0, retiring := false, keptRooks := [], keptWeights := [] }

/-- A host queue at reset (R323). -/
def HostQueue.init : HostQueue :=
  { qbase := 0, qlog := 0, head := 0, tail := 0, cbase := 0, clog := 0, chead := 0, ctail := 0
    entered := [], given := [] }

/-- A die at release: launch-unit time 0 (R406), sequence 1 (R322), an error log that is disabled (R392), the identity repair map (log 5). -/
def Die.init : Die :=
  { time := 0, seq := 1, queues := Vector.replicate 16 HostQueue.init, devq := [], requests := []
    selected := none, round := none, parts := [], reports := [], hcalls := [], phases := []
    elogLog := 0, elogBase := 0, elHead := 0, elTail := 0, elOvf := false, elCorr := 0, elWait := []
    repair := List.range 24, spares := [24, 25], remaps := [], groupFree := [0, 0], groupShut := [0, 0] }

/-- Yamus before any bring-up has run (log 6). -/
def Yamus.init : Yamus :=
  { step := 1, recovery := none, faultCode := 0, firmware := { header := [], body := [] }, staged := none
    minCounter := 0, record := List.replicate 4 { map := List.range 24, remaps := [], bad := [] }
    humir := List.replicate 18 none, unused := true, birsyn := none
    refreshes := 0, readings := none, window := 0, below := 0, replies := [] }

/-- A package whose dies are in reset. -/
def Package.init : Package :=
  { released := false, release := 0, podPkg := 0, podN := 0, podDiam := 0, podId := 0, routes := []
    registry := [], step := 0, hot := false, lim := 2600, asked := 0, pcyc := 0, cdtb := 0, pstat := 0
    hwv := false, intl := 0, hostOut := [], hostWait := [], hostReply := [], preempt := none, ctxs := []
    yamus := Yamus.init }

/-- Package 0 in the cycle in which its dies are released (R405, R406). -/
def Package.released0 : Package :=
  { Package.init with
    released := true
    yamus := { Yamus.init with step := 9, birsyn := some { rate := 200, width := 2, reversed := false, inverted := [false, false], serial := 0, replays := 0 } } }

/-- An issue latch that names slot 0 of core 0 and no instruction. -/
def Cur.init : Cur :=
  { core := 0, slot := 0, pc := 0, nextPc := 0, pair := false, hold := false, word0 := 0, word1 := 0
    word := 0, instr := .timeTick 0, aword := none, regs := Regs.init, fcsr := Fcsr.init, stage := 0, start := 0, status := .run }

/-- A sector that has never been written: one version of wts 0 (R359, R402). -/
def Sector.init : Sector := { wts := 0, rts := 0, chain := [], lock := none, poison := none }

/-- The machine in the cycle in which package 0, a pod of one, releases its dies (R402–R406): no thread, memory all 0 with wts 0, every line None, every clock and time 0. -/
def State.reset : State :=
  { now := 0, scanCore := 0, scanOff := 0, scanIssued := none, forced := [], agenda := [{ due := 4 * 850000, rank := 0, num := 0, ev := .telemetryRefresh 0 }], late := [], resumes := [], cur := Cur.init
    fresh := 1, free := 0, cores := [], clusters := [], dies := [], pkgs := [(0, Package.released0)]
    mem := [], sectors := [], lines := [], barriers := [], launches := [], shootdowns := [], crDamage := [], crWrites := [], ticks := [] }

/-! ### What can stop a step -/

/-- Why a step stops with a fault. -/
inductive Fault where
  /-- a host access at an offset where R251 and R385 put neither memory nor a register; raised by HOST_WRITE and HOST_READ. Safe: the manual gives such an access no effect. -/
  | noSuchHostAddress
  deriving DecidableEq, Repr

/-- Why a step is refused. -/
inductive Refusal where
  /-- the instruction has no meaning in the model; raised by exec alone. Safe. -/
  | notModelled (mnemonic : String)
  deriving DecidableEq, Repr

end Sys2Proof.Machine
end

