-- ==== Sys2Proof/Machine/Base.lean ====
section
/-! DEFINITION. Reading and updating the parts of State: keyed lists, canonical byte memory, cores, slots, clusters, dies and packages, distances, and the agenda. -/

namespace Sys2Proof.Machine

open Sys2Proof

/-! ### Keyed lists -/

/-- The entry of a key. -/
def getKey {α : Type} (l : List (Nat × α)) (k : Nat) : Option α :=
  match l with
  | [] => none
  | (a, x) :: r => if a = k then some x else getKey r k

/-- The list with the entry of a key set, in rising order of keys. -/
def setKey {α : Type} (l : List (Nat × α)) (k : Nat) (x : α) : List (Nat × α) :=
  match l with
  | [] => [(k, x)]
  | (a, y) :: r => if k < a then (k, x) :: (a, y) :: r else if a = k then (k, x) :: r else (a, y) :: setKey r k x

/-- The list without the entries of a key. -/
def delKey {α : Type} (l : List (Nat × α)) (k : Nat) : List (Nat × α) := l.filter (fun e => e.1 != k)

/-- The elements of a list with the numbers 0, 1, … beside them. -/
def numbered {α : Type} (l : List α) : List (Nat × α) := (List.range l.length).zip l

/-- The list with element i replaced. -/
def setAt {α : Type} (l : List α) (i : Nat) (f : α → α) : List α :=
  match l, i with
  | [], _ => []
  | x :: r, 0 => f x :: r
  | x :: r, n + 1 => x :: setAt r n f

/-- The largest of a list of naturals, 0 for none. -/
def maxOf (l : List Nat) : Nat := l.foldl max 0

/-- The least of a list of naturals that has one. -/
def minOf : List Nat → Option Nat
  | [] => none
  | x :: r => some (r.foldl min x)

/-! ### Byte memory

A sparse memory lists the bytes that are not 0, at strictly rising addresses; every other byte reads 0 (R402; log 4 for scratchpads and weight stores). -/

/-- The byte at an address. -/
def Memory.get (m : List Host.Cell) (a : Nat) : Byte := (getKey m a).getD 0

/-- The memory with one byte written. -/
def Memory.set (m : List Host.Cell) (a : Nat) (b : Byte) : List Host.Cell :=
  if b = 0 then delKey m a else setKey m a b

/-- n bytes from an address upward. -/
def Memory.getN (m : List Host.Cell) (a n : Nat) : List Byte := (List.range n).map (fun i => Memory.get m (a + i))

/-- The memory with bytes written from an address upward. -/
def Memory.setN (m : List Host.Cell) (a : Nat) : List Byte → List Host.Cell
  | [] => m
  | b :: bs => Memory.setN (Memory.set m a b) (a + 1) bs

/-- The memory with every byte of lo ≤ a < hi cleared. -/
def Memory.clear (m : List Host.Cell) (lo hi : Nat) : List Host.Cell := m.filter (fun e => e.1 < lo || hi ≤ e.1)

/-- Addresses strictly rise from below and no listed byte is 0. -/
def Memory.wfFrom (lo : Nat) : List Host.Cell → Bool
  | [] => true
  | (a, b) :: r => lo ≤ a && b != 0 && Memory.wfFrom (a + 1) r

/-- The canonical form. -/
def Memory.wf (m : List Host.Cell) : Bool := Memory.wfFrom 0 m

/-- The little-endian value of n bytes (R4). -/
def bytesNat : List Byte → Nat
  | [] => 0
  | b :: r => b.toNat + 256 * bytesNat r

/-- The n low bytes of a value, least significant first (R4). -/
def natBytes (n x : Nat) : List Byte := (List.range n).map (fun i => BitVec.ofNat 8 (x / 256 ^ i))

/-- A doubleword as bytes. -/
def wordBytes (w : Word) : List Byte := natBytes 8 w.toNat

/-- The doublewords of a list of bytes. -/
def bytesWords (bs : List Byte) : List Word :=
  (List.range (bs.length / 8)).map (fun i => BitVec.ofNat 64 (bytesNat ((bs.drop (8 * i)).take 8)))

/-! ### Units of the pod -/

/-- The cluster of a core. -/
def cluOf (c : CoreKey) : ClusterKey := c / 16
/-- The die of a cluster. -/
def dieOfClu (k : ClusterKey) : DieKey := k / 24
/-- The package of a cluster. -/
def pkgOfClu (k : ClusterKey) : PkgKey := k / 96
/-- The die of a core. -/
def dieOf (c : CoreKey) : DieKey := c / 384
/-- The package of a core. -/
def pkgOf (c : CoreKey) : PkgKey := c / 1536
/-- The quad of a core, numbered over the pod. -/
def quadOf (c : CoreKey) : Nat := c / 4
/-- The package that holds a byte of the pod's memory (R251). -/
def pkgOfPA (pa : PhysAddr) : PkgKey := pa / 2 ^ 42
/-- The die that holds a byte (R251). -/
def dieOfPA (pa : PhysAddr) : DieKey := pkgOfPA pa * 4 + pa / 2 ^ 40 % 4
/-- TIER: the byte lies in LPDDR6 (R251). -/
def inLpddr (pa : PhysAddr) : Bool := pa / 2 ^ 39 % 2 = 1
/-- The offset in the vault (R251). -/
def vaultOff (pa : PhysAddr) : Nat := pa % 2 ^ 32
/-- The sector of a byte. -/
def sectorOf (pa : PhysAddr) : PhysAddr := pa / 64 * 64
/-- The 256-byte line of a byte. -/
def lineOf (pa : PhysAddr) : PhysAddr := pa / 256 * 256
/-- The cluster in whose vault a stacked-DRAM byte lies (R251). -/
def vaultClu (pa : PhysAddr) : ClusterKey := dieOfPA pa * 24 + pa / 2 ^ 32 % 32

/-- The number of the scope instance that holds a core (R131). -/
def instanceOf (sc : Scope) (c : CoreKey) : Nat :=
  match sc with
  | .th => c | .co => c | .qd => quadOf c | .cl => cluOf c | .di => dieOf c | .pk => pkgOf c | .pd => 0

/-! ### Moments -/

/-- The compute cycle of a state; each cycle has four phases. -/
def State.cycle (s : State) : Nat := s.now / 4
/-- The phase within the cycle: 0 before issue, 1 issue, 2 after issue, 3 the end. -/
def State.phase (s : State) : Nat := s.now % 4

/-! ### Parts of the state -/

/-- A package. -/
def State.pkg (s : State) (p : PkgKey) : Package := (getKey s.pkgs p).getD Package.init
/-- The state with a package changed. -/
def State.modPkg (s : State) (p : PkgKey) (f : Package → Package) : State :=
  { s with pkgs := setKey s.pkgs p (f (s.pkg p)) }
/-- A die. -/
def State.die (s : State) (d : DieKey) : Die := (getKey s.dies d).getD Die.init
/-- The state with a die changed. -/
def State.modDie (s : State) (d : DieKey) (f : Die → Die) : State :=
  { s with dies := setKey s.dies d (f (s.die d)) }
/-- A cluster. -/
def State.clu (s : State) (k : ClusterKey) : Cluster := (getKey s.clusters k).getD Cluster.init
/-- The state with a cluster changed. -/
def State.modClu (s : State) (k : ClusterKey) (f : Cluster → Cluster) : State :=
  { s with clusters := setKey s.clusters k (f (s.clu k)) }
/-- A core; one that no entry lists is as die release left it, but for the ticks of its package (R258). -/
def State.core (s : State) (c : CoreKey) : Core :=
  (getKey s.cores c).getD { Core.init with time := (getKey s.ticks (pkgOf c)).getD 0 }
/-- The state with a core changed. -/
def State.modCore (s : State) (c : CoreKey) (f : Core → Core) : State :=
  { s with cores := setKey s.cores c (f (s.core c)) }
/-- A slot of a core. -/
def Core.slot (k : Core) (i : Nat) : Slot := (k.slots[i]?).getD Slot.init
/-- The core with a slot changed. -/
def Core.modSlot (k : Core) (i : Nat) (f : Slot → Slot) : Core :=
  { k with slots := k.slots.setIfInBounds i (f (k.slot i)) }
/-- A slot. -/
def State.slot (s : State) (c : CoreKey) (i : Nat) : Slot := (s.core c).slot i
/-- The state with a slot changed. -/
def State.modSlot (s : State) (c : CoreKey) (i : Nat) (f : Slot → Slot) : State :=
  s.modCore c (fun k => k.modSlot i f)
/-- A rook. -/
def State.rook (s : State) (r : RookKey) : Rook := ((s.clu (r / 4)).rooks[r % 4]?).getD Rook.init
/-- The state with a rook changed. -/
def State.modRook (s : State) (r : RookKey) (f : Rook → Rook) : State :=
  s.modClu (r / 4) (fun k => { k with rooks := k.rooks.setIfInBounds (r % 4) (f (s.rook r)) })
/-- A sector's bookkeeping at its home. -/
def State.sector (s : State) (pa : PhysAddr) : Sector := (getKey s.sectors (sectorOf pa)).getD Sector.init
/-- The state with a sector's bookkeeping changed. -/
def State.modSector (s : State) (pa : PhysAddr) (f : Sector → Sector) : State :=
  { s with sectors := setKey s.sectors (sectorOf pa) (f (s.sector pa)) }
/-- The publish state of the line of a byte (R371). -/
def State.line (s : State) (pa : PhysAddr) : LineState := (getKey s.lines (lineOf pa)).getD .none
/-- A live launch by its number. -/
def State.launch? (s : State) (n : Nat) : Option Launch := s.launches.find? (fun l => l.num = n)
/-- The state with a live launch changed. -/
def State.modLaunch (s : State) (n : Nat) (f : Launch → Launch) : State :=
  { s with launches := s.launches.map (fun l => if l.num = n then f l else l) }
/-- Every core that an entry lists, in rising order. -/
def State.coreKeys (s : State) : List CoreKey := s.cores.map Prod.fst

/-- A number for a new operation. -/
def State.takeFresh (s : State) : Nat × State := (s.fresh, { s with fresh := s.fresh + 1 })
/-- A number for a free value (log 2). -/
def State.takeFree (s : State) : Nat × State := (s.free, { s with free := s.free + 1 })

/-- cr.cyc of a package: compute cycles since die release (R17). -/
def State.cyc (s : State) (p : PkgKey) : Nat := s.cycle - (s.pkg p).release

/-- The thread of a reference still holds its slot (R247). -/
def State.matches_ (s : State) (t : ThreadRef) : Bool :=
  let sl := s.slot t.core t.slot
  (sl.occ == .thread || sl.occ == .draining) && sl.gen == t.gen

/-- A reference to whatever a slot holds. -/
def State.refOf (s : State) (c : CoreKey) (i : Nat) : ThreadRef := { core := c, slot := i, gen := (s.slot c i).gen }

/-- cr.dropc rises by n (R247, R248). -/
def State.drop (s : State) (c : CoreKey) (n : Nat) : State :=
  s.modCore c (fun k => { k with
    dropc := k.dropc + BitVec.ofNat 64 n
    dropNow := (if k.dropCycle = s.cycle then k.dropNow else 0) + n
    dropCycle := s.cycle })

/-- The core's time rises to at least t (R268). -/
def State.raiseTime (s : State) (c : CoreKey) (t : Nat) : State :=
  if (s.core c).time < t then s.modCore c (fun k => { k with time := t }) else s

/-! ### Distances and clock steps (R253, R378, R411) -/

/-- The compute clock in MHz of a step (R410). -/
def stepMHz : Nat → Nat
  | 0 => 850 | 1 => 765 | 2 => 680 | 3 => 595 | 4 => 510 | _ => 425

/-- The cycles of t tenths of a nanosecond on a package at its clock step (R411). -/
def State.nsCycles (s : State) (p : PkgKey) (tenths : Nat) : Nat :=
  ceilDiv (tenths * stepMHz (s.pkg p).step) 10000

/-- The key of package 0 of a package's pod: the packages of a pod stand under keys that follow one another by their numbers (R377). -/
def State.pod0 (s : State) (p : PkgKey) : PkgKey := p - (s.pkg p).podPkg

/-- The length of the route between two packages (R378). -/
def State.route (s : State) (a b : PkgKey) : Nat :=
  if a = b then 0 else (getKey (s.pkg a).routes (b - s.pod0 a)).getD 1

/-- Grid hops between two clusters of one die (R253). -/
def gridHops (a b : ClusterKey) : Nat :=
  let d (x y : Nat) := if x < y then y - x else x - y
  d (a % 24 % 6) (b % 24 % 6) + d (a % 24 / 6) (b % 24 / 6)

/-- Hops between two cores, without the links between packages (R253). -/
def hops (a b : CoreKey) : Nat :=
  if a = b then 0
  else if quadOf a = quadOf b then 1
  else if cluOf a = cluOf b then 2
  else if dieOf a = dieOf b then 2 + gridHops (cluOf a) (cluOf b)
  else 60

/-- One way between two cores: 20 + 2 per hop, with 352.9 ns, 300 cycles at 850 MHz, per link (R253, R378). -/
def State.oneWay (s : State) (a b : CoreKey) : Nat :=
  20 + 2 * hops a b + s.nsCycles (pkgOf a) (3529 * s.route (pkgOf a) (pkgOf b))

/-- The part of a home's latency that lies in the compute clock (R261). -/
def onDieLatency (src home : ClusterKey) : Nat :=
  if src = home then 120
  else if dieOfClu src = dieOfClu home then 150 + 2 * gridHops src home
  else 260

/-- Lh of R416: the latency of a home in stacked DRAM, with 705.8 ns per link (R261, R378). -/
def State.homeLatency (s : State) (src home : ClusterKey) : Nat :=
  onDieLatency src home + s.nsCycles (pkgOfClu src) (7058 * s.route (pkgOfClu src) (pkgOfClu home))

/-- The whole latency of an access served by a home; LPDDR6 adds 423.5 ns, 360 cycles at 850 MHz (R108, R261, R378). -/
def State.accessLatency (s : State) (src home : ClusterKey) (pa : PhysAddr) : Nat :=
  onDieLatency src home + s.nsCycles (pkgOfClu src)
    (7058 * s.route (pkgOfClu src) (pkgOfClu home) + (if inLpddr pa then 4235 else 0))

/-- One way between two clusters' rooks, as between cores of those clusters (R253, R381, R415). -/
def State.oneWayClu (s : State) (a b : ClusterKey) : Nat :=
  if a = b then 20 + 2 * 2 else s.oneWay (a * 16) (b * 16)

/-! ### The agenda -/

/-- Insert an event after every event that is due no later and ranks no higher. -/
def insertPending (l : List Pending) (p : Pending) : List Pending :=
  match l with
  | [] => [p]
  | q :: r => if p.due < q.due || (p.due == q.due && p.rank < q.rank) then p :: q :: r else q :: insertPending r p

/-- An event becomes due at a moment. -/
def State.post (s : State) (due rank : Nat) (ev : Instr) : State :=
  { s with agenda := insertPending s.agenda { due := due, rank := rank, num := s.fresh, ev := ev }, fresh := s.fresh + 1 }

/-- An event becomes due before issue in a cycle. -/
def State.postAt (s : State) (cycle rank : Nat) (ev : Instr) : State := s.post (4 * cycle) rank ev

/-- A message leaves one cluster for another on a virtual channel (R379) and becomes due at a moment. -/
def State.send (s : State) (vc : Nat) (a b : ClusterKey) (due rank : Nat) (ev : Instr) : State :=
  { s with
    agenda := insertPending s.agenda
      { due := due, rank := rank, num := s.fresh, ev := ev, wire := if dieOfClu a = dieOfClu b then none else some { vc := vc, src := dieOfClu a, dst := dieOfClu b } }
    fresh := s.fresh + 1 }

/-- A message that arrives before issue in a cycle. -/
def State.sendAt (s : State) (vc : Nat) (a b : ClusterKey) (cycle rank : Nat) (ev : Instr) : State := s.send vc a b (4 * cycle) rank ev

/-- The rank of a sender among messages of one cycle (R15): core and slot, the copy engine after slot 15. -/
def senderRank (c : CoreKey) (slot : Nat) : Nat := 2 ^ 40 + c * 17 + slot

/-- The events that fail a test leave the agenda. -/
def State.keepEvents (s : State) (f : Instr → Bool) : State := { s with agenda := s.agenda.filter (fun p => f p.ev) }

end Sys2Proof.Machine
end

