-- ==== Sys2Proof/Machine/Homes.lean ====
section
/-! DEFINITION. What homes and scratchpads do to their bytes: versions and the pool (R109, R110, R359–R363), publish states (R371, R372), poison (R391), monitors (R134), scratchpad words (R255) and the error log (R392, R393). -/

namespace Sys2Proof.Machine

open Sys2Proof

/-! ### Monitors -/

/-- The notifications that a write to a place sends: one to each monitor that watches it (R134). -/
def monitorHits (s : State) (place : MonAt) (block : PhysAddr) (wts : Nat) : List Instr :=
  s.cores.flatMap fun (c, k) =>
    (List.range 16).flatMap fun i =>
      (List.range 4).filterMap fun j =>
        match (k.slot i).monitors[j]? with
        | some (some m) => if m.at_ = place ∧ m.from_ ≤ s.cycle then some (.monitorLatch { core := c, slot := i, gen := (k.slot i).gen } j block wts) else none
        | _ => none

/-- Latch every monitor that watches a place; the notifications act in this cycle (log 20). -/
def State.notify (s : State) (place : MonAt) (block : PhysAddr) (wts : Nat) : State :=
  (monitorHits s place block wts).foldl (fun s e => s.post s.now 0 e) s

/-! ### The version pool (R361–R363) -/

/-- Where entry i of a home's pool lies. -/
def State.poolAddr (s : State) (home : ClusterKey) (i : Nat) : PhysAddr :=
  pkgOfClu home * 2 ^ 42 + home / 24 % 4 * 2 ^ 40 + home % 24 * 2 ^ 32 + (s.clu home).poolBase.toNat * 65536 + 128 * i

/-- The wts that a pool entry holds. -/
def State.poolWts (s : State) (home : ClusterKey) (i : Nat) : Nat :=
  bytesNat (Memory.getN s.mem (s.poolAddr home i + 64) 8)

/-- The home whose pool holds a sector's older versions: the one that has an entry of it, else the one named. -/
def State.chainHome (s : State) (pa : PhysAddr) (home : ClusterKey) : ClusterKey :=
  if (s.sector pa).chain.isEmpty then home
  else match s.clusters.find? (fun (_, k) => k.poolUsed.any (fun e => e.2 == sectorOf pa)) with
    | some (c, _) => c
    | none => home

/-- An entry at place j of a sector's chain is dead when the next newer version has wts ≤ the floor (R363). -/
def State.deadAt (s : State) (home : ClusterKey) (pa : PhysAddr) (j : Nat) : Bool :=
  let ch := (s.sector pa).chain
  let newer := if j = 0 then (s.sector pa).wts else s.poolWts home (ch.getD (j - 1) 0)
  newer ≤ (s.clu home).floor

/-- Keep the newest n entries of a sector's chain and free the others; each freed while not dead raises LOST (R363). -/
def State.cutChain (s : State) (home : ClusterKey) (pa : PhysAddr) (n : Nat) : State :=
  let ch := (s.sector pa).chain
  let gone := ch.drop n
  let alive := ((List.range ch.length).drop n).countP (fun j => !s.deadAt home pa j)
  if gone.isEmpty then s
  else
    let s := s.modClu home (fun k => { k with
      poolUsed := k.poolUsed.filter (fun e => !gone.contains e.1), lost := k.lost + BitVec.ofNat 32 alive })
    let s := s.modSector pa (fun x => { x with chain := ch.take n })
    match (ch.take n).getLast? with
    | some i => { s with mem := Memory.setN s.mem (s.poolAddr home i + 80) (natBytes 8 (2 ^ 64 - 1)) }
    | none => s

/-- Free every dead entry of a sector: they are the oldest of its chain (R360, R363). -/
def State.freeDead (s : State) (home : ClusterKey) (pa : PhysAddr) : State :=
  match (List.range (s.sector pa).chain.length).find? (fun j => s.deadAt home pa j) with
  | some j => s.cutChain home pa j
  | none => s

/-- Entries of a home's pool (R362). -/
def State.poolSize (s : State) (home : ClusterKey) : Nat := (s.clu home).poolLen.toNat * 512

/-- Free the entry of smallest wts in the whole pool, the lowest index on a tie, with what is older in its chain (R363). -/
def State.freeSmallest (s : State) (home : ClusterKey) : State :=
  let used := (s.clu home).poolUsed
  match minOf (used.map (fun e => s.poolWts home e.1)) with
  | none => s
  | some w =>
    match minOf ((used.filter (fun e => s.poolWts home e.1 = w)).map Prod.fst) with
    | none => s
    | some i =>
      match used.find? (fun e => e.1 = i) with
      | none => s
      | some e => s.cutChain home e.2 ((s.sector e.2).chain.findIdx (· = i))

/-- Before a write with V = 1: the newest version moves into the pool (R359, R363). newWts is the wts of the write. -/
def State.moveToPool (s : State) (home : ClusterKey) (pa : PhysAddr) (newWts : Nat) : State :=
  let s := s.freeDead home pa
  if s.poolSize home = 0 then
    if newWts ≤ (s.clu home).floor then s
    else s.modClu home (fun k => { k with lost := k.lost + 1 })
  else
    let s := if 7 ≤ (s.sector pa).chain.length then s.cutChain home pa 6 else s
    let s := if s.poolSize home ≤ (s.clu home).poolUsed.length then s.freeSmallest home else s
    -- DESIGN CHOICE: the lowest free index is taken (log 21)
    match (List.range ((s.clu home).poolUsed.length + 1)).find? (fun i => !(s.clu home).poolUsed.any (fun e => e.1 == i)) with
    | none => s
    | some i =>
      let x := s.sector pa
      let a := s.poolAddr home i
      let next := match x.chain with | [] => 2 ^ 64 - 1 | j :: _ => j
      let bytes := Memory.getN s.mem (sectorOf pa) 64 ++ natBytes 8 x.wts ++ natBytes 8 (sectorOf pa % 2 ^ 42) ++ natBytes 8 next ++ natBytes 40 0
      let s := { s with mem := Memory.setN s.mem a bytes }
      let s := s.modSector a (fun y => { y with poison := x.poison })
      let s := s.modClu home (fun k => { k with poolUsed := setKey k.poolUsed i (sectorOf pa) })
      s.modSector pa (fun y => { y with chain := i :: y.chain })

/-! ### Writes and reads at a home -/

/-- The wts that a write of logical time ts receives (R110). -/
def State.nextWts (s : State) (pa : PhysAddr) (ts : Nat) : Nat := 1 + max ts (max (s.sector pa).wts (s.sector pa).rts)

/-- What a write does to the publish state of its line (R107, R372). -/
def State.markWritten (s : State) (pa : PhysAddr) (code : Bool) : State :=
  if code || s.line pa != .none then { s with lines := setKey s.lines (lineOf pa) .written } else s

/-- Reservations on a line break (R123). -/
def State.breakLine (s : State) (pa : PhysAddr) : State :=
  { s with clusters := s.clusters.map (fun (c, k) => (c, { k with resv := k.resv.filter (fun r => r.line != lineOf pa) })) }

/-- A home applies a write with a given wts to bytes that lie in one sector (R110, R359, R372, R391). -/
def State.writeAt (s : State) (home : ClusterKey) (pa : PhysAddr) (bs : List Byte) (wts : Nat) (v code : Bool) : State :=
  let h := s.chainHome pa home
  let s := if v then s.moveToPool h pa wts else s.cutChain h pa 0
  let s := { s with mem := Memory.setN s.mem pa bs }
  let s := s.modSector pa (fun x => { x with wts := wts, poison := if bs.length = 64 then none else x.poison })
  let s := s.markWritten pa code
  let s := s.breakLine pa
  s.notify (.mem (sectorOf pa)) (sectorOf pa) wts

/-- A home applies a write that carries ts: its wts and the state after (R110). -/
def State.homeWrite (s : State) (home : ClusterKey) (pa : PhysAddr) (bs : List Byte) (ts : Nat) (v code : Bool) : Nat × State :=
  let w := s.nextWts pa ts
  (w, s.writeAt home pa bs w v code)

/-- A home applies the bytes of a masked sector image with a given wts (R151, R153). -/
def State.writeMasked (s : State) (home : ClusterKey) (sector : PhysAddr) (data : VWord) (mask : BitVec 64) (wts : Nat) (code : Bool) : State :=
  let old := Memory.getN s.mem sector 64
  let new := (numbered old).map (fun (i, b) => if mask.getLsbD i then (data >>> (8 * i)).setWidth 8 else b)
  let poison := (s.sector sector).poison
  let s := s.writeAt home sector new wts true code
  if mask = BitVec.allOnes 64 then s else s.modSector sector (fun x => { x with poison := poison })

/-- The bytes of a value. -/
def vBytes (n : Nat) (v : VWord) : List Byte := natBytes n v.toNat

/-- A value of n bytes read from memory. -/
def State.memVal (s : State) (pa : PhysAddr) (n : Nat) : VWord := BitVec.ofNat 512 (bytesNat (Memory.getN s.mem pa n))

/-- Grant a lease: rts := max(rts, t) (R109, R278). A locked sector keeps its rts (R279). -/
def State.grant (s : State) (pa : PhysAddr) (t : Nat) : State :=
  s.modSector pa (fun x => if x.lock.isSome then x else { x with rts := max x.rts t })

/-- The place of the version that a snapshot load at T reads: the frame, a pool entry, or none when it is lost (R149, R360). -/
def State.versionAt (s : State) (home : ClusterKey) (pa : PhysAddr) (T : Nat) : Option PhysAddr :=
  if (s.sector pa).wts ≤ T then some (sectorOf pa)
  else
    let h := s.chainHome pa home
    ((s.sector pa).chain.find? (fun i => s.poolWts h i ≤ T)).map (fun i => s.poolAddr h i)

/-- The home that an access translated by no PTE reaches: the vault's cluster; for LPDDR6 the model's choice, cluster 0 of the die (log 22). -/
def physHome (pa : PhysAddr) : ClusterKey := if inLpddr pa then dieOfPA pa * 24 else vaultClu pa

/-- The place of an agent in the sender order of R15: threads and engines by core and slot, then ports, drains, launch units and host ports (log 128). -/
def agentRank : Agent → Nat
  | .thread t => senderRank t.core t.slot
  | .engine c _ _ => senderRank c 16
  | .port r p _ => 2 ^ 41 + r * 8 + p
  | .drain r _ => 2 ^ 41 + r * 8 + 4
  | .launchUnit d => 2 ^ 42 + d
  | .host p => 2 ^ 42 + 2 ^ 41 + p

/-- Bytes from an address upward, cut at sector boundaries: each piece with its address. -/
def bytePieces (pa : Nat) (bs : List Byte) : List (Nat × List Byte) :=
  (List.range ((pa % 64 + bs.length + 63) / 64)).map (fun i =>
    let a := if i = 0 then pa else pa / 64 * 64 + 64 * i
    (a, (bs.drop (a - pa)).take (64 - a % 64)))

/-- The store of bytes of one sector that a unit of the package sends, carrying a time; its acknowledgement takes the way back from the home (R110, R416). -/
def State.unitStore (s : State) (ag : Agent) (src home : ClusterKey) (pa : PhysAddr) (bs : List Byte) (ts : Nat) (v code : Bool) (bad : Option Nat) : Access :=
  { agent := ag, id := s.fresh, op := .store, ctx := 0, va := 0, pa := pa, home := home, src := src, size := bs.length
    ts := ts, snap := 0, ordered := false, vbit := v, code := code, uncached := true
    data := BitVec.ofNat 512 (bytesNat bs), cmp := 0, dst := none, ext := .zero, word := 0, issue := s.cycle
    reply := s.accessLatency src home pa - s.homeLatency src home / 2, queued := false, bad := bad }

/-- The launch unit of a die writes bytes at physical addresses: its stores take their turns at the homes in this cycle (R110, R257; log 128). -/
def State.unitWrite (s : State) (d : DieKey) (pa : PhysAddr) (bs : List Byte) : State :=
  (bytePieces pa bs).foldl (fun s (a, b) =>
    s.post s.now (agentRank (.launchUnit d)) (.homeStore (s.unitStore (.launchUnit d) (24 * d) (physHome a) a b (s.die d).time false false none))) s

/-! ### Scratchpads -/

/-- The poison source of the words that bytes off … off + n − 1 of a scratchpad meet (R391). -/
def Core.spadPoisonIn (k : Core) (off n : Nat) : Option Nat :=
  (k.spadPoison.find? (fun e => off / 8 ≤ e.1 && e.1 ≤ (off + n - 1) / 8)).map Prod.snd

/-- Poison that a write of bytes off … off + n − 1 leaves: a word that one write covers whole is clean (R391). -/
def clearPoison (l : List (Nat × Nat)) (off n : Nat) : List (Nat × Nat) :=
  l.filter (fun e => !(off ≤ 8 * e.1 && 8 * e.1 + 8 ≤ off + n))

/-- The primary of a mirrored pair that a core belongs to. -/
def State.primaryOf (s : State) (c : CoreKey) : Option CoreKey :=
  match (s.core c).shadowOf with
  | some p => some p
  | none => if (s.core c).mirror.isSome then some c else none

/-- One entry of the undo log for a word of a core of a mirrored pair (R395, R399). -/
def State.undoLog (s : State) (p c : CoreKey) (word : Nat) : State :=
  match (s.core p).mirror with
  | none => s
  | some m =>
    let n := if c = p then m.logCount else m.logShadow
    let base := (s.core p).mirrLbase.toNat * 4096 + 16 * n
    let k := s.core c
    let full := if k.full.contains word then 2 ^ 63 else 0
    let bytes := natBytes 8 (8 * word + full) ++ Memory.getN k.spad (8 * word) 8
    let s := s.modCore c (fun k => { k with spad := Memory.setN k.spad base bytes })
    s.modCore p (fun k => { k with mirror := some (if c = p then { m with logCount := n + 1 } else { m with logShadow := n + 1 }) })

/-- Log every word that a write of a mirrored core touches. -/
def State.undoLogRange (s : State) (c : CoreKey) (off n : Nat) : State :=
  match s.primaryOf c with
  | none => s
  | some p => (List.range ((off + n - 1) / 8 + 1 - off / 8)).foldl (fun s i => s.undoLog p c (off / 8 + i)) s

/-- What comes from outside a mirrored pair is not undone by a rollback: the pair's log counts stay (R395). -/
def State.unlogged (s : State) (c : CoreKey) (f : State → State) : State :=
  match (s.primaryOf c).bind (fun p => (s.core p).mirror.map (fun m => (p, m))) with
  | none => f s
  | some (p, m) => (f s).modCore p (fun k => { k with mirror := k.mirror.map (fun x => { x with logCount := m.logCount, logShadow := m.logShadow }) })

/-- The pair has stopped, and its checkpoint is taken: what comes from outside may act on it (R395, R397). -/
def State.pairStopped (s : State) (p : CoreKey) : Bool := s.cycle < (s.core p).stopUntil && (s.core p).mirror.all (fun m => !m.waits)

/-- A slot of the checkpoint copies of a pair changes (R395). -/
def State.modCopies (s : State) (p : CoreKey) (i : Nat) (f : Slot → Slot) : State :=
  s.modCore p (fun k => { k with mirror := k.mirror.map (fun m => { m with ckSlots := setAt m.ckSlots i f, ckShadow := setAt m.ckShadow i f }) })

/-- Write bytes into a scratchpad: poison of words written whole goes, monitors on the blocks latch (R134, R391). -/
def State.spadWrite (s : State) (c : CoreKey) (off : Nat) (bs : List Byte) : State :=
  let s := s.undoLogRange c off bs.length
  let s := s.modCore c (fun k => { k with
    spad := Memory.setN k.spad off bs, spadPoison := clearPoison k.spadPoison off bs.length })
  (List.range ((off + bs.length - 1) / 64 + 1 - off / 64)).foldl
    (fun s i => s.notify (.spad c (off / 64 + i)) (off / 64 + i) 0) s

/-- Mark the words of a scratchpad range poisoned (R391). -/
def State.spadPoisonAt (s : State) (c : CoreKey) (off n source : Nat) : State :=
  s.modCore c (fun k => { k with spadPoison :=
    (List.range ((off + n - 1) / 8 + 1 - off / 8)).foldl (fun l i => setKey l (off / 8 + i) source) k.spadPoison })

/-- The cores that an access from outside reaches: both of a mirrored pair (R395). -/
def State.pairOf (s : State) (c : CoreKey) : List CoreKey :=
  match s.primaryOf c with
  | none => [c]
  | some p => p :: ((s.core p).mirror.map Mirror.shadow).toList

/-- Bytes that come from outside a core's slots are written into its scratchpad, in both cores of a mirrored pair (R395). -/
def State.spadDeliver (s : State) (c : CoreKey) (off : Nat) (bs : List Byte) (poison : Option Nat) : State :=
  s.unlogged c (fun s => (s.pairOf c).foldl (fun s d =>
    let s := s.spadWrite d off bs
    match poison with
    | some src => s.spadPoisonAt d off bs.length src
    | none => s) s)

/-- Bytes of a scratchpad. -/
def Core.spadRead (k : Core) (off n : Nat) : List Byte := Memory.getN k.spad off n

/-- A value of n bytes of a scratchpad. -/
def Core.spadVal (k : Core) (off n : Nat) : VWord := BitVec.ofNat 512 (bytesNat (k.spadRead off n))

/-- Set or clear the full/empty bit of a word (R116, R255). -/
def State.setFull (s : State) (c : CoreKey) (word : Nat) (full : Bool) : State :=
  s.modCore c (fun k => { k with full := if full then (if k.full.contains word then k.full else word :: k.full) else k.full.filter (· != word) })

/-! ### The error log (R392, R393) -/

/-- An event of the error log, before its place and time are added. -/
structure LogEvent where
  type : Nat
  cause : Nat
  source : Nat
  cluster : Nat
  core : Nat
  slot : Nat
  dw2 : Word
  dw3 : Word
  deriving DecidableEq, Repr

/-- An event reaches a die's launch unit, which writes the entries of its error log in order, one in a cycle (R392). -/
def State.logError (s : State) (d : DieKey) (e : LogEvent) : State :=
  let dw0 := e.type + e.cause * 2 ^ 8 + e.source * 2 ^ 17 + d % 4 * 2 ^ 21 + e.cluster * 2 ^ 23 + e.core * 2 ^ 28 + e.slot * 2 ^ 32
  s.modDie d (fun x => { x with elWait := x.elWait ++ [[BitVec.ofNat 64 dw0, BitVec.ofNat 64 (s.cyc (d / 4)), e.dw2, e.dw3]] })

/-- The next entry of a die's error log is written; a full ring drops it and sets OVF, a disabled log drops it (R392). -/
def State.writeLog (s : State) (d : DieKey) : State :=
  let x := s.die d
  match x.elWait with
  | [] => s
  | e :: rest =>
    let s := s.modDie d (fun x => { x with elWait := rest })
    if x.elogLog.toNat < 4 ∨ 16 < x.elogLog.toNat then s
    else if (x.elTail - x.elHead).toNat = 2 ^ x.elogLog.toNat then s.modDie d (fun x => { x with elOvf := true })
    else
      let s := s.unitWrite d (d / 4 * 2 ^ 42 + x.elogBase.toNat * 4096 + 32 * (x.elTail.toNat % 2 ^ x.elogLog.toNat)) (e.flatMap wordBytes)
      s.modDie d (fun x => { x with elTail := x.elTail + 1 })

/-- The place fields of an entry about a core. -/
def LogEvent.ofCore (type cause source : Nat) (c : CoreKey) (slot : Nat) (dw2 dw3 : Word) : LogEvent :=
  { type := type, cause := cause, source := source, cluster := cluOf c % 24, core := c % 16, slot := slot, dw2 := dw2, dw3 := dw3 }

/-- The place fields of an entry about a cluster. -/
def LogEvent.ofClu (type cause source : Nat) (k : ClusterKey) (dw2 dw3 : Word) : LogEvent :=
  { type := type, cause := cause, source := source, cluster := k % 24, core := 0, slot := 0, dw2 := dw2, dw3 := dw3 }

end Sys2Proof.Machine
end

