-- ==== Sys2Proof/Machine/Operands.lean ====
section
/-! DEFINITION. Operand forms: what each instruction reads and writes (R10, R12, R74, R218), and the extensions of immediates. -/

namespace Sys2Proof.Machine

open Sys2Proof

/-- The g register after one. -/
def next (r : Fin 32) : Fin 32 := r + 1
/-- The v register after one. -/
def nextV (r : Fin 16) : Fin 16 := r + 1

/-- The n + 1 registers from a: the arguments of a call (R208). -/
def argRegs (a : Fin 32) (n : Fin 8) : List (Fin 32) := (List.range (n.val + 1)).map (fun i => a + ⟨i % 32, Nat.mod_lt _ (by decide)⟩)

/-- g1 to g8: what spawn and mig carry (R143, R219). -/
def carried : List (Fin 32) := [1, 2, 3, 4, 5, 6, 7, 8]

/-- The registers that an instruction reads as sources, in the order in which R218 examines them; of vscat the mask before the data (DESIGN CHOICE, log 146). -/
def sources : Instr → List RegName
  | .add _ a b => [.g a, .g b]
  | .sub _ a b => [.g a, .g b]
  | .and _ a b => [.g a, .g b]
  | .or _ a b => [.g a, .g b]
  | .xor _ a b => [.g a, .g b]
  | .andn _ a b => [.g a, .g b]
  | .sll _ a b => [.g a, .g b]
  | .srl _ a b => [.g a, .g b]
  | .sra _ a b => [.g a, .g b]
  | .slt _ a b => [.g a, .g b]
  | .sltu _ a b => [.g a, .g b]
  | .min _ a b => [.g a, .g b]
  | .max _ a b => [.g a, .g b]
  | .minu _ a b => [.g a, .g b]
  | .maxu _ a b => [.g a, .g b]
  | .adds _ a b => [.g a, .g b]
  | .subs _ a b => [.g a, .g b]
  | .addi _ a _ => [.g a]
  | .andi _ a _ => [.g a]
  | .ori _ a _ => [.g a]
  | .xori _ a _ => [.g a]
  | .slli _ a _ => [.g a]
  | .srli _ a _ => [.g a]
  | .srai _ a _ => [.g a]
  | .slti _ a _ => [.g a]
  | .sltiu _ a _ => [.g a]
  | .ldi _ _ => []
  | .lsh d _ => [.g d]
  | .mul _ a b => [.g a, .g b]
  | .mulh _ a b => [.g a, .g b]
  | .mulhu _ a b => [.g a, .g b]
  | .div _ a b => [.g a, .g b]
  | .divCk _ a b => [.g a, .g b]
  | .divu _ a b => [.g a, .g b]
  | .divuCk _ a b => [.g a, .g b]
  | .rem _ a b => [.g a, .g b]
  | .remCk _ a b => [.g a, .g b]
  | .remu _ a b => [.g a, .g b]
  | .remuCk _ a b => [.g a, .g b]
  | .movz _ a b => [.g a, .g b]
  | .movn _ a b => [.g a, .g b]
  | .clz _ a => [.g a]
  | .ctz _ a => [.g a]
  | .popc _ a => [.g a]
  | .fadd _ a b _ => [.g a, .g b]
  | .fsub _ a b _ => [.g a, .g b]
  | .fmul _ a b _ => [.g a, .g b]
  | .fdiv _ a b _ => [.g a, .g b]
  | .fsqrt _ a _ => [.g a]
  | .fmin _ a b _ => [.g a, .g b]
  | .fmax _ a b _ => [.g a, .g b]
  | .fcsign _ a b _ => [.g a, .g b]
  | .fnsign _ a b _ => [.g a, .g b]
  | .fxsign _ a b _ => [.g a, .g b]
  | .feq _ a b _ => [.g a, .g b]
  | .flt _ a b _ => [.g a, .g b]
  | .fle _ a b _ => [.g a, .g b]
  | .fkind _ a _ => [.g a]
  | .fcvt _ a _ _ => [.g a]
  | .fcvti _ a _ _ => [.g a]
  | .fcvtiu _ a _ _ => [.g a]
  | .icvtf _ a _ => [.g a]
  | .ucvtf _ a _ => [.g a]
  | .fmadd _ a b c _ => [.g a, .g b, .g c]
  | .fmsub _ a b c _ => [.g a, .g b, .g c]
  | .fnmadd _ a b c _ => [.g a, .g b, .g c]
  | .fnmsub _ a b c _ => [.g a, .g b, .g c]
  | .beq a b _ => [.g a, .g b]
  | .bne a b _ => [.g a, .g b]
  | .blt a b _ => [.g a, .g b]
  | .bge a b _ => [.g a, .g b]
  | .bltu a b _ => [.g a, .g b]
  | .bgeu a b _ => [.g a, .g b]
  | .bmany a _ => [.m a]
  | .bmnone a _ => [.m a]
  | .bmall a _ => [.m a]
  | .bmnall a _ => [.m a]
  | .jal _ _ => []
  | .jalr _ a _ => [.g a]
  | .crr _ _ => []
  | .crw a _ => [.g a]
  | .crs _ a _ => [.g a]
  | .crc _ a _ => [.g a]
  | .exit => []
  | .scall _ => []
  | .brk => []
  | .hret => []
  | .sret => []
  | .ldB _ a _ => [.g a]
  | .ldBu _ a _ => [.g a]
  | .ldH _ a _ => [.g a]
  | .ldHu _ a _ => [.g a]
  | .ldW _ a _ => [.g a]
  | .ldWu _ a _ => [.g a]
  | .ldD _ a _ => [.g a]
  | .stB s a _ => [.g a, .g s]
  | .stH s a _ => [.g a, .g s]
  | .stW s a _ => [.g a, .g s]
  | .stD s a _ => [.g a, .g s]
  | .ldV _ a _ => [.g a]
  | .stV s a _ => [.g a, .v s]
  | .vgath _ a b mk => [.g a, .v b, .m mk]
  | .vscat s a b mk => [.g a, .v b, .m mk, .v s]
  | .ldfe _ n _ _ => [.g n]
  | .ldff _ n _ _ => [.g n]
  | .stfe t n _ _ => [.g n, .g t]
  | .stf t n _ _ => [.g n, .g t]
  | .ste t n _ _ => [.g n, .g t]
  | .ldBuAcq _ n _ _ => [.g n]
  | .ldHuAcq _ n _ _ => [.g n]
  | .ldWuAcq _ n _ _ => [.g n]
  | .ldDAcq _ n _ _ => [.g n]
  | .stBRel t n _ _ => [.g n, .g t]
  | .stHRel t n _ _ => [.g n, .g t]
  | .stWRel t n _ _ => [.g n, .g t]
  | .stDRel t n _ _ => [.g n, .g t]
  | .amoAdd _ n s _ _ => [.g n, .g s]
  | .amoAnd _ n s _ _ => [.g n, .g s]
  | .amoOr _ n s _ _ => [.g n, .g s]
  | .amoXor _ n s _ _ => [.g n, .g s]
  | .amoMax _ n s _ _ => [.g n, .g s]
  | .amoMin _ n s _ _ => [.g n, .g s]
  | .amoSwap _ n s _ _ => [.g n, .g s]
  | .amoFadd _ n s _ _ => [.g n, .g s]
  | .amoMaxu _ n s _ _ => [.g n, .g s]
  | .amoMinu _ n s _ _ => [.g n, .g s]
  | .amoFmax _ n s _ _ => [.g n, .g s]
  | .amoFmin _ n s _ _ => [.g n, .g s]
  | .lres _ n _ _ => [.g n]
  | .scnd _ n s _ _ => [.g n, .g s]
  | .cas t n s _ _ => [.g n, .g s, .g t]
  | .red _ _ n s _ _ => [.g n, .g s]
  | .redo t n s => [.g n, .g s, .g t]
  | .ordset _ n s => [.g n, .g s]
  | .fence _ _ => []
  | .cpub n s _ => [.g n, .g s]
  | .barArr _ s _ => [.g s]
  | .barWt _ _ => []
  | .bar _ s _ => [.g s]
  | .mon _ a => [.g a]
  | .monx => []
  | .wait _ => []
  | .fill a b => [.g a, .g b]
  | .openReg _ => []
  | .msend a b => [.g a, .g b]
  | .mrecv _ a b => [.g a, .g b]
  | .mpoll _ a b => [.g a, .g b]
  | .spawn _ a b => [.g a, .g b] ++ carried.map .g
  | .mig a => [.g a] ++ carried.map .g
  | .gang _ a => [.g a]
  | .split => []
  | .cfgld _ a => [.g a]
  | .lnch _ a => [.g a]
  | .snap _ => []
  | .snend => []
  | .txb _ => []
  | .txc _ => []
  | .txa => []
  | .mma _ a b => [.g a, .g b]
  | .gmma _ a b => [.g a, .g b]
  | .mmas _ a b => [.g a, .g b]
  | .mzero _ => []
  | .mdrain _ a b => [.g a, .g b]
  | .mdrainZ _ a b => [.g a, .g b]
  | .mdrainRel _ a b => [.g a, .g b]
  | .mvaToVector _ _ b => [.g b]
  | .mvaToAccumulator _ a b => [.v a, .g b]
  | .mwait _ => []
  | .mwaitRel _ => []
  | .cpy d a b => [.g a, .g b, .g d]
  | .cpy2 d a b => [.g a, .g (next a), .g b, .g d, .g (next d)]
  | .gath d a b => [.g a, .g (next a), .g b, .g d]
  | .scat d a b => [.g a, .g (next a), .g b, .g d]
  | .wsld d a b => [.g a, .g b, .g d]
  | .cwait _ => []
  | .gres => []
  | .gcan => []
  | .swset a b => [.g a, .g b]
  | .swwait _ a b => [.g a, .g b]
  | .serve _ a n _ => (argRegs a n).map .g
  | .servn _ a n _ => (argRegs a n).map .g
  | .vbcst _ a mk => [.g a, .m mk]
  | .vins _ a b => [.g a, .g b]
  | .vext _ a b => [.v a, .g b]
  | .vexts _ a b => [.v a, .g b]
  | .mtm _ a => [.g a]
  | .mfm _ a => [.m a]
  | .mpopc _ a => [.m a]
  | .mffs _ a => [.m a]
  | .vfaddS _ a b mk => [.v a, .v b, .m mk]
  | .vfsubS _ a b mk => [.v a, .v b, .m mk]
  | .vfmulS _ a b mk => [.v a, .v b, .m mk]
  | .vfdivS _ a b mk => [.v a, .v b, .m mk]
  | .vfsqrtS _ a mk => [.v a, .m mk]
  | .vfminS _ a b mk => [.v a, .v b, .m mk]
  | .vfmaxS _ a b mk => [.v a, .v b, .m mk]
  | .vfcsignS _ a b mk => [.v a, .v b, .m mk]
  | .vfnsignS _ a b mk => [.v a, .v b, .m mk]
  | .vfxsignS _ a b mk => [.v a, .v b, .m mk]
  | .vadd _ a b mk => [.v a, .v b, .m mk]
  | .vsub _ a b mk => [.v a, .v b, .m mk]
  | .vmul _ a b mk => [.v a, .v b, .m mk]
  | .vand _ a b mk => [.v a, .v b, .m mk]
  | .vor _ a b mk => [.v a, .v b, .m mk]
  | .vxor _ a b mk => [.v a, .v b, .m mk]
  | .vsll _ a b mk => [.v a, .v b, .m mk]
  | .vsrl _ a b mk => [.v a, .v b, .m mk]
  | .vsra _ a b mk => [.v a, .v b, .m mk]
  | .vmin _ a b mk => [.v a, .v b, .m mk]
  | .vmax _ a b mk => [.v a, .v b, .m mk]
  | .vminu _ a b mk => [.v a, .v b, .m mk]
  | .vmaxu _ a b mk => [.v a, .v b, .m mk]
  | .vadds _ a b mk => [.v a, .v b, .m mk]
  | .vsubs _ a b mk => [.v a, .v b, .m mk]
  | .vfmaddS _ a b c mk => [.v a, .v b, .v c, .m mk]
  | .vfeqS _ a b mk => [.v a, .v b, .m mk]
  | .vfltS _ a b mk => [.v a, .v b, .m mk]
  | .vfleS _ a b mk => [.v a, .v b, .m mk]
  | .veq _ a b mk => [.v a, .v b, .m mk]
  | .vne _ a b mk => [.v a, .v b, .m mk]
  | .vlt _ a b mk => [.v a, .v b, .m mk]
  | .vle _ a b mk => [.v a, .v b, .m mk]
  | .vltu _ a b mk => [.v a, .v b, .m mk]
  | .vleu _ a b mk => [.v a, .v b, .m mk]
  | .mand _ a b => [.m a, .m b]
  | .mor _ a b => [.m a, .m b]
  | .mxor _ a b => [.m a, .m b]
  | .mandn _ a b => [.m a, .m b]
  | .mnot _ a => [.m a]
  | .vcvtWS _ a mk => [.v a, .m mk]
  | .vcvtWuS _ a mk => [.v a, .m mk]
  | .vcvtSW _ a mk => [.v a, .m mk]
  | .vcvtSWu _ a mk => [.v a, .m mk]
  | .vcvtHS _ a b => [.v a, .v b]
  | .vcvtBfS _ a b => [.v a, .v b]
  | .vcvtSHLo _ a mk => [.v a, .m mk]
  | .vcvtSHHi _ a mk => [.v a, .m mk]
  | .vcvtSBfLo _ a mk => [.v a, .m mk]
  | .vcvtSBfHi _ a mk => [.v a, .m mk]
  | .vquantTap8P0 _ a _ => [.v a, .v (nextV a)]
  | .vquantTap8P1 _ a _ => [.v a, .v (nextV a)]
  | .vquantTap6P0 _ a _ => [.v a, .v (nextV a)]
  | .vquantTap6P1 _ a _ => [.v a, .v (nextV a)]
  | .vdeqTap8Q0 _ a b mk => [.v a, .m b, .m mk]
  | .vdeqTap8Q1 _ a b mk => [.v a, .m b, .m mk]
  | .vdeqTap8Q2 _ a b mk => [.v a, .m b, .m mk]
  | .vdeqTap8Q3 _ a b mk => [.v a, .m b, .m mk]
  | .vdeqTap6Q0 _ a b mk => [.v a, .m b, .m mk]
  | .vdeqTap6Q1 _ a b mk => [.v a, .m b, .m mk]
  | .vdeqTap6Q2 _ a b mk => [.v a, .m b, .m mk]
  | .vdeqTap6Q3 _ a b mk => [.v a, .m b, .m mk]
  | .vdeqTap6Q4 _ a b mk => [.v a, .m b, .m mk]
  | .vcnzB _ a mk => [.v a, .m mk]
  | .vcnzTap6 _ a mk => [.v a, .m mk]
  | .vcnzH _ a mk => [.v a, .m mk]
  | .vcnzS _ a mk => [.v a, .m mk]
  | .vcnzW _ a mk => [.v a, .m mk]
  | .vredFaddS _ a mk => [.v a, .m mk]
  | .vredFminS _ a mk => [.v a, .m mk]
  | .vredFmaxS _ a mk => [.v a, .m mk]
  | .vredAdd _ a mk => [.v a, .m mk]
  | .vredMin _ a mk => [.v a, .m mk]
  | .vredMax _ a mk => [.v a, .m mk]
  | .vredMinu _ a mk => [.v a, .m mk]
  | .vredMaxu _ a mk => [.v a, .m mk]
  | .vredAnd _ a mk => [.v a, .m mk]
  | .vredOr _ a mk => [.v a, .m mk]
  | .vredXor _ a mk => [.v a, .m mk]
  | .vperm _ a b mk => [.v a, .v b, .m mk]
  | .vrot _ a b mk => [.v a, .g b, .m mk]
  | .vmerge _ a b mk => [.v a, .v b, .m mk]
  | .vfrecipS _ a mk => [.v a, .m mk]
  | .vfrsqrtS _ a mk => [.v a, .m mk]
  | .vfexp2S _ a mk => [.v a, .m mk]
  | .vflog2S _ a mk => [.v a, .m mk]
  | .longOperationCompletion _ => []
  | .fillArrival _ => []
  | .openWaitLimit _ => []
  | .interruptTaken _ => []
  | .gangFollowerIssue _ => []
  | .threadRetirement _ => []
  | .slotScrub _ => []
  | .contextArrival _ => []
  | .contextInstallation _ => []
  | .spillMove _ _ => []
  | .contextReply _ _ => []
  | .refusalResend _ => []
  | .migrationWaitLimit _ _ => []
  | .contextSwitchScrub _ _ => []
  | .timeTick _ => []
  | .clusterCacheAccess _ => []
  | .homeLoad _ => []
  | .homeStore _ => []
  | .storeAcknowledgement _ => []
  | .atomicUnitOperation _ => []
  | .reductionApply _ => []
  | .ordsetDeclaration _ => []
  | .sliceOrderedMerge _ => []
  | .reservationExpiry _ _ => []
  | .instructionLineFill _ _ => []
  | .pageWalkCompletion _ _ => []
  | .remoteRequestArrival _ => []
  | .remotePortAccess _ => []
  | .taggedOperationPerformed _ _ => []
  | .taggedReply _ _ _ _ _ => []
  | .taggedWaitLimit _ _ => []
  | .taggedBudgetExpiry _ _ => []
  | .taggedCancelArrival _ _ => []
  | .monitorArmAcknowledgement _ _ _ _ => []
  | .monitorLatch _ _ _ _ => []
  | .waitTimeout _ _ => []
  | .barrierArrival _ _ _ _ => []
  | .barrierPhaseCompletion _ => []
  | .barrierRelease _ _ _ => []
  | .barrierWaitLimit _ _ => []
  | .messageArrival _ => []
  | .messageReply _ _ => []
  | .mailboxNoticeArrival _ _ => []
  | .mailboxWaitLimit _ _ => []
  | .registryRequest _ _ => []
  | .registryAnswer _ _ _ _ _ => []
  | .floorSample _ => []
  | .floorApply _ _ => []
  | .collectorSweep _ => []
  | .transactionPrepare _ _ _ => []
  | .transactionVotesComplete _ _ => []
  | .transactionCommitApply _ _ _ _ => []
  | .publishMark _ _ => []
  | .cpubTimeBroadcast _ _ _ _ => []
  | .shootdownCompletion _ _ => []
  | .copyCommandStart _ => []
  | .copyBlockRead _ => []
  | .copyBlockWrite _ _ _ => []
  | .copyBlockAcknowledgement _ _ _ _ => []
  | .syncWordWaitLimit _ _ => []
  | .tileCommandStart _ => []
  | .tileCommandCompletion _ => []
  | .gmmaJoin _ => []
  | .accumulatorReleaseStep _ _ => []
  | .tileWaitLimit _ => []
  | .weightStoreRefresh _ => []
  | .drainArrival _ => []
  | .drainCompletion _ _ => []
  | .callArrival _ => []
  | .argumentPortAccept _ => []
  | .resultPortTake _ => []
  | .serverReply _ _ => []
  | .serverResult _ => []
  | .configurationLoad _ _ _ => []
  | .configurationLoadCompletion _ _ => []
  | .memoryPortAccess _ _ => []
  | .memoryPortReply _ _ _ _ _ _ => []
  | .portTranslationRefill _ _ _ => []
  | .counterChainEmit _ _ => []
  | .reductionUnitStep _ _ => []
  | .specialFunctionStep _ _ => []
  | .butterflyConversion _ => []
  | .markerPass _ _ => []
  | .cellPass _ _ => []
  | .cellAdd _ _ => []
  | .cellSub _ _ => []
  | .cellMul _ _ => []
  | .cellAnd _ _ => []
  | .cellOr _ _ => []
  | .cellXor _ _ => []
  | .cellShl _ _ => []
  | .cellShr _ _ => []
  | .cellSra _ _ => []
  | .cellMin _ _ => []
  | .cellMax _ _ => []
  | .cellSeq _ _ => []
  | .cellSlt _ _ => []
  | .cellSltu _ _ => []
  | .cellSel _ _ => []
  | .cellFaddS _ _ => []
  | .cellFmulS _ _ => []
  | .cellFmaS _ _ => []
  | .cellFmaxS _ _ => []
  | .cellFminS _ _ => []
  | .cellFltS _ _ => []
  | .cellCbr _ _ => []
  | .cellSteer _ _ => []
  | .cellCvtSW _ _ => []
  | .cellCvtWS _ _ => []
  | .cellFnc _ _ => []
  | .linkTokenArrival _ _ _ => []
  | .linkCreditReturn _ _ => []
  | .streamGraphStart _ => []
  | .phaseEnd _ => []
  | .graphSwap _ _ _ _ => []
  | .arbiterFreeze _ => []
  | .snapArrival _ _ _ => []
  | .queueDoorbell _ _ _ => []
  | .completionRingRelease _ _ _ => []
  | .lnchSubmission _ => []
  | .launchAdmission _ => []
  | .placementRequest _ => []
  | .placementAnswer _ _ _ => []
  | .launchStart _ _ => []
  | .launchCompletion _ => []
  | .completionReport _ => []
  | .abort _ _ => []
  | .hcall _ _ _ => []
  | .inti _ _ _ => []
  | .preempt _ _ => []
  | .psave _ => []
  | .coreRecordWrite _ => []
  | .weightStoreSave _ => []
  | .rookRecordWrite _ => []
  | .saveHeaderWrite _ => []
  | .resume _ _ => []
  | .resumedThreadStart _ => []
  | .tlbiContext _ _ _ => []
  | .tlbiPage _ _ _ _ => []
  | .tlbiAll _ _ _ => []
  | .mboxWrite _ _ => []
  | .vpoolWrite _ _ => []
  | .hostWrite _ _ _ => []
  | .hostRead _ _ _ => []
  | .softError _ => []
  | .flitReplay _ => []
  | .shadowBundle _ => []
  | .checkpoint _ => []
  | .mirroredRollback _ _ _ => []
  | .releaseRegion _ => []
  | .retireCluster _ => []
  | .retirementDone _ => []
  | .lpddr6Refresh _ _ => []
  | .pcycBeacon _ _ => []
  | .coldReset _ _ => []
  | .podIdentityTimeout _ => []
  | .dieRelease _ => []
  | .status _ => []
  | .loadfw _ _ => []
  | .reset _ _ => []
  | .attest _ _ => []
  | .telem _ => []
  | .setlim _ _ => []
  | .setpod _ _ => []
  | .getrep _ => []
  | .unknownOpcode _ _ => []
  | .telemetryRefresh _ => []
  | .clockStepDown _ => []
  | .clockStepUp _ => []
  | .thermalLimit _ => []
  | .podClockStepChange _ => []
  | .fillAcknowledgement _ _ => []
  | .commitAcknowledgement _ _ _ => []
  | .hostWriteAcknowledgement _ _ _ => []
  | .imageCacheInvalidation _ _ => []

/-- The registers that an instruction names as destinations (R12, R160). -/
def dests : Instr → List RegName
  | .add d _ _ => [.g d]
  | .sub d _ _ => [.g d]
  | .and d _ _ => [.g d]
  | .or d _ _ => [.g d]
  | .xor d _ _ => [.g d]
  | .andn d _ _ => [.g d]
  | .sll d _ _ => [.g d]
  | .srl d _ _ => [.g d]
  | .sra d _ _ => [.g d]
  | .slt d _ _ => [.g d]
  | .sltu d _ _ => [.g d]
  | .min d _ _ => [.g d]
  | .max d _ _ => [.g d]
  | .minu d _ _ => [.g d]
  | .maxu d _ _ => [.g d]
  | .adds d _ _ => [.g d]
  | .subs d _ _ => [.g d]
  | .addi d _ _ => [.g d]
  | .andi d _ _ => [.g d]
  | .ori d _ _ => [.g d]
  | .xori d _ _ => [.g d]
  | .slli d _ _ => [.g d]
  | .srli d _ _ => [.g d]
  | .srai d _ _ => [.g d]
  | .slti d _ _ => [.g d]
  | .sltiu d _ _ => [.g d]
  | .ldi d _ => [.g d]
  | .lsh d _ => [.g d]
  | .mul d _ _ => [.g d]
  | .mulh d _ _ => [.g d]
  | .mulhu d _ _ => [.g d]
  | .div d _ _ => [.g d]
  | .divCk d _ _ => [.g d]
  | .divu d _ _ => [.g d]
  | .divuCk d _ _ => [.g d]
  | .rem d _ _ => [.g d]
  | .remCk d _ _ => [.g d]
  | .remu d _ _ => [.g d]
  | .remuCk d _ _ => [.g d]
  | .movz d _ _ => [.g d]
  | .movn d _ _ => [.g d]
  | .clz d _ => [.g d]
  | .ctz d _ => [.g d]
  | .popc d _ => [.g d]
  | .fadd d _ _ _ => [.g d]
  | .fsub d _ _ _ => [.g d]
  | .fmul d _ _ _ => [.g d]
  | .fdiv d _ _ _ => [.g d]
  | .fsqrt d _ _ => [.g d]
  | .fmin d _ _ _ => [.g d]
  | .fmax d _ _ _ => [.g d]
  | .fcsign d _ _ _ => [.g d]
  | .fnsign d _ _ _ => [.g d]
  | .fxsign d _ _ _ => [.g d]
  | .feq d _ _ _ => [.g d]
  | .flt d _ _ _ => [.g d]
  | .fle d _ _ _ => [.g d]
  | .fkind d _ _ => [.g d]
  | .fcvt d _ _ _ => [.g d]
  | .fcvti d _ _ _ => [.g d]
  | .fcvtiu d _ _ _ => [.g d]
  | .icvtf d _ _ => [.g d]
  | .ucvtf d _ _ => [.g d]
  | .fmadd d _ _ _ _ => [.g d]
  | .fmsub d _ _ _ _ => [.g d]
  | .fnmadd d _ _ _ _ => [.g d]
  | .fnmsub d _ _ _ _ => [.g d]
  | .beq _ _ _ => []
  | .bne _ _ _ => []
  | .blt _ _ _ => []
  | .bge _ _ _ => []
  | .bltu _ _ _ => []
  | .bgeu _ _ _ => []
  | .bmany _ _ => []
  | .bmnone _ _ => []
  | .bmall _ _ => []
  | .bmnall _ _ => []
  | .jal d _ => [.g d]
  | .jalr d _ _ => [.g d]
  | .crr d _ => [.g d]
  | .crw _ _ => []
  | .crs d _ _ => [.g d]
  | .crc d _ _ => [.g d]
  | .exit => []
  | .scall _ => []
  | .brk => []
  | .hret => []
  | .sret => []
  | .ldB d _ _ => [.g d]
  | .ldBu d _ _ => [.g d]
  | .ldH d _ _ => [.g d]
  | .ldHu d _ _ => [.g d]
  | .ldW d _ _ => [.g d]
  | .ldWu d _ _ => [.g d]
  | .ldD d _ _ => [.g d]
  | .stB _ _ _ => []
  | .stH _ _ _ => []
  | .stW _ _ _ => []
  | .stD _ _ _ => []
  | .ldV d _ _ => [.v d]
  | .stV _ _ _ => []
  | .vgath d _ _ _ => [.v d]
  | .vscat _ _ _ _ => []
  | .ldfe t _ _ _ => [.g t]
  | .ldff t _ _ _ => [.g t]
  | .stfe _ _ _ _ => []
  | .stf _ _ _ _ => []
  | .ste _ _ _ _ => []
  | .ldBuAcq t _ _ _ => [.g t]
  | .ldHuAcq t _ _ _ => [.g t]
  | .ldWuAcq t _ _ _ => [.g t]
  | .ldDAcq t _ _ _ => [.g t]
  | .stBRel _ _ _ _ => []
  | .stHRel _ _ _ _ => []
  | .stWRel _ _ _ _ => []
  | .stDRel _ _ _ _ => []
  | .amoAdd t _ _ _ _ => [.g t]
  | .amoAnd t _ _ _ _ => [.g t]
  | .amoOr t _ _ _ _ => [.g t]
  | .amoXor t _ _ _ _ => [.g t]
  | .amoMax t _ _ _ _ => [.g t]
  | .amoMin t _ _ _ _ => [.g t]
  | .amoSwap t _ _ _ _ => [.g t]
  | .amoFadd t _ _ _ _ => [.g t]
  | .amoMaxu t _ _ _ _ => [.g t]
  | .amoMinu t _ _ _ _ => [.g t]
  | .amoFmax t _ _ _ _ => [.g t]
  | .amoFmin t _ _ _ _ => [.g t]
  | .lres t _ _ _ => [.g t]
  | .scnd t _ _ _ _ => [.g t]
  | .cas t _ _ _ _ => [.g t]
  | .red _ _ _ _ _ _ => []
  | .redo _ _ _ => []
  | .ordset t _ _ => [.g t]
  | .fence _ _ => []
  | .cpub _ _ _ => []
  | .barArr _ _ _ => []
  | .barWt _ _ => []
  | .bar _ _ _ => []
  | .mon d _ => [.g d]
  | .monx => []
  | .wait d => [.g d]
  | .fill _ _ => []
  | .openReg r => [r]
  | .msend _ _ => []
  | .mrecv d _ _ => [.g d]
  | .mpoll d _ _ => [.g d]
  | .spawn d _ _ => [.g d]
  | .mig _ => []
  | .gang d _ => [.g d]
  | .split => []
  | .cfgld d _ => [.g d]
  | .lnch d _ => [.g d]
  | .snap d => [.g d]
  | .snend => []
  | .txb d => [.g d]
  | .txc d => [.g d]
  | .txa => []
  | .mma _ _ _ => []
  | .gmma _ _ _ => []
  | .mmas _ _ _ => []
  | .mzero _ => []
  | .mdrain _ _ _ => []
  | .mdrainZ _ _ _ => []
  | .mdrainRel _ _ _ => []
  | .mvaToVector d _ _ => [.v d]
  | .mvaToAccumulator _ _ _ => []
  | .mwait _ => []
  | .mwaitRel _ => []
  | .cpy _ _ _ => []
  | .cpy2 _ _ _ => []
  | .gath _ _ _ => []
  | .scat _ _ _ => []
  | .wsld _ _ _ => []
  | .cwait d => [.g d]
  | .gres => []
  | .gcan => []
  | .swset _ _ => []
  | .swwait d _ _ => [.g d]
  | .serve d _ _ _ => [.g d]
  | .servn d _ _ _ => [.g d]
  | .vbcst d _ _ => [.v d]
  | .vins d _ _ => [.v d]
  | .vext d _ _ => [.g d]
  | .vexts d _ _ => [.g d]
  | .mtm d _ => [.m d]
  | .mfm d _ => [.g d]
  | .mpopc d _ => [.g d]
  | .mffs d _ => [.g d]
  | .vfaddS d _ _ _ => [.v d]
  | .vfsubS d _ _ _ => [.v d]
  | .vfmulS d _ _ _ => [.v d]
  | .vfdivS d _ _ _ => [.v d]
  | .vfsqrtS d _ _ => [.v d]
  | .vfminS d _ _ _ => [.v d]
  | .vfmaxS d _ _ _ => [.v d]
  | .vfcsignS d _ _ _ => [.v d]
  | .vfnsignS d _ _ _ => [.v d]
  | .vfxsignS d _ _ _ => [.v d]
  | .vadd d _ _ _ => [.v d]
  | .vsub d _ _ _ => [.v d]
  | .vmul d _ _ _ => [.v d]
  | .vand d _ _ _ => [.v d]
  | .vor d _ _ _ => [.v d]
  | .vxor d _ _ _ => [.v d]
  | .vsll d _ _ _ => [.v d]
  | .vsrl d _ _ _ => [.v d]
  | .vsra d _ _ _ => [.v d]
  | .vmin d _ _ _ => [.v d]
  | .vmax d _ _ _ => [.v d]
  | .vminu d _ _ _ => [.v d]
  | .vmaxu d _ _ _ => [.v d]
  | .vadds d _ _ _ => [.v d]
  | .vsubs d _ _ _ => [.v d]
  | .vfmaddS d _ _ _ _ => [.v d]
  | .vfeqS d _ _ _ => [.m d]
  | .vfltS d _ _ _ => [.m d]
  | .vfleS d _ _ _ => [.m d]
  | .veq d _ _ _ => [.m d]
  | .vne d _ _ _ => [.m d]
  | .vlt d _ _ _ => [.m d]
  | .vle d _ _ _ => [.m d]
  | .vltu d _ _ _ => [.m d]
  | .vleu d _ _ _ => [.m d]
  | .mand d _ _ => [.m d]
  | .mor d _ _ => [.m d]
  | .mxor d _ _ => [.m d]
  | .mandn d _ _ => [.m d]
  | .mnot d _ => [.m d]
  | .vcvtWS d _ _ => [.v d]
  | .vcvtWuS d _ _ => [.v d]
  | .vcvtSW d _ _ => [.v d]
  | .vcvtSWu d _ _ => [.v d]
  | .vcvtHS d _ _ => [.v d]
  | .vcvtBfS d _ _ => [.v d]
  | .vcvtSHLo d _ _ => [.v d]
  | .vcvtSHHi d _ _ => [.v d]
  | .vcvtSBfLo d _ _ => [.v d]
  | .vcvtSBfHi d _ _ => [.v d]
  | .vquantTap8P0 d _ b => [.v d, .m b]
  | .vquantTap8P1 d _ b => [.v d, .m b]
  | .vquantTap6P0 d _ b => [.v d, .m b]
  | .vquantTap6P1 d _ b => [.v d, .m b]
  | .vdeqTap8Q0 d _ _ _ => [.v d]
  | .vdeqTap8Q1 d _ _ _ => [.v d]
  | .vdeqTap8Q2 d _ _ _ => [.v d]
  | .vdeqTap8Q3 d _ _ _ => [.v d]
  | .vdeqTap6Q0 d _ _ _ => [.v d]
  | .vdeqTap6Q1 d _ _ _ => [.v d]
  | .vdeqTap6Q2 d _ _ _ => [.v d]
  | .vdeqTap6Q3 d _ _ _ => [.v d]
  | .vdeqTap6Q4 d _ _ _ => [.v d]
  | .vcnzB d _ _ => [.v d]
  | .vcnzTap6 d _ _ => [.v d]
  | .vcnzH d _ _ => [.v d]
  | .vcnzS d _ _ => [.v d]
  | .vcnzW d _ _ => [.v d]
  | .vredFaddS d _ _ => [.g d]
  | .vredFminS d _ _ => [.g d]
  | .vredFmaxS d _ _ => [.g d]
  | .vredAdd d _ _ => [.g d]
  | .vredMin d _ _ => [.g d]
  | .vredMax d _ _ => [.g d]
  | .vredMinu d _ _ => [.g d]
  | .vredMaxu d _ _ => [.g d]
  | .vredAnd d _ _ => [.g d]
  | .vredOr d _ _ => [.g d]
  | .vredXor d _ _ => [.g d]
  | .vperm d _ _ _ => [.v d]
  | .vrot d _ _ _ => [.v d]
  | .vmerge d _ _ _ => [.v d]
  | .vfrecipS d _ _ => [.v d]
  | .vfrsqrtS d _ _ => [.v d]
  | .vfexp2S d _ _ => [.v d]
  | .vflog2S d _ _ => [.v d]
  | .longOperationCompletion _ => []
  | .fillArrival _ => []
  | .openWaitLimit _ => []
  | .interruptTaken _ => []
  | .gangFollowerIssue _ => []
  | .threadRetirement _ => []
  | .slotScrub _ => []
  | .contextArrival _ => []
  | .contextInstallation _ => []
  | .spillMove _ _ => []
  | .contextReply _ _ => []
  | .refusalResend _ => []
  | .migrationWaitLimit _ _ => []
  | .contextSwitchScrub _ _ => []
  | .timeTick _ => []
  | .clusterCacheAccess _ => []
  | .homeLoad _ => []
  | .homeStore _ => []
  | .storeAcknowledgement _ => []
  | .atomicUnitOperation _ => []
  | .reductionApply _ => []
  | .ordsetDeclaration _ => []
  | .sliceOrderedMerge _ => []
  | .reservationExpiry _ _ => []
  | .instructionLineFill _ _ => []
  | .pageWalkCompletion _ _ => []
  | .remoteRequestArrival _ => []
  | .remotePortAccess _ => []
  | .taggedOperationPerformed _ _ => []
  | .taggedReply _ _ _ _ _ => []
  | .taggedWaitLimit _ _ => []
  | .taggedBudgetExpiry _ _ => []
  | .taggedCancelArrival _ _ => []
  | .monitorArmAcknowledgement _ _ _ _ => []
  | .monitorLatch _ _ _ _ => []
  | .waitTimeout _ _ => []
  | .barrierArrival _ _ _ _ => []
  | .barrierPhaseCompletion _ => []
  | .barrierRelease _ _ _ => []
  | .barrierWaitLimit _ _ => []
  | .messageArrival _ => []
  | .messageReply _ _ => []
  | .mailboxNoticeArrival _ _ => []
  | .mailboxWaitLimit _ _ => []
  | .registryRequest _ _ => []
  | .registryAnswer _ _ _ _ _ => []
  | .floorSample _ => []
  | .floorApply _ _ => []
  | .collectorSweep _ => []
  | .transactionPrepare _ _ _ => []
  | .transactionVotesComplete _ _ => []
  | .transactionCommitApply _ _ _ _ => []
  | .publishMark _ _ => []
  | .cpubTimeBroadcast _ _ _ _ => []
  | .shootdownCompletion _ _ => []
  | .copyCommandStart _ => []
  | .copyBlockRead _ => []
  | .copyBlockWrite _ _ _ => []
  | .copyBlockAcknowledgement _ _ _ _ => []
  | .syncWordWaitLimit _ _ => []
  | .tileCommandStart _ => []
  | .tileCommandCompletion _ => []
  | .gmmaJoin _ => []
  | .accumulatorReleaseStep _ _ => []
  | .tileWaitLimit _ => []
  | .weightStoreRefresh _ => []
  | .drainArrival _ => []
  | .drainCompletion _ _ => []
  | .callArrival _ => []
  | .argumentPortAccept _ => []
  | .resultPortTake _ => []
  | .serverReply _ _ => []
  | .serverResult _ => []
  | .configurationLoad _ _ _ => []
  | .configurationLoadCompletion _ _ => []
  | .memoryPortAccess _ _ => []
  | .memoryPortReply _ _ _ _ _ _ => []
  | .portTranslationRefill _ _ _ => []
  | .counterChainEmit _ _ => []
  | .reductionUnitStep _ _ => []
  | .specialFunctionStep _ _ => []
  | .butterflyConversion _ => []
  | .markerPass _ _ => []
  | .cellPass _ _ => []
  | .cellAdd _ _ => []
  | .cellSub _ _ => []
  | .cellMul _ _ => []
  | .cellAnd _ _ => []
  | .cellOr _ _ => []
  | .cellXor _ _ => []
  | .cellShl _ _ => []
  | .cellShr _ _ => []
  | .cellSra _ _ => []
  | .cellMin _ _ => []
  | .cellMax _ _ => []
  | .cellSeq _ _ => []
  | .cellSlt _ _ => []
  | .cellSltu _ _ => []
  | .cellSel _ _ => []
  | .cellFaddS _ _ => []
  | .cellFmulS _ _ => []
  | .cellFmaS _ _ => []
  | .cellFmaxS _ _ => []
  | .cellFminS _ _ => []
  | .cellFltS _ _ => []
  | .cellCbr _ _ => []
  | .cellSteer _ _ => []
  | .cellCvtSW _ _ => []
  | .cellCvtWS _ _ => []
  | .cellFnc _ _ => []
  | .linkTokenArrival _ _ _ => []
  | .linkCreditReturn _ _ => []
  | .streamGraphStart _ => []
  | .phaseEnd _ => []
  | .graphSwap _ _ _ _ => []
  | .arbiterFreeze _ => []
  | .snapArrival _ _ _ => []
  | .queueDoorbell _ _ _ => []
  | .completionRingRelease _ _ _ => []
  | .lnchSubmission _ => []
  | .launchAdmission _ => []
  | .placementRequest _ => []
  | .placementAnswer _ _ _ => []
  | .launchStart _ _ => []
  | .launchCompletion _ => []
  | .completionReport _ => []
  | .abort _ _ => []
  | .hcall _ _ _ => []
  | .inti _ _ _ => []
  | .preempt _ _ => []
  | .psave _ => []
  | .coreRecordWrite _ => []
  | .weightStoreSave _ => []
  | .rookRecordWrite _ => []
  | .saveHeaderWrite _ => []
  | .resume _ _ => []
  | .resumedThreadStart _ => []
  | .tlbiContext _ _ _ => []
  | .tlbiPage _ _ _ _ => []
  | .tlbiAll _ _ _ => []
  | .mboxWrite _ _ => []
  | .vpoolWrite _ _ => []
  | .hostWrite _ _ _ => []
  | .hostRead _ _ _ => []
  | .softError _ => []
  | .flitReplay _ => []
  | .shadowBundle _ => []
  | .checkpoint _ => []
  | .mirroredRollback _ _ _ => []
  | .releaseRegion _ => []
  | .retireCluster _ => []
  | .retirementDone _ => []
  | .lpddr6Refresh _ _ => []
  | .pcycBeacon _ _ => []
  | .coldReset _ _ => []
  | .podIdentityTimeout _ => []
  | .dieRelease _ => []
  | .status _ => []
  | .loadfw _ _ => []
  | .reset _ _ => []
  | .attest _ _ => []
  | .telem _ => []
  | .setlim _ _ => []
  | .setpod _ _ => []
  | .getrep _ => []
  | .unknownOpcode _ _ => []
  | .telemetryRefresh _ => []
  | .clockStepDown _ => []
  | .clockStepUp _ => []
  | .thermalLimit _ => []
  | .podClockStepChange _ => []
  | .fillAcknowledgement _ _ => []
  | .commitAcknowledgement _ _ _ => []
  | .hostWriteAcknowledgement _ _ _ => []
  | .imageCacheInvalidation _ _ => []

/-- Names of g0 and m0, whose writes are discarded (R9). -/
def fixedReg : RegName → Bool
  | .g n => n = 0
  | .m n => n = 0
  | .v _ => false

/-- Two words name the same destination, other than g0 or m0 (R25). -/
def sameDest (a b : Instr) : Bool := (dests a).any (fun r => !fixedReg r && (dests b).contains r)

/-- Sign extension to a doubleword. -/
def sext {n : Nat} (x : BitVec n) : Word := x.signExtend 64
/-- Zero extension to a doubleword. -/
def zext {n : Nat} (x : BitVec n) : Word := x.setWidth 64

/-- The target of a branch word: its address plus the offset in words (R54). -/
def branchTarget {n : Nat} (pc : Word) (off : BitVec n) : Word := pc + (sext off <<< 2)

end Sys2Proof.Machine
end

