-- ==== Sys2Proof/Machine/Ops.lean ====
section
/-! DEFINITION. The operations that meanings share: registers and tags (R9–R14), the issue latch, outstanding operations (R26), waits, taking a trap and returning from one (R216–R227, R99), gang membership (R214) and the start of retirement (R97). -/

namespace Sys2Proof.Machine

open Sys2Proof

/-- What a meaning answers. -/
abbrev Result := Host.Outcome State Fault Refusal

/-! ### Registers -/

/-- A register written by a result: Full, unmarked (R11, R219). -/
def Reg.full {w : Nat} (x : BitVec w) : Reg w := { val := x, tag := .full, mark := none }

/-- g0 reads 0 and is Full (R9). -/
def Regs.getG (r : Regs) (i : Fin 32) : Reg 64 := if i = 0 then Reg.full 0 else r.g[i]
/-- A write to g0 is discarded (R9). -/
def Regs.setG (r : Regs) (i : Fin 32) (x : Reg 64) : Regs := if i = 0 then r else { r with g := r.g.set i x }
/-- A v register. -/
def Regs.getV (r : Regs) (i : Fin 16) : Reg 512 := r.v[i]
/-- A v register written. -/
def Regs.setV (r : Regs) (i : Fin 16) (x : Reg 512) : Regs := { r with v := r.v.set i x }
/-- m0 reads 0xFFFF and is Full (R9). -/
def Regs.getM (r : Regs) (i : Fin 8) : Reg 16 := if i = 0 then Reg.full 0xFFFF else r.m[i]
/-- A write to m0 is discarded (R9). -/
def Regs.setM (r : Regs) (i : Fin 8) (x : Reg 16) : Regs := if i = 0 then r else { r with m := r.m.set i x }

/-- The tag of a register by name. -/
def Regs.tag (r : Regs) : RegName → Tag
  | .g n => (r.getG n).tag
  | .v n => (r.getV n).tag
  | .m n => (r.getM n).tag
/-- The poison mark of a register by name. -/
def Regs.mark (r : Regs) : RegName → Option Mark
  | .g n => (r.getG n).mark
  | .v n => (r.getV n).mark
  | .m n => (r.getM n).mark
/-- The low doubleword of a register by name: a marked register's cr.tval (R219). -/
def Regs.low (r : Regs) : RegName → Word
  | .g n => (r.getG n).val
  | .v n => (r.getV n).val.setWidth 64
  | .m n => (r.getM n).val.setWidth 64
/-- The registers with the tag of one changed, its value kept, its mark lost (R11, R219). -/
def Regs.retag (r : Regs) (t : Tag) : RegName → Regs
  | .g n => r.setG n { (r.getG n) with tag := t, mark := none }
  | .v n => r.setV n { (r.getV n) with tag := t, mark := none }
  | .m n => r.setM n { (r.getM n) with tag := t, mark := none }
/-- The registers with a result in one: Full, with a mark where the result carries one (R13, R219). -/
def Regs.put (r : Regs) (d : RegName) (x : VWord) (m : Option Mark) : Regs :=
  match d with
  | .g n => r.setG n { val := x.setWidth 64, tag := .full, mark := m }
  | .v n => r.setV n { val := x, tag := .full, mark := m }
  | .m n => r.setM n { val := x.setWidth 16, tag := .full, mark := m }

/-! ### The thread in the issue latch -/

/-- The slot of the thread whose bundle is in the latch. -/
def State.me (s : State) : Slot := s.slot s.cur.core s.cur.slot
/-- The state with that slot changed. -/
def State.modMe (s : State) (f : Slot → Slot) : State := s.modSlot s.cur.core s.cur.slot f
/-- Its core. -/
def State.myCore (s : State) : Core := s.core s.cur.core
/-- The state with its core changed. -/
def State.modMyCore (s : State) (f : Core → Core) : State := s.modCore s.cur.core f
/-- A reference to that thread. -/
def State.meRef (s : State) : ThreadRef := s.refOf s.cur.core s.cur.slot
/-- The cluster of that thread. -/
def State.myClu (s : State) : ClusterKey := cluOf s.cur.core

/-- A g source: its value as the bundle read it (R25). -/
def State.gval (s : State) (i : Fin 32) : Word := (s.cur.regs.getG i).val
/-- A v source. -/
def State.vval (s : State) (i : Fin 16) : VWord := (s.cur.regs.getV i).val
/-- An m source. -/
def State.mval (s : State) (i : Fin 8) : MWord := (s.cur.regs.getM i).val

/-- A result of latency 8 written into a g register (R11, R24). -/
def State.putG (s : State) (d : Fin 32) (x : Word) : State :=
  s.modMe (fun sl => { sl with regs := sl.regs.setG d (Reg.full x) })
/-- A result written into a v register, every lane. -/
def State.putV (s : State) (d : Fin 16) (x : VWord) : State :=
  s.modMe (fun sl => { sl with regs := sl.regs.setV d (Reg.full x) })
/-- A result written into an m register. -/
def State.putM (s : State) (d : Fin 8) (x : MWord) : State :=
  s.modMe (fun sl => { sl with regs := sl.regs.setM d (Reg.full x) })

/-- The 512-bit mask of the lanes that a mask register enables (R8). -/
def laneMask (m : MWord) : VWord :=
  (List.range 16).foldl (fun a i => if m.getLsbD i then a ||| (0xFFFFFFFF#512 <<< (32 * i)) else a) 0

/-- The lanes of a new result where the mask is 1 and the old lanes elsewhere, a Void destination's lanes counting 0 (R14). -/
def mergeLanes (old : Reg 512) (m : MWord) (x : VWord) : VWord :=
  let k := laneMask m
  (x &&& k) ||| ((if old.tag = .void then 0 else old.val) &&& ~~~k)

/-- A vector result written under a mask (R14). -/
def State.putVMasked (s : State) (d : Fin 16) (mk : Fin 8) (x : VWord) : State :=
  s.putV d (mergeLanes (s.cur.regs.getV d) (s.mval mk) x)

/-- Floating-point flags that an operation raises (R20, R34). -/
structure Flags where
  nv : Bool
  dz : Bool
  of : Bool
  uf : Bool
  nx : Bool
  deriving DecidableEq, Repr

/-- No flag. -/
def Flags.none : Flags := { nv := false, dz := false, of := false, uf := false, nx := false }
/-- Invalid alone. -/
def Flags.invalid : Flags := { Flags.none with nv := true }
/-- Both sets of flags. -/
def Flags.or (a b : Flags) : Flags :=
  { nv := a.nv || b.nv, dz := a.dz || b.dz, of := a.of || b.of, uf := a.uf || b.uf, nx := a.nx || b.nx }

/-- Flags are ORed into cr.fcsr in the issue cycle (R34, R76). -/
def Fcsr.raise (c : Fcsr) (f : Flags) : Fcsr :=
  { c with nv := c.nv || f.nv, dz := c.dz || f.dz, of := c.of || f.of, uf := c.uf || f.uf, nx := c.nx || f.nx }

/-- The thread's cr.fcsr with flags ORed in. -/
def State.raiseFlags (s : State) (f : Flags) : State := s.modMe (fun sl => { sl with fcsr := sl.fcsr.raise f })

/-! ### How the bundle in the latch stands -/

/-- The latch with its status changed. -/
def State.setStatus (s : State) (x : CurStatus) : State := { s with cur := { s.cur with status := x } }

/-- The bundle does not issue in this cycle (R10, R13, R22): it is tried again. -/
def State.park (s : State) : State := s.setStatus .parked

/-- A taken branch or jump (R92). -/
def State.jump (s : State) (target : Word) : State := s.modMe (fun sl => { sl with pc := target, byBranch := true })

/-- The word that executes. -/
def Cur.curWord (c : Cur) : BitVec 32 := if c.word = 0 ∧ (c.pair ∨ c.pc.getLsbD 2 = false) then c.word0 else c.word1

/-! ### Outstanding operations (R26) -/

/-- A new outstanding operation of the thread in the latch: its number and the state. -/
def State.begin_ (s : State) (kind : OutKind) (pa : PhysAddr) (size : Nat) : Nat × State :=
  let (id, s) := s.takeFresh
  (id, s.modMe (fun sl => { sl with out := { id := id, kind := kind, pa := pa, size := size } :: sl.out }))

/-- Operations that step 1 of a call waits for (R209). -/
def OutKind.beforeCall (k : OutKind) : Bool := k = .globalStore || k = .reduction || k = .atomic

/-- A wait for earlier operations has ended (those that the A word of the same bundle began are not among them): the word in the thread's block executes again in the cycle after the last of them (R26, R113), or in this one for a call's step 1 (R209, R415). -/
def State.wakeRelease (s : State) (t : ThreadRef) : State :=
  let sl := s.slot t.core t.slot
  match sl.block with
  | some b =>
    if b.kind = .release ∧ sl.out.all (fun o => b.id ≤ o.id) then
      { s with resumes := s.resumes ++ [{ due := 4 * (sl.lastEnd + 1), thread := t, id := b.id, cur := { b.cur with stage := 1 } }] }
    else if b.kind = .stores ∧ !sl.out.any (fun o => o.kind.beforeCall) then
      { s with resumes := s.resumes ++ [{ due := s.now, thread := t, id := b.id, cur := { b.cur with stage := 1 } }] }
    else s
  | none => s

/-- An outstanding operation of a thread ends in a cycle (R26). -/
def State.endOp (s : State) (t : ThreadRef) (id cycle : Nat) : State :=
  if s.matches_ t && (s.slot t.core t.slot).out.any (fun o => o.id == id) then
    let s := s.modSlot t.core t.slot (fun sl => { sl with out := sl.out.filter (fun o => o.id != id), lastEnd := max sl.lastEnd cycle })
    s.wakeRelease t
  else s

/-- An outstanding operation ends in this cycle. -/
def State.finish (s : State) (t : ThreadRef) (id : Nat) : State := s.endOp t id s.cycle

/-- A result has been written: an operation whose register is Full for a bundle of this cycle completed in the one before (R26, R29). -/
def State.finishFull (s : State) (t : ThreadRef) (id : Nat) : State := s.endOp t id (s.cycle - 1)

/-- The rank of a completion among those of one cycle: its issue cycle, then C before A (R29). -/
def completionRank (issue word : Nat) : Nat := 1 + 2 * issue + word

/-- A long operation of some kind issues: its destination becomes Pending and its result arrives L cycles later (R11, R28). -/
def State.startLongOf (s : State) (kind : OutKind) (L : Nat) (dst : RegName) (val : VWord) : State :=
  let (id, s) := s.begin_ kind 0 0
  let s := s.modMe (fun sl => { sl with regs := sl.regs.retag .pending dst })
  s.postAt (s.cycle + L) (completionRank s.cycle s.cur.word)
    (.longOperationCompletion { thread := s.meRef, id := id, dst := dst, va := 0, val := val, mark := none, raise := 0, issue := s.cycle, word := s.cur.word })

/-- A long operation that stays in the core (R28). -/
def State.startLong (s : State) (L : Nat) (dst : RegName) (val : VWord) : State := s.startLongOf .localLong L dst val

/-- A g result that is ready L cycles after issue (R28). -/
def State.putGLong (s : State) (d : Fin 32) (L : Nat) (x : Word) : State := s.startLong L (.g d) (x.setWidth 512)

/-! ### Waits after issue -/

/-- The thread in the latch waits for an event: the wait's number is the counter before. -/
def State.wait (s : State) (kind : BlockKind) : State :=
  let (id, s) := s.takeFresh
  let s := s.setStatus .blocked
  s.modMe (fun sl => { sl with block := some { kind := kind, id := id, since := s.cycle, cur := s.cur, first := s.cur.start } })

/-- The release wait of R113 before an instruction is performed; none when nothing is outstanding or the wait has been made. -/
def State.mustRelease (s : State) : Bool := s.cur.stage = 0 && (s.me.out != [])

/-- A slot changes, and the slot of the shadow that follows it (R394, R395). -/
def State.modPair (s : State) (c : CoreKey) (i : Nat) (f : Slot → Slot) : State :=
  match (s.core c).mirror with
  | none => s.modSlot c i f
  | some m => (s.modSlot c i f).modSlot m.shadow i f

/-- The thread's wait ends: its slot, and its shadow's (R395), change by f. -/
def State.endWait (s : State) (t : ThreadRef) (f : Slot → Slot) : State :=
  match (s.slot t.core t.slot).block with
  | none => s
  | some _ => s.modPair t.core t.slot (fun sl => { f sl with block := none })

/-- The registers with one taken from another set. -/
def Regs.copy (r : Regs) (old : Regs) : RegName → Regs
  | .g n => r.setG n (old.getG n)
  | .v n => r.setV n (old.getV n)
  | .m n => r.setM n (old.getM n)

/-- The long operation that the A word of a latched bundle began, in its completion: word 1 of the bundle's issue cycle. -/
def Cur.aCompletion (cur : Cur) (t : ThreadRef) : Instr → Option Nat
  | .longOperationCompletion m => if m.thread = t ∧ m.word = 1 ∧ m.issue = cur.start then some m.id else none
  | _ => none

/-- A wait after issue is given up and its instruction has no effect: what the A word of its pair wrote at issue is taken back, so that neither word has taken effect (R25, R216, R229; log 11). -/
def State.undoPair (s : State) (c : CoreKey) (i : Nat) : State :=
  match (s.slot c i).block with
  | none => s
  | some b => match b.cur.aword with
    | none => s
    | some a =>
      let t := s.refOf c i
      let ids := s.agenda.filterMap (fun p => b.cur.aCompletion t p.ev)
      let s := s.keepEvents (fun e => (b.cur.aCompletion t e).isNone)
      s.modPair c i (fun sl => { sl with
        regs := (dests a).foldl (fun r d => r.copy b.cur.regs d) sl.regs
        fcsr := b.cur.fcsr, out := sl.out.filter (fun o => !ids.contains o.id) })

/-- The slot is parked for good by cr.psave (R351). -/
def Slot.isSaved (sl : Slot) : Bool :=
  match sl.block with
  | some b => b.kind = .saved
  | none => false

/-- A pre-emption of a context is in progress on the cluster of a core (R350). -/
def State.saving (s : State) (c : CoreKey) (ctx : Nat) : Bool :=
  (s.pkg (pkgOf c)).preempt.any (fun x => !x.resume && x.ctx = ctx && x.clusters.contains (cluOf c))

/-- The wait of a thread, when it is the one numbered id. -/
def State.waiting? (s : State) (t : ThreadRef) (id : Nat) : Option Block :=
  if s.matches_ t then (s.slot t.core t.slot).block.filter (fun b => b.id == id) else none

/-- A g result of an ended wait (R117, R144, R148): Full. -/
def Slot.putG (sl : Slot) (d : Fin 32) (x : Word) : Slot := { sl with regs := sl.regs.setG d (Reg.full x) }

/-! ### Gang membership (R212–R214) -/

/-- Every member of a thread's gang, the leader first. -/
def State.members (s : State) (t : ThreadRef) : List ThreadRef :=
  let sl := s.slot t.core t.slot
  match sl.st.role with
  | .independent => [t]
  | .leader => t :: sl.gang
  | .follower => match sl.gang with
    | l :: _ => l :: (s.slot l.core l.slot).gang
    | [] => [t]

/-- A thread leaves its gang: GROLE and GIDX 0 (R214). -/
def Slot.alone (sl : Slot) : Slot := { sl with gang := [], st := { sl.st with role := .independent, gidx := 0 } }

/-- The gang of a thread splits (R214, R239). -/
def State.splitGang (s : State) (t : ThreadRef) : State :=
  if (s.slot t.core t.slot).st.role = .independent then s
  else (s.members t).foldl (fun s m => if s.matches_ m then s.modSlot m.core m.slot Slot.alone else s) s

/-! ### Retirement begins (R97, R227, R334) -/

/-- A thread issues nothing more: its operations drain, and its retirement is judged at the end of this cycle. -/
def State.beginExit (s : State) (c : CoreKey) (i : Nat) : State :=
  let s := s.modPair c i (fun sl => { sl with occ := .draining, block := none, ints := [], openSince := none, parkLimit := none, stopping := false })
  s.post (4 * s.cycle + 2) 0 (.threadRetirement (s.refOf c i))

/-! ### Traps (R216–R227) -/

/-- Every wait of a thread is given up. -/
def Slot.unpark (sl : Slot) : Slot := { sl with openSince := none, parkLimit := none, block := none, hold := false }

/-- Whether a cause goes to the user handler (R222). -/
def Slot.takesUser (sl : Slot) (cause : Nat) : Bool :=
  cause < 0x180 && !sl.sdeleg.getLsbD (cause / 32) && sl.tvec != 0 && !sl.st.intrap

/-- A word with bits 1:0 cleared (R17, R99). -/
def alignWord (w : Word) : Word := w &&& ~~~3#64
/-- A word with the bits that R8 fixes at 0 in a PC cleared: 63:55 and 1:0 (R94). -/
def pcWord (w : Word) : Word := w &&& 0x7FFFFFFFFFFFFC#64
/-- A word with bits 2:0 cleared (R17, R224). -/
def alignDouble (w : Word) : Word := w &&& ~~~7#64

/-- User delivery in cycle c (R222); bits 63:55 of cr.epc are 0 (R8, R94). -/
def Slot.toUser (sl : Slot) (ret : Word) (v : TrapVal) (c : Nat) : Slot :=
  { sl.unpark with
    cause := BitVec.ofNat 9 v.cause, epc := ret.extractLsb' 0 55 |>.setWidth 64, tval := v.tval, tinf := v.tinf
    st := { sl.st with intrap := true }, pc := sl.tvec, byBranch := true, readyAt := c + 8 }

/-- Supervisor delivery in cycle c (R223). -/
def Slot.toSupervisor (sl : Slot) (ret : Word) (v : TrapVal) (c : Nat) : Slot :=
  { sl.unpark with
    scause := BitVec.ofNat 9 v.cause, sepc := ret, stval := v.tval, stinf := v.tinf
    psup := sl.st.sup, pie := sl.st.ie, st := { sl.st with sup := true, ie := false }
    pc := sl.svec, byBranch := true, readyAt := c + 8 }

/-- A trap raised while SUP = 1: the slot halts, its launch is aborted, the error log records it (R227). -/
def State.haltSupervisor (s : State) (c : CoreKey) (i : Nat) (ret : Word) (v : TrapVal) : State :=
  let s := s.logError (dieOf c) (LogEvent.ofCore 4 0x1A3 0 c i ret (Config.nestedTrapWord v.cause (s.slot c i).stval))
  let launch := (s.slot c i).launch
  let s := s.beginExit c i
  s.post s.now 0 (.abort launch 0x1A3)

/-- A trap of the thread in a slot, with its return address and values: the one way every exception is taken (R214, R222, R223, R227). -/
def State.deliver (s : State) (c : CoreKey) (i : Nat) (ret : Word) (v : TrapVal) : State :=
  let s := (s.undoPair c i).splitGang (s.refOf c i)
  if (s.slot c i).st.sup then s.haltSupervisor c i ret v
  else s.modPair c i (fun sl => if sl.takesUser v.cause then sl.toUser ret v s.cycle else sl.toSupervisor ret v s.cycle)

/-- The bundle in the latch traps (R216): neither word takes effect. -/
def State.trap (s : State) (cause : Nat) (tval tinf : Word) : State :=
  (s.deliver s.cur.core s.cur.slot s.cur.pc { cause := cause, tval := tval, tinf := tinf }).setStatus .trapped

/-- The word in the latch is illegal where it stands: cause 0x001 (R16, R61, R96, R233). -/
def State.trapIllegal (s : State) : State :=
  s.trap 0x001 (s.cur.curWord.setWidth 64) (if s.cur.pair then BitVec.ofNat 64 s.cur.word else if s.cur.pc.getLsbD 2 then 1 else 0)

/-- A thread that waits after issue traps at its instruction (R119, R133, R140, R143). -/
def State.trapWaiting (s : State) (t : ThreadRef) (b : Block) (v : TrapVal) : State :=
  s.deliver t.core t.slot b.cur.pc v

/-- Return from the user handler: PC from cr.epc, INTRAP cleared (R99). -/
def Slot.returnUser (sl : Slot) : Slot :=
  { sl with pc := alignWord sl.epc, byBranch := true, st := { sl.st with intrap := false } }

/-- Return from the supervisor handler: PC, SUP and IE restored (R99, R223). -/
def Slot.returnSupervisor (sl : Slot) : Slot :=
  { sl with pc := alignWord sl.sepc, byBranch := true, st := { sl.st with sup := sl.psup, ie := sl.pie } }

end Sys2Proof.Machine
end

