-- ==== Sys2Proof/Machine/Flags.lean ====
section
/-! DEFINITION. Number formats and the flags of arithmetic (R30–R43, R84–R88, R173): exact values, one rounding, and every flag computation. -/

namespace Sys2Proof.Machine

open Sys2Proof

/-! ### Formats and exact values -/

/-- A binary format: exponent bits and fraction bits (R30). -/
structure FpFmt where
  eb : Nat
  mb : Nat
  deriving DecidableEq, Repr

/-- binary32. -/
def f32 : FpFmt := { eb := 8, mb := 23 }
/-- binary64. -/
def f64 : FpFmt := { eb := 11, mb := 52 }
/-- binary16. -/
def f16 : FpFmt := { eb := 5, mb := 10 }
/-- BF16. -/
def bf16 : FpFmt := { eb := 8, mb := 7 }

/-- The format of a suffix (R83). -/
def fmtOf : Fmt → FpFmt
  | .s => f32 | .d => f64 | .h => f16 | .bf => bf16
/-- The format of a fused suffix (R88). -/
def fmtOf2 : Fmt2 → FpFmt
  | .s => f32 | .d => f64

/-- Width in bits. -/
def FpFmt.width (f : FpFmt) : Nat := 1 + f.eb + f.mb
/-- Exponent bias. -/
def FpFmt.bias (f : FpFmt) : Int := (2 ^ (f.eb - 1) : Nat) - 1
/-- The all-ones exponent field. -/
def FpFmt.emax (f : FpFmt) : Nat := 2 ^ f.eb - 1
/-- The exponent of the smallest normal. -/
def FpFmt.emin (f : FpFmt) : Int := 1 - f.bias
/-- The canonical NaN (R30). -/
def FpFmt.nan (f : FpFmt) : Nat := f.emax * 2 ^ f.mb + 2 ^ (f.mb - 1)
/-- An infinity. -/
def FpFmt.inf (f : FpFmt) (neg : Bool) : Nat := (if neg then 2 ^ (f.eb + f.mb) else 0) + f.emax * 2 ^ f.mb
/-- A zero. -/
def FpFmt.zero (f : FpFmt) (neg : Bool) : Nat := if neg then 2 ^ (f.eb + f.mb) else 0
/-- The largest finite value. -/
def FpFmt.huge (f : FpFmt) (neg : Bool) : Nat := f.inf neg - 1

/-- What bits stand for: a NaN, an infinity, or ±m · 2^e exactly. -/
inductive FpVal where
  | nan (signalling : Bool)
  | inf (neg : Bool)
  | fin (neg : Bool) (m : Nat) (e : Int)
  deriving DecidableEq, Repr

/-- The value of a bit pattern; with ftz a subnormal reads as a zero of its sign (R33). -/
def FpFmt.read (f : FpFmt) (ftz : Bool) (x : Nat) : FpVal :=
  let x := x % 2 ^ f.width
  let neg : Bool := 2 ^ (f.eb + f.mb) ≤ x
  let e := x / 2 ^ f.mb % 2 ^ f.eb
  let m := x % 2 ^ f.mb
  if e = f.emax then (if m = 0 then .inf neg else .nan (m < 2 ^ (f.mb - 1)))
  else if e = 0 then .fin neg (if ftz then 0 else m) (f.emin - f.mb)
  else .fin neg (m + 2 ^ f.mb) (e - f.bias - f.mb)

/-- The value is a signalling NaN. -/
def FpVal.isSnan : FpVal → Bool
  | .nan s => s
  | _ => false
/-- The value is a NaN. -/
def FpVal.isNan : FpVal → Bool
  | .nan _ => true
  | _ => false
/-- The value is an infinity. -/
def FpVal.isInf : FpVal → Bool
  | .inf _ => true
  | _ => false
/-- The value is a zero. -/
def FpVal.isZero : FpVal → Bool
  | .fin _ 0 _ => true
  | _ => false
/-- The sign of a value that is no NaN. -/
def FpVal.neg : FpVal → Bool
  | .nan _ => false
  | .inf s => s
  | .fin s _ _ => s
/-- The value negated. -/
def FpVal.negate : FpVal → FpVal
  | .nan s => .nan s
  | .inf s => .inf (!s)
  | .fin s m e => .fin (!s) m e

/-! ### Rounding (R31, R34) -/

/-- Whether a mode rounds a magnitude up: the parity of the lower neighbour, the rest against the half, exactness. -/
def roundUp (rm : RMode) (neg odd : Bool) (cmpHalf : Ordering) (exact : Bool) : Bool :=
  if exact then false
  else match rm with
    | .rne => cmpHalf = .gt || (cmpHalf = .eq && odd)
    | .rmm => cmpHalf != .lt
    | .rtz => false
    | .rup => !neg
    | .rdn => neg

/-- m · 2^(−sh), with something more below when sticky, rounded to a natural: the result and whether it is exact. -/
def roundShift (rm : RMode) (neg : Bool) (m : Nat) (sh : Int) (sticky : Bool) : Nat × Bool :=
  if sh ≤ 0 then (m * 2 ^ (-sh).toNat, !sticky)
  else
    let k := sh.toNat
    let q := m / 2 ^ k
    let r := m % 2 ^ k
    let half := 2 ^ (k - 1)
    let c := if r < half then .lt else if half < r then .gt else if sticky then .gt else .eq
    let exact := r = 0 && !sticky
    ((if roundUp rm neg (q % 2 = 1) c exact then q + 1 else q), exact)

/-- ±m · 2^e, with something more below when sticky, rounded once into a format: bits and flags (R31, R33, R34). -/
def FpFmt.round (f : FpFmt) (rm : RMode) (ftz : Bool) (neg : Bool) (m : Nat) (e : Int) (sticky : Bool) : Nat × Flags :=
  if m = 0 && !sticky then (f.zero neg, Flags.none)
  else
    let top : Int := e + Nat.log2 m
    let q : Int := max (top - f.mb) (f.emin - f.mb)
    let (r, exact) := roundShift rm neg m (q - e) sticky
    let tiny : Bool :=
      if f.emin ≤ top then false
      else if top < f.emin - 1 then true
      else (roundShift rm neg m (top - f.mb - e) sticky).1 < 2 ^ (f.mb + 1)
    let s := f.zero neg
    if r < 2 ^ f.mb then
      if ftz && r != 0 then (s, { Flags.none with uf := true, nx := true })
      else (s + r, { Flags.none with uf := tiny && !exact, nx := !exact })
    else
      let (r, q) := if 2 ^ (f.mb + 1) ≤ r then (r / 2, q + 1) else (r, q)
      let be := q + f.mb + f.bias
      if f.emax ≤ be then
        let big := match rm with
          | .rne => true | .rmm => true | .rtz => false | .rup => !neg | .rdn => neg
        (if big then f.inf neg else f.huge neg, { Flags.none with of := true, nx := true })
      else (s + be.toNat * 2 ^ f.mb + (r - 2 ^ f.mb), { Flags.none with uf := tiny && !exact, nx := !exact })

/-- A NaN result: canonical, with NV where an operand signals or the operation is invalid (R32, R84). -/
def FpFmt.nanResult (f : FpFmt) (nv : Bool) : Nat × Flags := (f.nan, { Flags.none with nv := nv })

/-- The signed integer ±m scaled to a lower exponent. -/
def scaled (neg : Bool) (m : Nat) (e lo : Int) : Int :=
  let x : Int := m * 2 ^ (e - lo).toNat
  if neg then -x else x

/-- The sum of two finite values as an exact signed integer at the lower of the two exponents. -/
def exactSum (n1 : Bool) (m1 : Nat) (e1 : Int) (n2 : Bool) (m2 : Nat) (e2 : Int) : Int × Int :=
  let lo := min e1 e2
  (scaled n1 m1 e1 lo + scaled n2 m2 e2 lo, lo)

/-- Round an exact sum; an exact zero takes the common sign, or − under RDN and + otherwise. -/
def FpFmt.roundSum (f : FpFmt) (rm : RMode) (ftz n1 n2 : Bool) (x : Int) (e : Int) : Nat × Flags :=
  if x = 0 then (f.zero (if n1 = n2 then n1 else rm = .rdn), Flags.none)
  else f.round rm ftz (x < 0) x.natAbs e false

/-- IEEE addition of exact values (R84). -/
def FpFmt.addVal (f : FpFmt) (rm : RMode) (ftz : Bool) (a b : FpVal) : Nat × Flags :=
  match a, b with
  | .nan s, b => f.nanResult (s || b.isSnan)
  | _, .nan s => f.nanResult s
  | .inf s, .inf t => if s = t then (f.inf s, Flags.none) else f.nanResult true
  | .inf s, .fin _ _ _ => (f.inf s, Flags.none)
  | .fin _ _ _, .inf t => (f.inf t, Flags.none)
  | .fin n1 m1 e1, .fin n2 m2 e2 =>
    let (x, e) := exactSum n1 m1 e1 n2 m2 e2
    f.roundSum rm ftz n1 n2 x e

/-- The exact product, or a NaN or an infinity; the flag says 0 × ∞. -/
def mulVal (a b : FpVal) : FpVal × Bool :=
  match a, b with
  | .nan s, b => (.nan (s || b.isSnan), false)
  | _, .nan s => (.nan s, false)
  | .inf s, b => if b.isZero then (.nan false, true) else (.inf (s != b.neg), false)
  | .fin s 0 _, .inf _ => (.nan s, true)
  | .fin s _ _, .inf t => (.inf (s != t), false)
  | .fin s m e, .fin t n g => (.fin (s != t) (m * n) (e + g), false)

/-- A value that needs no sum, rounded. -/
def FpFmt.roundVal (f : FpFmt) (rm : RMode) (ftz : Bool) : FpVal → Nat × Flags
  | .nan s => f.nanResult s
  | .inf s => (f.inf s, Flags.none)
  | .fin s m e => f.round rm ftz s m e false

/-- IEEE multiplication (R84). -/
def FpFmt.mul (f : FpFmt) (rm : RMode) (ftz : Bool) (a b : FpVal) : Nat × Flags :=
  let (p, bad) := mulVal a b
  if bad then f.nanResult true else f.roundVal rm ftz p

/-- The fused product and sum, rounded once (R88). -/
def FpFmt.fma (f : FpFmt) (rm : RMode) (ftz : Bool) (a b c : FpVal) : Nat × Flags :=
  let (p, bad) := mulVal a b
  if bad || p.isNan || c.isNan then f.nanResult (bad || p.isSnan || c.isSnan)
  else f.addVal rm ftz p c

/-- IEEE division (R84). -/
def FpFmt.div (f : FpFmt) (rm : RMode) (ftz : Bool) (a b : FpVal) : Nat × Flags :=
  match a, b with
  | .nan s, b => f.nanResult (s || b.isSnan)
  | _, .nan s => f.nanResult s
  | .inf _, .inf _ => f.nanResult true
  | .inf s, .fin t _ _ => (f.inf (s != t), Flags.none)
  | .fin s _ _, .inf t => (f.zero (s != t), Flags.none)
  | .fin s m e, .fin t n g =>
    if n = 0 then
      if m = 0 then f.nanResult true else (f.inf (s != t), { Flags.none with dz := true })
    else if m = 0 then (f.zero (s != t), Flags.none)
    else
      let k := f.mb + 4 + Nat.log2 n
      let x := m * 2 ^ k
      f.round rm ftz (s != t) (x / n) (e - g - k) (x % n != 0)

/-- The integer square root, by fuel bits from the highest. -/
def isqrtFrom (x : Nat) : Nat → Nat → Nat
  | 0, r => r
  | k + 1, r => isqrtFrom x k (if (r + 2 ^ k) * (r + 2 ^ k) ≤ x then r + 2 ^ k else r)

/-- The integer square root. -/
def isqrt (x : Nat) : Nat := isqrtFrom x (Nat.log2 x / 2 + 1) 0

/-- A magnitude m · 2^e with an even exponent and at least k extra bits. -/
def evenExp (m : Nat) (e : Int) (k : Nat) : Nat × Int :=
  let k := if (e - k) % 2 = 0 then k else k + 1
  (m * 2 ^ k, e - k)

/-- IEEE squareRoot (R84). -/
def FpFmt.sqrt (f : FpFmt) (rm : RMode) (ftz : Bool) (a : FpVal) : Nat × Flags :=
  match a with
  | .nan s => f.nanResult s
  | .inf neg => if neg then f.nanResult true else (f.inf false, Flags.none)
  | .fin neg m e =>
    if m = 0 then (f.zero neg, Flags.none)
    else if neg then f.nanResult true
    else
      let (x, g) := evenExp m e (2 * (f.mb + 4))
      let r := isqrt x
      f.round rm ftz false r (g / 2) (r * r != x)

/-- Two values that are no NaN, compared; −0 equals +0 (R86). -/
def FpVal.compare (a b : FpVal) : Ordering :=
  match a, b with
  | .inf s, .inf t => if s = t then .eq else if s then .lt else .gt
  | .inf s, _ => if s then .lt else .gt
  | _, .inf t => if t then .gt else .lt
  | .fin n1 m1 e1, .fin n2 m2 e2 =>
    let lo := min e1 e2
    let x := scaled n1 m1 e1 lo
    let y := scaled n2 m2 e2 lo
    if x < y then .lt else if x = y then .eq else .gt
  | _, _ => .eq

/-- The bits of an operand as read under R33. -/
def FpFmt.asRead (f : FpFmt) (ftz : Bool) (x : Nat) : Nat :=
  let x := x % 2 ^ f.width
  if ftz && x / 2 ^ f.mb % 2 ^ f.eb = 0 then f.zero (2 ^ (f.eb + f.mb) ≤ x) else x

/-- fmin and fmax (R85). -/
def FpFmt.minmax (f : FpFmt) (max_ ftz : Bool) (x y : Nat) : Nat × Flags :=
  let a := f.read ftz x
  let b := f.read ftz y
  let fl := { Flags.none with nv := a.isSnan || b.isSnan }
  let px := f.asRead ftz x
  let py := f.asRead ftz y
  if a.isNan && b.isNan then (f.nan, fl)
  else if a.isNan then (py, fl)
  else if b.isNan then (px, fl)
  else
    let less : Bool := match a.compare b with
      | .lt => true
      | .gt => false
      | .eq => a.neg && !b.neg
    (if less != max_ then px else py, fl)

/-- fp32_add_rne: binary32 to nearest even, +0 for an exact sum of zero (R44). -/
def fp32AddRne (a b : FpVal) : Nat :=
  match a, b with
  | .fin n1 m1 e1, .fin n2 m2 e2 =>
    if (exactSum n1 m1 e1 n2 m2 e2).1 = 0 then 0 else (f32.addVal .rne false a b).1
  | _, _ => (f32.addVal .rne false a b).1

/-- Copy sign, negated sign and exclusive sign: bits alone (R85). -/
def FpFmt.sign (f : FpFmt) (g : Bool → Bool → Bool) (x y : Nat) : Nat :=
  let top := 2 ^ (f.eb + f.mb)
  let x := x % 2 ^ f.width
  let y := y % 2 ^ f.width
  x % top + (if g (top ≤ x) (top ≤ y) then top else 0)

/-- Which compare (R86). -/
inductive FpCmp where
  | eq | lt | le
  deriving DecidableEq, Repr

/-- feq, flt and fle (R86). -/
def FpFmt.cmp (f : FpFmt) (op : FpCmp) (ftz : Bool) (x y : Nat) : Bool × Flags :=
  let a := f.read ftz x
  let b := f.read ftz y
  if a.isNan || b.isNan then
    (false, { Flags.none with nv := match op with | .eq => a.isSnan || b.isSnan | _ => true })
  else
    let c := a.compare b
    (match op with
      | .eq => c = .eq
      | .lt => c = .lt
      | .le => c != .gt, Flags.none)

/-- The one-hot class of fkind: stored bits, FTZ ignored (R86). -/
def FpFmt.kind (f : FpFmt) (x : Nat) : Nat :=
  let x := x % 2 ^ f.width
  let neg : Bool := 2 ^ (f.eb + f.mb) ≤ x
  let e := x / 2 ^ f.mb % 2 ^ f.eb
  let m := x % 2 ^ f.mb
  2 ^ (if e = f.emax then (if m = 0 then (if neg then 9 else 2) else if m < 2 ^ (f.mb - 1) then 0 else 1)
       else if e = 0 then (if m = 0 then (if neg then 6 else 5) else if neg then 7 else 4)
       else if neg then 8 else 3)

/-- A conversion between formats (R35, R87). -/
def fpConvert (src dst : FpFmt) (rm : RMode) (ftz : Bool) (x : Nat) : Nat × Flags :=
  dst.roundVal rm ftz (src.read ftz x)

/-- fp_to_int of R87 with bounds lo and hi. -/
def fpToInt (f : FpFmt) (rm : RMode) (ftz : Bool) (lo hi : Int) (x : Nat) : Int × Flags :=
  match f.read ftz x with
  | .nan _ => (0, Flags.invalid)
  | .inf neg => (if neg then lo else hi, Flags.invalid)
  | .fin neg m e =>
    let (r, exact) := roundShift rm neg m (-e) false
    let z : Int := if neg then -r else r
    if z < lo then (lo, Flags.invalid)
    else if hi < z then (hi, Flags.invalid)
    else (z, { Flags.none with nx := !exact })

/-- An integer rounded into a format (R35, R87). -/
def intToFp (f : FpFmt) (rm : RMode) (x : Int) : Nat × Flags := f.round rm false (x < 0) x.natAbs 0 false

/-! ### Estimates (R173) -/

/-- m · 2^e, with something more below when sticky, to nearest even at 12 bits, as binary32; too small gives zero, too large infinity. -/
def estimate (neg : Bool) (m : Nat) (e : Int) (sticky : Bool) : Nat :=
  if m = 0 then f32.zero neg
  else
    let q : Int := e + Nat.log2 m - 11
    let (r, _) := roundShift .rne neg m (q - e) sticky
    let (r, q) := if 4096 ≤ r then (r / 2, q + 1) else (r, q)
    let be := q + 11 + 127
    if be < 1 then f32.zero neg
    else if 255 ≤ be then f32.inf neg
    else f32.zero neg + be.toNat * 2 ^ 23 + (r - 2048) * 2 ^ 12

/-- vfrecip.s on one lane. -/
def estRecip (ftz : Bool) (x : Nat) : Nat × Flags :=
  match f32.read ftz x with
  | .nan s => f32.nanResult s
  | .inf neg => (f32.zero neg, Flags.none)
  | .fin neg m e =>
    if m = 0 then (f32.inf neg, { Flags.none with dz := true })
    else (estimate neg (2 ^ 64 / m) (-64 - e) (2 ^ 64 % m != 0), Flags.none)

/-- vfrsqrt.s on one lane. -/
def estRsqrt (ftz : Bool) (x : Nat) : Nat × Flags :=
  match f32.read ftz x with
  | .nan s => f32.nanResult s
  | .inf neg => if neg then f32.nanResult true else (f32.zero false, Flags.none)
  | .fin neg m e =>
    if m = 0 then (f32.inf neg, { Flags.none with dz := true })
    else if neg then f32.nanResult true
    else
      let (y, g) := evenExp m e 0
      let r := isqrt (2 ^ 128 / y)
      (estimate false r (-64 - g / 2) (r * r * y != 2 ^ 128), Flags.none)

/-- ln 2 in units of 2^−160 (DEDUCED: the constant's value; R173 asks for the exact result rounded). -/
def ln2Fixed : Nat := 1013035739299659071135698605846798551586536899366

/-- The powers t^k / k! of a fixed-point t, summed for k from i upward, by fuel. -/
def expSeries (t : Nat) : Nat → Nat → Nat → Nat
  | 0, _, _ => 0
  | n + 1, k, term => term + expSeries t n (k + 1) (term * t / 2 ^ 160 / (k + 1))

/-- vfexp2.s on one lane: 2^x for x = n + f with 0 ≤ f < 1. -/
def estExp2 (ftz : Bool) (x : Nat) : Nat × Flags :=
  match f32.read ftz x with
  | .nan s => f32.nanResult s
  | .inf neg => (if neg then f32.zero false else f32.inf false, Flags.none)
  | .fin neg m e =>
    if m = 0 then (f32.zero false + 127 * 2 ^ 23, Flags.none)
    else if 10 < e + Nat.log2 m then (if neg then f32.zero false else f32.inf false, Flags.none)
    else
      let fixed : Int := scaled neg m e (-160)
      let n : Int := fixed / 2 ^ 160
      let f : Nat := (fixed % 2 ^ 160).toNat
      let t := f * ln2Fixed / 2 ^ 160
      (estimate false (expSeries t 60 0 (2 ^ 160)) (n - 160) (f != 0), Flags.none)

/-- u + u³/3 + u⁵/5 + …, by fuel, for a fixed-point u and its square. -/
def atanhSeries (u2 : Nat) : Nat → Nat → Nat → Nat
  | 0, _, _ => 0
  | n + 1, k, p => p / k + atanhSeries u2 n (k + 2) (p * u2 / 2 ^ 160)

/-- vflog2.s on one lane (R173); the exact zero of 1.0 is +0 (DESIGN CHOICE, log 148). -/
def estLog2 (ftz : Bool) (x : Nat) : Nat × Flags :=
  match f32.read ftz x with
  | .nan s => f32.nanResult s
  | .inf neg => if neg then f32.nanResult true else (f32.inf false, Flags.none)
  | .fin neg m e =>
    if m = 0 then (f32.inf true, { Flags.none with dz := true })
    else if neg then f32.nanResult true
    else
      let b := Nat.log2 m
      let u := (m - 2 ^ b) * 2 ^ 160 / (m + 2 ^ b)
      let l : Nat := 2 * atanhSeries (u * u / 2 ^ 160) 60 1 u * 2 ^ 160 / ln2Fixed
      let y : Int := (e + b) * 2 ^ 160 + l
      (estimate (y < 0) y.natAbs (-160) (m != 2 ^ b), Flags.none)

/-- relu on a binary32 (R294). -/
def relu32 (x : Nat) : Nat :=
  match f32.read false x with
  | .nan _ => f32.nan
  | .inf neg => if neg then 0 else x
  | .fin neg m _ => if neg || m = 0 then 0 else x

/-- A function of a special-function unit or of an epilogue's activation, by its code (R294). -/
def specialFn (func x : Nat) : Nat :=
  match func with
  | 1 => relu32 x
  | 2 => (estRecip false x).1
  | 3 => (estRsqrt false x).1
  | 4 => (estExp2 false x).1
  | 5 => (estLog2 false x).1
  | _ => x

/-- One pass of the butterfly over elements that differ in bit j of their index (R295). -/
def butterflyPass (xs : List Nat) (j : Nat) : List Nat :=
  (List.range xs.length).map (fun i =>
    if i / 2 ^ j % 2 = 0 then fp32AddRne (f32.read false (xs.getD i 0)) (f32.read false (xs.getD (i + 2 ^ j) 0))
    else fp32AddRne (f32.read false (xs.getD (i - 2 ^ j) 0)) (f32.read false (xs.getD i 0 ^^^ 0x80000000)))

/-- The butterfly of R295 over 2^s elements. -/
def butterfly (xs : List Nat) (s : Nat) : List Nat := (List.range s).foldl butterflyPass xs

/-! ### Tapered formats (R36–R43) -/

/-- The length of the run of bits equal to b below bit n − 1. -/
def regimeRun (c n : Nat) (b : Bool) : Nat → Nat → Nat
  | 0, m => m
  | k + 1, m => if m < n ∧ c.testBit (n - 1 - m) = b then regimeRun c n b k (m + 1) else m

/-- decode_tap of R36: the value of a code with n magnitude bits. -/
def decodeTap (x n : Nat) : FpVal :=
  let neg := x.testBit n
  let c := x % 2 ^ n
  if c = 0 then (if neg then .nan false else .fin false 0 0)
  else
    let b := c.testBit (n - 1)
    let m := regimeRun c n b n 1
    let k : Int := if b then m - 1 else -m
    let used := m + 1
    if n ≤ used then .fin neg 1 (2 * k)
    else
      let e := if c.testBit (n - 1 - used) then 1 else 0
      let w := n - 1 - used
      .fin neg (2 ^ w + c % 2 ^ w) (2 * k + e - w)

/-- A magnitude compared with the sum of two code magnitudes, each read as m · 2^e. -/
def magCompare (a b : Nat × Int) : Ordering :=
  let lo := min a.2 b.2
  compare (a.1 * 2 ^ (a.2 - lo).toNat) (b.1 * 2 ^ (b.2 - lo).toNat)

/-- The sum of two magnitudes. -/
def magAdd (a b : Nat × Int) : Nat × Int :=
  let lo := min a.2 b.2
  (a.1 * 2 ^ (a.2 - lo).toNat + b.1 * 2 ^ (b.2 - lo).toNat, lo)

/-- The magnitude of a positive code. -/
def tapMag (c n : Nat) : Nat × Int :=
  match decodeTap c n with
  | .fin _ m e => (m, e)
  | _ => (0, 0)

/-- round_tap of R40: the code of a value. -/
def roundTap (v : FpVal) (n : Nat) : Nat :=
  let top := 2 ^ n - 1
  match v with
  | .nan _ => 2 ^ n
  | .inf neg => top + (if neg then 2 ^ n else 0)
  | .fin neg m e =>
    let y := (m, e)
    let below := ((List.range (top + 1)).filter (fun c => magCompare (tapMag c n) y != .gt)).length - 1
    let c :=
      if top ≤ below then top
      else match magCompare (m, e + 1) (magAdd (tapMag below n) (tapMag (below + 1) n)) with
        | .lt => below
        | .gt => below + 1
        | .eq => if below % 2 = 0 then below else below + 1
    if c = 0 then 0 else c + (if neg then 2 ^ n else 0)

/-- Two exact values are the same number. -/
def sameNumber (a b : FpVal) : Bool :=
  match a, b with
  | .fin n1 m1 e1, .fin n2 m2 e2 => (exactSum n1 m1 e1 (!n2) m2 e2).1 = 0
  | .inf s, .inf t => s = t
  | _, _ => false

/-- A value times 2^k. -/
def FpVal.scale (v : FpVal) (k : Int) : FpVal :=
  match v with
  | .fin s m e => .fin s m (e + k)
  | v => v

/-- floor(log2) of the largest finite magnitude, if one is not 0. -/
def blockTop (xs : List FpVal) : Option Int :=
  xs.foldl (fun a v => match v with
    | .fin _ m e => if m = 0 then a else
        let t := e + Nat.log2 m
        some (match a with | none => t | some u => max u t)
    | _ => a) none

/-- quantise_block of R41: 32 codes and the scale byte. n is 7 for tap8 and 5 for tap6. -/
def quantiseBlock (xs : List FpVal) (n : Nat) : List Nat × Byte :=
  let tgt : Int := if n = 7 then 3 else 2
  let special := xs.any (fun v => v.isNan || v.isInf)
  match blockTop xs with
  | none => if special then (xs.map (fun v => roundTap v n), 0) else (xs.map (fun _ => 0), 0x80)
  | some t =>
    let e := max (-127) (min 127 (t - tgt))
    (xs.map (fun v => roundTap (v.scale (-e)) n), BitVec.ofInt 8 e)

/-- The value of an element under its scale byte (R38). -/
def scaledElem (v : FpVal) (sb : Byte) : FpVal := if sb = 0x80 then .fin false 0 0 else v.scale sb.toInt

/-- The flags of vquant (R42). -/
def quantFlags (xs : List FpVal) (codes : List Nat) (sb : Byte) (n : Nat) : Flags :=
  let judged := xs.zip codes
  let maxMag := (tapMag (2 ^ n - 1) n)
  let saturates (v : FpVal) : Bool := match v with
    | .inf _ => true
    | .fin _ m e => sb != 0x80 && magCompare (m, e - sb.toInt) maxMag = .gt
    | .nan _ => false
  { nv := xs.any FpVal.isNan, dz := false, of := xs.any saturates, uf := false
    nx := judged.any (fun (v, c) => !v.isNan && !sameNumber v (scaledElem (decodeTap c n) sb)) }

/-- The lane that vdeq gives for a code (R43). -/
def dequant (rm : RMode) (code n : Nat) (sb : Byte) : Nat × Flags :=
  match scaledElem (decodeTap code n) sb with
  | .nan _ => (f32.nan, Flags.none)
  | v => f32.roundVal rm false v

/-! ### Atomic and reduction operations (R120) -/

/-- The format of a floating atomic of a width. -/
def fmtOfWidth : Width → FpFmt
  | .w32 => f32 | .w64 => f64

/-- Bits of a width. -/
def widthBits : Width → Nat
  | .w32 => 32 | .w64 => 64

/-- A value of a width read as signed. -/
def widthSigned (w : Width) (x : Nat) : Int := if x < 2 ^ (widthBits w - 1) then x else x - 2 ^ widthBits w

/-- The new memory value from old value o and operand v (R120). -/
def atomResult (op : AtomOp) (w : Width) (o v : Nat) : Nat :=
  let n := 2 ^ widthBits w
  let o := o % n
  let v := v % n
  match op with
  | .add => (o + v) % n
  | .and => o &&& v
  | .or => o ||| v
  | .xor => o ^^^ v
  | .max => if widthSigned w o < widthSigned w v then v else o
  | .min => if widthSigned w v < widthSigned w o then v else o
  | .swap => v
  | .fadd => ((fmtOfWidth w).addVal .rne false ((fmtOfWidth w).read false o) ((fmtOfWidth w).read false v)).1
  | .maxu => max o v
  | .minu => min o v
  | .fmax => ((fmtOfWidth w).minmax true false o v).1
  | .fmin => ((fmtOfWidth w).minmax false false o v).1

end Sys2Proof.Machine
end

