-- ==== Sys2Proof/Machine/Tags.lean ====
section
/-! DEFINITION. The judgement of a bundle's sources and destinations before it issues: tags, poison marks and damaged control registers (R10, R12, R93, R218, R219, R230, R233). -/

namespace Sys2Proof.Machine

open Sys2Proof

/-- cr.tinf of a tag cause: register number, class, word (R233). -/
def tagInfo (r : RegName) (word : Nat) : Word := BitVec.ofNat 64 (r.num + r.cls * 32 + word * 128)

/-- What the examination of a bundle's sources and destinations decides (R10, R12, R218). -/
inductive TagVerdict where
  | trap (v : TrapVal)
  /-- a source is Open, by name and word, for the trap of R10's limit -/
  | open_ (r : RegName) (word : Nat)
  | pending
  | ready
  deriving DecidableEq, Repr

/-- The trap of one source: Void, or a poison mark (R218, R219). -/
def sourceTrap (regs : Regs) (r : RegName) (word : Nat) : Option TrapVal :=
  if regs.tag r = .void then some { cause := 0x021, tval := 0, tinf := tagInfo r word }
  else if regs.tag r = .full then
    (regs.mark r).map (fun m => { cause := m.cause.toNat, tval := regs.low r, tinf := m.info.setWidth 64 })
  else none

/-- Instructions whose operands in a gang are the leader's alone: compare and mask branches, and jalr (R93). -/
def readsLeader : Instr → Bool
  | .beq .. => true | .bne .. => true | .blt .. => true | .bge .. => true | .bltu .. => true | .bgeu .. => true
  | .bmany .. => true | .bmnone .. => true | .bmall .. => true | .bmnall .. => true | .jalr .. => true
  | _ => false

/-- The sources that an instruction reads in its own thread: none of a branch or jalr in a follower (R93). -/
def ownSources (follower : Bool) (i : Instr) : List RegName := if follower && readsLeader i then [] else sources i

/-- The control registers that an instruction reads: the one it names, cr.fcsr of floating-point arithmetic, the operand formats of tile commands, what a return restores, the mailboxes' configuration (R20, R99, R138, R181; log 23). -/
def crReads : Instr → List Nat
  | .crr _ i => [i.toNat] | .crs _ _ i => [i.toNat] | .crc _ _ i => [i.toNat]
  | .hret => [0x011] | .sret => [0x111, 0x116]
  | .mma .. => [0x020, 0x021, 0x022] | .gmma .. => [0x020, 0x021, 0x022] | .mmas .. => [0x020, 0x021, 0x022]
  | .mrecv .. => [0x060] | .mpoll .. => [0x060] | .wait .. => [0x041]
  | .fadd .. => [0x030] | .fsub .. => [0x030] | .fmul .. => [0x030] | .fdiv .. => [0x030] | .fsqrt .. => [0x030]
  | .fmin .. => [0x030] | .fmax .. => [0x030] | .feq .. => [0x030] | .flt .. => [0x030] | .fle .. => [0x030]
  | .fcvt .. => [0x030] | .fcvti .. => [0x030] | .fcvtiu .. => [0x030] | .icvtf .. => [0x030] | .ucvtf .. => [0x030]
  | .fmadd .. => [0x030] | .fmsub .. => [0x030] | .fnmadd .. => [0x030] | .fnmsub .. => [0x030]
  | .vfaddS .. => [0x030] | .vfsubS .. => [0x030] | .vfmulS .. => [0x030] | .vfdivS .. => [0x030] | .vfsqrtS .. => [0x030]
  | .vfminS .. => [0x030] | .vfmaxS .. => [0x030] | .vfmaddS .. => [0x030] | .vfeqS .. => [0x030] | .vfltS .. => [0x030] | .vfleS .. => [0x030]
  | .vcvtWS .. => [0x030] | .vcvtWuS .. => [0x030] | .vcvtSW .. => [0x030] | .vcvtSWu .. => [0x030]
  | .vcvtHS .. => [0x030] | .vcvtBfS .. => [0x030] | .vcvtSHLo .. => [0x030] | .vcvtSHHi .. => [0x030] | .vcvtSBfLo .. => [0x030] | .vcvtSBfHi .. => [0x030]
  | .vquantTap8P0 .. => [0x030] | .vquantTap8P1 .. => [0x030] | .vquantTap6P0 .. => [0x030] | .vquantTap6P1 .. => [0x030]
  | .vdeqTap8Q0 .. => [0x030] | .vdeqTap8Q1 .. => [0x030] | .vdeqTap8Q2 .. => [0x030] | .vdeqTap8Q3 .. => [0x030]
  | .vdeqTap6Q0 .. => [0x030] | .vdeqTap6Q1 .. => [0x030] | .vdeqTap6Q2 .. => [0x030] | .vdeqTap6Q3 .. => [0x030] | .vdeqTap6Q4 .. => [0x030]
  | .vredFaddS .. => [0x030] | .vredFminS .. => [0x030] | .vredFmaxS .. => [0x030]
  | .vfrecipS .. => [0x030] | .vfrsqrtS .. => [0x030] | .vfexp2S .. => [0x030] | .vflog2S .. => [0x030]
  | _ => []

/-- The trap of a control register whose storage is damaged (R230). -/
def damageTrap (i : Nat) : TrapVal := { cause := 0x1A4, tval := 0, tinf := BitVec.ofNat 64 (i * 32 + 2 ^ 17) }

/-- The first trap that the sources of a word raise: its registers in order, then a damaged control register that it reads (R218, R230). -/
def wordTrap (follower : Bool) (damaged : Nat → Bool) (regs : Regs) (i : Instr) (word : Nat) : Option TrapVal :=
  ((ownSources follower i).findSome? (fun r => sourceTrap regs r word)).or (((crReads i).find? damaged).map damageTrap)

/-- The first source of a bundle that is Open, with its word (R10). -/
def openSource (follower : Bool) (regs : Regs) (words : List (Instr × Nat)) : Option (RegName × Nat) :=
  (words.flatMap (fun (i, w) => (ownSources follower i).map (fun r => (r, w)))).find? (fun (r, _) => regs.tag r = .opened)

/-- A bundle waits for a Pending source or destination (R10, R12, R235). -/
def waitsPending (follower : Bool) (regs : Regs) (words : List (Instr × Nat)) : Bool :=
  words.any (fun (i, _) => (ownSources follower i).any (fun r => regs.tag r = .pending) || (dests i).any (fun r => regs.tag r = .pending))

/-- The sources and destinations of a bundle's words, judged: the first Void, marked or damaged source traps; else an Open or Pending source, or a Pending destination, parks; open also parks on a Pending target (R10–R12, R218). -/
def judgeTags (follower : Bool) (damaged : Nat → Bool) (regs : Regs) (words : List (Instr × Nat)) : TagVerdict :=
  match words.findSome? (fun (i, w) => wordTrap follower damaged regs i w) with
  | some v => .trap v
  | none =>
    match openSource follower regs words with
    | some (r, w) => .open_ r w
    | none => if waitsPending follower regs words then .pending else .ready

end Sys2Proof.Machine
end

