-- ==== Sys2Proof/Machine/Scalar.lean ====
section
/-! DEFINITION. Integer instructions: A majors 0x01 to 0x0D (R74, R77–R81). -/

namespace Sys2Proof.Machine

open Sys2Proof

/-! ### Shared forms -/

/-- A result of two registers, Full with latency 8 (R76). -/
def alu (d a b : Fin 32) (f : Word → Word → Word) (s : State) : Result := .next (s.putG d (f (s.gval a) (s.gval b)))

/-- A result of a register and a sign-extended immediate (R78). -/
def aluImm (d a : Fin 32) (i : BitVec 13) (f : Word → Word → Word) (s : State) : Result :=
  .next (s.putG d (f (s.gval a) (sext i)))

/-- A result of one register. -/
def unary (d a : Fin 32) (f : Word → Word) (s : State) : Result := .next (s.putG d (f (s.gval a)))

/-- 1 or 0 (R77). -/
def boolWord (b : Bool) : Word := if b then 1 else 0

/-- A signed value saturated to 64 bits (R77). -/
def sat64 (x : Int) : Word := if x < -(2 ^ 63) then BitVec.intMin 64 else if 2 ^ 63 - 1 < x then BitVec.intMax 64 else BitVec.ofInt 64 x

/-- The count of a shift: bits 5:0 (R77). -/
def shiftCount (x : Word) : Nat := (x.setWidth 6).toNat

/-- Leading zero bits (R81). -/
def clzWord (x : Word) : Nat := if x = 0 then 64 else 63 - Nat.log2 x.toNat
/-- Trailing zero bits (R81). -/
def ctzWord (x : Word) : Nat := ((List.range 64).find? (fun i => x.getLsbD i)).getD 64
/-- One bits (R81). -/
def popWord (x : Word) : Nat := ((List.range 64).filter (fun i => x.getLsbD i)).length

/-- Significant bits of a magnitude (R28). -/
def sigBits (n : Nat) : Nat := if n = 0 then 0 else Nat.log2 n + 1

/-- The quotient, remainder and latency of int_divide for a divisor other than 0 or equal to it (R80). -/
def intDivide (signed : Bool) (a b : Word) : Int × Int × Nat :=
  let x : Int := if signed then a.toInt else a.toNat
  let y : Int := if signed then b.toInt else b.toNat
  if y = 0 then (-1, x, 24)
  else
    let q := x.tdiv y
    (q, x - q * y, 24 + ceilDiv (sigBits q.natAbs) 4)

/-- Division and remainder: Pending for the latency of R80; the .ck variants trap on a zero divisor. -/
def divide (signed rem check : Bool) (d a b : Fin 32) (s : State) : Result :=
  let (q, r, lat) := intDivide signed (s.gval a) (s.gval b)
  if check && s.gval b == 0 then .next (s.trap 0x041 0 0)
  else .next (s.putGLong d lat (BitVec.ofInt 64 (if rem then r else q)))

/-! ### Major 0x01 (R77) -/

/-- add: sum modulo 2^64 (R77). -/
def execAdd (d a b : Fin 32) (s : State) : Result := alu d a b (fun x y => x + y) s
/-- sub: difference modulo 2^64 (R77). -/
def execSub (d a b : Fin 32) (s : State) : Result := alu d a b (fun x y => x - y) s
/-- and (R77). -/
def execAnd (d a b : Fin 32) (s : State) : Result := alu d a b (fun x y => x &&& y) s
/-- or (R77). -/
def execOr (d a b : Fin 32) (s : State) : Result := alu d a b (fun x y => x ||| y) s
/-- xor (R77). -/
def execXor (d a b : Fin 32) (s : State) : Result := alu d a b (fun x y => x ^^^ y) s
/-- andn: gs1 AND NOT gs2 (R77). -/
def execAndn (d a b : Fin 32) (s : State) : Result := alu d a b (fun x y => x &&& ~~~y) s
/-- sll (R77). -/
def execSll (d a b : Fin 32) (s : State) : Result := alu d a b (fun x y => x <<< shiftCount y) s
/-- srl (R77). -/
def execSrl (d a b : Fin 32) (s : State) : Result := alu d a b (fun x y => x >>> shiftCount y) s
/-- sra (R77). -/
def execSra (d a b : Fin 32) (s : State) : Result := alu d a b (fun x y => x.sshiftRight (shiftCount y)) s
/-- slt: signed less (R77). -/
def execSlt (d a b : Fin 32) (s : State) : Result := alu d a b (fun x y => boolWord (x.slt y)) s
/-- sltu: unsigned less (R77). -/
def execSltu (d a b : Fin 32) (s : State) : Result := alu d a b (fun x y => boolWord (x.ult y)) s
/-- min: signed (R77). -/
def execMin (d a b : Fin 32) (s : State) : Result := alu d a b (fun x y => if y.slt x then y else x) s
/-- max: signed (R77). -/
def execMax (d a b : Fin 32) (s : State) : Result := alu d a b (fun x y => if x.slt y then y else x) s
/-- minu (R77). -/
def execMinu (d a b : Fin 32) (s : State) : Result := alu d a b (fun x y => if y.ult x then y else x) s
/-- maxu (R77). -/
def execMaxu (d a b : Fin 32) (s : State) : Result := alu d a b (fun x y => if x.ult y then y else x) s
/-- adds: signed sum, saturated (R77). -/
def execAdds (d a b : Fin 32) (s : State) : Result := alu d a b (fun x y => sat64 (x.toInt + y.toInt)) s
/-- subs: signed difference, saturated (R77). -/
def execSubs (d a b : Fin 32) (s : State) : Result := alu d a b (fun x y => sat64 (x.toInt - y.toInt)) s

/-! ### Immediate forms (R78, R79) -/

/-- addi (R78). -/
def execAddi (d a : Fin 32) (i : BitVec 13) (s : State) : Result := aluImm d a i (fun x y => x + y) s
/-- andi (R78). -/
def execAndi (d a : Fin 32) (i : BitVec 13) (s : State) : Result := aluImm d a i (fun x y => x &&& y) s
/-- ori (R78). -/
def execOri (d a : Fin 32) (i : BitVec 13) (s : State) : Result := aluImm d a i (fun x y => x ||| y) s
/-- xori (R78). -/
def execXori (d a : Fin 32) (i : BitVec 13) (s : State) : Result := aluImm d a i (fun x y => x ^^^ y) s
/-- slti (R78). -/
def execSlti (d a : Fin 32) (i : BitVec 13) (s : State) : Result := aluImm d a i (fun x y => boolWord (x.slt y)) s
/-- sltiu: both read as unsigned (R78). -/
def execSltiu (d a : Fin 32) (i : BitVec 13) (s : State) : Result := aluImm d a i (fun x y => boolWord (x.ult y)) s
/-- slli: shift by a count of 0 to 63 (R79). -/
def execSlli (d a : Fin 32) (k : BitVec 6) (s : State) : Result := unary d a (fun x => x <<< k.toNat) s
/-- srli: shift by a count of 0 to 63 (R79). -/
def execSrli (d a : Fin 32) (k : BitVec 6) (s : State) : Result := unary d a (fun x => x >>> k.toNat) s
/-- srai: shift by a count of 0 to 63 (R79). -/
def execSrai (d a : Fin 32) (k : BitVec 6) (s : State) : Result := unary d a (fun x => x.sshiftRight k.toNat) s
/-- ldi: gd := imm18 (R78). -/
def execLdi (d : Fin 32) (i : BitVec 18) (s : State) : Result := .next (s.putG d (sext i))
/-- lsh: gd := (gd << 18) OR imm18 (R78). -/
def execLsh (d : Fin 32) (i : BitVec 18) (s : State) : Result := unary d d (fun x => (x <<< 18) ||| zext i) s

/-! ### Multiplication and division (R80) -/

/-- mul: low 64 bits (R80). -/
def execMul (d a b : Fin 32) (s : State) : Result := alu d a b (fun x y => x * y) s
/-- mulh: high 64 bits of the signed product (R80). -/
def execMulh (d a b : Fin 32) (s : State) : Result := alu d a b (fun x y => BitVec.ofInt 64 (x.toInt * y.toInt / 2 ^ 64)) s
/-- mulhu: high 64 bits of the unsigned product (R80). -/
def execMulhu (d a b : Fin 32) (s : State) : Result := alu d a b (fun x y => BitVec.ofNat 64 (x.toNat * y.toNat / 2 ^ 64)) s
/-- div (R80). -/
def execDiv (d a b : Fin 32) (s : State) : Result := divide true false false d a b s
/-- div.ck (R80). -/
def execDivCk (d a b : Fin 32) (s : State) : Result := divide true false true d a b s
/-- divu (R80). -/
def execDivu (d a b : Fin 32) (s : State) : Result := divide false false false d a b s
/-- divu.ck (R80). -/
def execDivuCk (d a b : Fin 32) (s : State) : Result := divide false false true d a b s
/-- rem (R80). -/
def execRem (d a b : Fin 32) (s : State) : Result := divide true true false d a b s
/-- rem.ck (R80). -/
def execRemCk (d a b : Fin 32) (s : State) : Result := divide true true true d a b s
/-- remu (R80). -/
def execRemu (d a b : Fin 32) (s : State) : Result := divide false true false d a b s
/-- remu.ck (R80). -/
def execRemuCk (d a b : Fin 32) (s : State) : Result := divide false true true d a b s

/-! ### Moves, selects and counts (R81) -/

/-- movz: writes only when gs2 = 0 (R81). -/
def execMovz (d a b : Fin 32) (s : State) : Result := if s.gval b = 0 then .next (s.putG d (s.gval a)) else .next s
/-- movn: writes only when gs2 ≠ 0 (R81). -/
def execMovn (d a b : Fin 32) (s : State) : Result := if s.gval b ≠ 0 then .next (s.putG d (s.gval a)) else .next s
/-- clz (R81). -/
def execClz (d a : Fin 32) (s : State) : Result := unary d a (fun x => BitVec.ofNat 64 (clzWord x)) s
/-- ctz (R81). -/
def execCtz (d a : Fin 32) (s : State) : Result := unary d a (fun x => BitVec.ofNat 64 (ctzWord x)) s
/-- popc (R81). -/
def execPopc (d a : Fin 32) (s : State) : Result := unary d a (fun x => BitVec.ofNat 64 (popWord x)) s

end Sys2Proof.Machine
end

