-- ==== Sys2Proof/Machine/Control.lean ====
section
/-! DEFINITION. Branches and jumps (R89–R93), control registers (R16–R21, R94, and the register rules of every chapter) and the system major (R96–R99). -/

namespace Sys2Proof.Machine

open Sys2Proof

/-! ### Branches and jumps -/

/-- A compare branch (R89): its offset counts words from its own address (R54). -/
def branch (c : Word → Word → Bool) (a b : Fin 32) (o : BitVec 13) (s : State) : Result :=
  if c (s.gval a) (s.gval b) then .next (s.jump (branchTarget s.cur.pc o)) else .next s

/-- A mask branch (R90). -/
def maskBranch (c : MWord → Bool) (a : Fin 8) (o : BitVec 13) (s : State) : Result :=
  if c (s.mval a) then .next (s.jump (branchTarget s.cur.pc o)) else .next s

/-- beq (R89). -/
def execBeq (a b : Fin 32) (o : BitVec 13) (s : State) : Result := branch (fun x y => x == y) a b o s
/-- bne (R89). -/
def execBne (a b : Fin 32) (o : BitVec 13) (s : State) : Result := branch (fun x y => x != y) a b o s
/-- blt (R89). -/
def execBlt (a b : Fin 32) (o : BitVec 13) (s : State) : Result := branch (fun x y => x.slt y) a b o s
/-- bge (R89). -/
def execBge (a b : Fin 32) (o : BitVec 13) (s : State) : Result := branch (fun x y => !x.slt y) a b o s
/-- bltu (R89). -/
def execBltu (a b : Fin 32) (o : BitVec 13) (s : State) : Result := branch (fun x y => x.ult y) a b o s
/-- bgeu (R89). -/
def execBgeu (a b : Fin 32) (o : BitVec 13) (s : State) : Result := branch (fun x y => !x.ult y) a b o s
/-- bmany (R90). -/
def execBmany (a : Fin 8) (o : BitVec 13) (s : State) : Result := maskBranch (fun x => x != 0) a o s
/-- bmnone (R90). -/
def execBmnone (a : Fin 8) (o : BitVec 13) (s : State) : Result := maskBranch (fun x => x == 0) a o s
/-- bmall (R90). -/
def execBmall (a : Fin 8) (o : BitVec 13) (s : State) : Result := maskBranch (fun x => x == 0xFFFF) a o s
/-- bmnall (R90). -/
def execBmnall (a : Fin 8) (o : BitVec 13) (s : State) : Result := maskBranch (fun x => x != 0xFFFF) a o s
/-- jal: link and jump (R91). -/
def execJal (d : Fin 32) (o : BitVec 18) (s : State) : Result := 
  .next ((s.putG d s.cur.nextPc).jump (branchTarget s.cur.pc o))
/-- jalr: a misaligned target traps at issue and nothing is written; a follower takes the target of its leader (R91, R93). -/
def execJalr (d a : Fin 32) (i : BitVec 13) (s : State) : Result := 
  let t := s.gval a + sext i
  if t &&& 3 ≠ 0 ∧ s.me.st.role ≠ .follower then .next (s.trap 0x061 t 0)
  else .next ((s.putG d s.cur.nextPc).jump t)

/-! ### Reading control registers (R17–R20, R94) -/

/-- The core whose core-scoped registers a thread reads: a shadow reads its primary's (R394). -/
def State.viewCore (s : State) (c : CoreKey) : CoreKey := ((s.core c).shadowOf).getD c

/-- cr.tid bits 63:24 of a slot of a core (R18). -/
def tidWord (c : CoreKey) (slot gen idx : Nat) : Nat :=
  c / 1536 * 2 ^ 55 + c / 384 % 4 * 2 ^ 53 + c / 16 % 24 * 2 ^ 48 + c % 16 * 2 ^ 44 + slot * 2 ^ 40 + gen * 2 ^ 24 + idx

/-- The core that bits 63:44 of an identity name (R18). -/
def coreOfId (w : Nat) : CoreKey := ((w / 2 ^ 55 % 512 * 4 + w / 2 ^ 53 % 4) * 24 + w / 2 ^ 48 % 32) * 16 + w / 2 ^ 44 % 16

/-- The core that an identity names in the pod of a package (R18, R377). -/
def State.coreById (s : State) (p : PkgKey) (w : Nat) : CoreKey := 1536 * s.pod0 p + coreOfId w

/-- The thread that an identity laid out as cr.tid names in the pod of a package (R18, R377). -/
def State.refById (s : State) (p : PkgKey) (w : Nat) : ThreadRef := { core := s.coreById p w, slot := w / 2 ^ 40 % 16, gen := w / 2 ^ 24 % 65536 }

/-- cr.tid bits 63:24 of a slot, its package numbered in its pod (R18, R377). -/
def State.tidOf (s : State) (c : CoreKey) (slot gen idx : Nat) : Nat := tidWord (c - 1536 * s.pod0 (pkgOf c)) slot gen idx

/-- GROLE (R19). -/
def GangRole.code : GangRole → Nat
  | .independent => 0 | .leader => 1 | .follower => 2

/-- cr.status as a doubleword (R19). -/
def statusWord (st : Status) : Word :=
  BitVec.ofNat 64 (st.sup.toNat + st.ie.toNat * 2 + GangRole.code st.role * 4 + st.gidx.val * 16 + st.tx.toNat * 64 + st.mir.toNat * 128 + st.intrap.toNat * 256)

/-- The code of a rounding mode (R20). -/
def rmodeCode : RMode → Nat
  | .rne => 0 | .rmm => 1 | .rtz => 2 | .rup => 3 | .rdn => 4

/-- The rounding mode of a code; 5 to 7 name none (R20). -/
def rmodeOf : Nat → Option RMode
  | 0 => some .rne | 1 => some .rmm | 2 => some .rtz | 3 => some .rup | 4 => some .rdn | _ => none

/-- cr.fcsr as a doubleword (R20). -/
def fcsrWord (c : Fcsr) : Word :=
  BitVec.ofNat 64 (rmodeCode c.rm + c.nv.toNat * 8 + c.dz.toNat * 16 + c.of.toNat * 32 + c.uf.toNat * 64 + c.nx.toNat * 128 + c.ftz.toNat * 256)

/-- cr.fcsr from a doubleword; RM of 5 to 7 keeps the old mode (R20). -/
def fcsrOf (old : Fcsr) (w : Word) : Fcsr :=
  { rm := (rmodeOf (w.setWidth 3).toNat).getD old.rm, nv := w.getLsbD 3, dz := w.getLsbD 4, of := w.getLsbD 5
    uf := w.getLsbD 6, nx := w.getLsbD 7, ftz := w.getLsbD 8 }

/-- cr.accown: bit 8i + 7 and the owner in bits 8i + 3 : 8i (R17). -/
def accownWord (k : Core) : Word :=
  BitVec.ofNat 64 ((List.range 4).foldl (fun a i => match k.accOwn[i]? with
    | some (some o) => a + (128 + o.val) * 2 ^ (8 * i)
    | _ => a) 0)

/-- cr.mbox (R138). -/
def mboxWord (k : Core) : Word := BitVec.ofNat 64 (k.mboxBase.toNat + k.mboxDepth.toNat * 2 ^ 10 + k.mboxEn.toNat * 2 ^ 16)
/-- cr.spill (R244). -/
def spillWord (k : Core) : Word := BitVec.ofNat 64 (k.spillBase.toNat * 2 ^ 7 + k.spillCap.toNat * 2 ^ 18 + k.spillCnt * 2 ^ 32)

/-- LIVE of cr.ctxt: the core holds a thread, an arrival-queue entry or a spill entry (R340). -/
def Core.live (k : Core) : Bool :=
  (List.range 16).any (fun i => (k.slot i).occ = .thread || (k.slot i).occ = .draining)
    || !k.arrivals.isEmpty || k.spillCnt != 0 || !k.installs.isEmpty || k.spillMove.isSome

/-- A thread of a context is placed, installed or restored on the core (R336, R340). -/
def Core.takeCtx (k : Core) (ctx : Nat) : Core := { k with ctxLast := ctx, tenant := true }

/-- Slots of the core are reserved for a launch whose threads have yet to start, or for a context that is being installed or restored. -/
def Core.hasReserved (k : Core) : Bool := (List.range 16).any (fun i => (k.slot i).occ = .reserved)

/-- cr.wsref: cycles to the next refresh window (R17, R260). -/
def wsref (cyc : Nat) : Nat := (2048 - cyc % 2048) % 2048

/-- The drops that a core has counted in a cycle (R248). -/
def Core.dropsOf (k : Core) (cycle : Nat) : Nat := if k.dropCycle = cycle then k.dropNow else 0

/-- The core, cluster, die or package that holds a control register of a core; none for a slot-scoped one (R17, R337, R340, R361, R377, R392). -/
def crUnit (c : CoreKey) (i : Nat) : Option Nat :=
  if [0x002, 0x003, 0x024, 0x050, 0x051, 0x060, 0x070, 0x100, 0x120, 0x131, 0x160].contains i then some c
  else if [0x140, 0x141, 0x142].contains i then some (cluOf c)
  else if [0x170, 0x171].contains i then some (dieOf c)
  else if [0x143, 0x150, 0x180].contains i then some (pkgOf c)
  else none

/-- The g register that receives a control register's value, and its index (R94). -/
def crTarget : Instr → Option (Fin 32 × BitVec 12)
  | .crr d i => some (d, i)
  | .crs d _ i => some (d, i)
  | .crc d _ i => some (d, i)
  | _ => none

/-- The control registers of a slot that are damaged, for the judgement of its bundles (R230, R390). -/
def State.damagedCR (s : State) (c : CoreKey) (i : Nat) (r : Nat) : Bool :=
  match crUnit c r with
  | some u => s.crDamage.contains (u, r)
  | none => (s.slot c i).crDamage.any (fun x => x.toNat == r)

/-- What crr reads, as it stands before the bundle (R21, R94); an unassigned index reads 0 (R16). -/
def State.readCR (s : State) (i : Nat) : Word :=
  let c := s.cur.core
  let v := s.viewCore c
  let p := pkgOf c
  let sl := s.me
  let k := s.core v
  let d := s.die (dieOf c)
  let h := s.clu (cluOf c)
  let nat (n : Nat) : Word := BitVec.ofNat 64 n
  let cyc := s.cyc p - (if (s.core c).shadowOf.isSome then 1 else 0)
  match i with
  | 0x000 => nat (s.tidOf v s.cur.slot sl.gen sl.idx)
  | 0x001 => nat (sl.launch % 2 ^ 32 + sl.ctx * 2 ^ 32)
  | 0x002 => nat cyc
  | 0x003 => nat k.time
  | 0x004 => nat sl.snap
  | 0x008 => statusWord sl.st
  | 0x010 => zext sl.cause
  | 0x011 => sl.epc
  | 0x012 => sl.tval
  | 0x013 => sl.tinf
  | 0x014 => sl.tvec
  | 0x015 => sl.tsave
  | 0x020 => zext sl.mfmt
  | 0x021 => zext sl.ascl
  | 0x022 => zext sl.kval
  | 0x023 => zext sl.mstat
  | 0x024 => accownWord k
  | 0x030 => fcsrWord s.cur.fcsr
  | 0x040 => zext sl.wlim
  | 0x041 => zext sl.mlim
  | 0x050 => nat (wsref cyc)
  | 0x051 => 2048
  | 0x060 => mboxWord k
  | 0x070 => spillWord k
  | 0x100 => k.dropc - BitVec.ofNat 64 (k.dropsOf s.cycle)
  | 0x110 => zext sl.scause
  | 0x111 => sl.sepc
  | 0x112 => sl.stval
  | 0x113 => sl.stinf
  | 0x114 => sl.svec
  | 0x115 => sl.ssave
  | 0x116 => nat (sl.psup.toNat + sl.pie.toNat * 2)
  | 0x117 => zext sl.sdeleg + 0xF000
  | 0x120 => if 4 ≤ d.hcalls.length then 1 <<< 63 else 0
  | 0x131 => nat (k.ctxLast + k.live.toNat * 2 ^ 16)
  | 0x140 => nat (h.poolBase.toNat + h.poolLen.toNat * 2 ^ 16)
  | 0x141 => nat ((h.poolLen.toNat * 512 - h.poolUsed.length) + h.lost.toNat * 2 ^ 32)
  | 0x142 => nat h.floor
  | 0x143 => nat (s.pkg p).registry.length
  | 0x150 => nat ((s.pkg p).podPkg + (s.pkg p).podN * 2 ^ 9 + (s.pkg p).podDiam * 2 ^ 18 + (s.pkg p).podId * 2 ^ 32)
  | 0x160 => nat (k.mirrLbase.toNat + k.mirrLcap.toNat * 2 ^ 6 + k.mirrCkn.toNat * 2 ^ 16 + k.mirrRoll.toNat * 2 ^ 48)
  | 0x170 => nat (d.elogLog.toNat + d.elogBase.toNat * 2 ^ 12)
  | 0x171 => nat (d.elHead.toNat + d.elTail.toNat * 2 ^ 17 + d.elOvf.toNat * 2 ^ 34 + d.elCorr.toNat * 2 ^ 35)
  | 0x180 => nat ((s.pkg p).step + (s.pkg p).hot.toNat * 8 + (s.pkg p).lim * 16)
  | _ => 0

/-! ### Writing control registers -/

/-- Bits hi:lo of a word. -/
def wordBits (w : Word) (hi lo : Nat) : Nat := slice w.toNat hi lo

/-- A write of a register that other cores read too, which takes effect at the end of the cycle (R21). -/
def State.writeLater (s : State) (i : Nat) (w : Word) (clears : Bool) : State := { s with crWrites := s.crWrites ++ [(s.cur.core, i, w, clears)] }

/-- Such a write takes effect: LOST, the error log's place and HEAD, or OVF cleared by a 1 (R361, R392). -/
def State.applyWrite (s : State) (c : CoreKey) (i : Nat) (w : Word) (clears : Bool) : State :=
  match i with
  | 0x141 => s.modClu (cluOf c) (fun k => { k with lost := BitVec.ofNat 32 (wordBits w 63 32) })
  | 0x170 => s.modDie (dieOf c) (fun d => { d with elogLog := w.setWidth 5, elogBase := BitVec.ofNat 30 (wordBits w 41 12) })
  | 0x171 =>
    if clears then s.modDie (dieOf c) (fun d => { d with elOvf := d.elOvf && !w.getLsbD 34 })
    else s.modDie (dieOf c) (fun d => { d with elHead := w.setWidth 17 })
  | _ => s

/-- The cycle's writes of such registers take effect in the order in which they were made (R21). -/
def State.applyWrites (s : State) : State :=
  s.crWrites.foldl (fun s (c, i, w, x) => s.applyWrite c i w x) { s with crWrites := [] }

/-- Store the RW fields of a register (R5, R17–R20, R94, R224–R226, R244, R248, R362, R392, R399); other indices hold none. Registers whose write is a step of its own start it at the end of the cycle. -/
def State.storeCR (s : State) (i : Nat) (w : Word) : State :=
  let c := s.cur.core
  let sup := s.me.st.sup
  let me (f : Slot → Slot) : State := s.modMe f
  match i with
  | 0x003 => if sup then s.raiseTime c w.toNat else s
  | 0x008 => if sup then me (fun sl => { sl with st := { sl.st with ie := w.getLsbD 1, intrap := w.getLsbD 8 } }) else s
  | 0x010 => me (fun sl => { sl with cause := w.setWidth 9 })
  | 0x011 => me (fun sl => { sl with epc := pcWord w })
  | 0x012 => me (fun sl => { sl with tval := w })
  | 0x013 => me (fun sl => { sl with tinf := w })
  | 0x014 => me (fun sl => { sl with tvec := alignDouble w })
  | 0x015 => me (fun sl => { sl with tsave := w })
  | 0x020 => me (fun sl => { sl with mfmt := w.setWidth 3 })
  | 0x021 => me (fun sl => { sl with ascl := w.setWidth 18 })
  | 0x022 => me (fun sl => { sl with kval := w.setWidth 11 })
  | 0x030 => me (fun sl => { sl with fcsr := fcsrOf sl.fcsr w })
  | 0x040 => me (fun sl => { sl with wlim := w.setWidth 32 })
  | 0x041 => me (fun sl => { sl with mlim := w.setWidth 32 })
  | 0x060 => s.post (4 * s.cycle + 3) 0 (.mboxWrite c w)
  | 0x070 =>
    let base := wordBits w 17 7
    let cap := wordBits w 24 18
    if sup && (s.core c).spillCnt == 0 && cap ≤ 64 && base * 128 + cap * 128 ≤ 262144 then
      s.modCore c (fun k => { k with spillBase := BitVec.ofNat 11 base, spillCap := BitVec.ofNat 7 cap, spillHead := 0 })
    else s
  | 0x100 => s.modCore c (fun k => { k with dropc := w + BitVec.ofNat 64 (k.dropsOf s.cycle) })
  | 0x110 => me (fun sl => { sl with scause := w.setWidth 9 })
  | 0x111 => me (fun sl => { sl with sepc := alignWord w })
  | 0x112 => me (fun sl => { sl with stval := w })
  | 0x113 => me (fun sl => { sl with stinf := w })
  | 0x114 => me (fun sl => { sl with svec := alignDouble w })
  | 0x115 => me (fun sl => { sl with ssave := w })
  | 0x116 => me (fun sl => { sl with psup := w.getLsbD 0, pie := w.getLsbD 1 })
  | 0x117 => me (fun sl => { sl with sdeleg := w.setWidth 12 })
  | 0x140 => s.post (4 * s.cycle + 3) 0 (.vpoolWrite (cluOf c) w)
  | 0x141 => s.writeLater i w false
  | 0x160 =>
    if wordBits w 5 0 * 4096 + wordBits w 15 6 * 16 ≤ 262144 then
      s.modCore c (fun k => { k with mirrLbase := BitVec.ofNat 6 (wordBits w 5 0), mirrLcap := BitVec.ofNat 10 (wordBits w 15 6) })
    else s
  | 0x170 => s.writeLater i w false
  | 0x171 => s.writeLater i w false
  | _ => s

/-- The scope of a code (R64). -/
def scopeOf (n : Nat) : Option Scope := Scope.ofCode n

/-- A shootdown begins: the thread issues nothing until it completes (R349). -/
def State.startShootdown (s : State) (ev : ThreadRef → Nat → Instr) : State :=
  let s := s.wait .shootdown
  s.post (4 * s.cycle + 2) 0 (ev s.meRef (s.fresh - 1))

/-- The write-one-to-clear bits and the write-only actions of a crw (R94, R180, R337, R348, R351, R392). -/
def State.writeActions (s : State) (i : Nat) (w : Word) : State :=
  let c := s.cur.core
  match i with
  | 0x023 => s.modMe (fun sl => { sl with mstat := sl.mstat &&& ~~~(w.setWidth 3) })
  | 0x120 => s.post (4 * s.cycle + 2) 0 (.hcall c s.cur.slot (w &&& 0x7FFFFFFFFFFFFF))
  | 0x130 =>
    match scopeOf (wordBits w 2 0), wordBits w 15 5, wordBits w 63 55 with
    | some sc, 0, 0 =>
      match wordBits w 4 3 with
      | 0 => s.startShootdown (fun t id => .tlbiContext t id sc)
      | 1 => s.startShootdown (fun t id => .tlbiPage t id sc (BitVec.ofNat 64 (wordBits w 54 16 * 65536)))
      | 2 => s.startShootdown (fun t id => .tlbiAll t id sc)
      | _ => s
    | _, _, _ => s
  | 0x132 => s.post (4 * s.cycle + 2) 0 (.psave s.meRef)
  | 0x171 => s.writeLater i w true
  | 0x172 =>
    let k := dieOf c * 24 + wordBits w 6 2
    if 24 ≤ wordBits w 6 2 then s
    else match wordBits w 1 0 with
      | 1 => s.post (4 * s.cycle + 2) 0 (.releaseRegion (k * 4 + wordBits w 8 7))
      | 2 => s.post (4 * s.cycle + 2) 0 (.retireCluster k)
      | _ => s
  | _ => s

/-- Whether the mode may access an index (R16). -/
def crAllowed (sup : Bool) (i : Nat) : Bool := sup || i < 0x100

/-- A control-register access in the mode that may make it, else cause 0x001 (R94). -/
def crAccess (i : BitVec 12) (s : State) (f : Unit → State) : Result :=
  if !crAllowed s.me.st.sup i.toNat then .next s.trapIllegal else .next (f ())

/-- A mode may write some bits of a register: an RW or W1C field (R17, R19, R94, R180, R224, R244, R248, R361, R362, R392, R399). -/
def crWritable (sup : Bool) (i : Nat) : Bool :=
  [0x010, 0x011, 0x012, 0x013, 0x014, 0x015, 0x020, 0x021, 0x022, 0x023, 0x030, 0x040, 0x041, 0x060].contains i
    || (sup && [0x003, 0x008, 0x070, 0x100, 0x110, 0x111, 0x112, 0x113, 0x114, 0x115, 0x116, 0x117, 0x140, 0x141, 0x160, 0x170, 0x171].contains i)

/-- A write of a register's fields ends the damage of its storage; a write that is ignored does not (R5, log 23). -/
def State.healCR (s : State) (i : BitVec 12) : State :=
  if !crWritable s.me.st.sup i.toNat then s
  else
    let c := s.cur.core
    { s.modMe (fun sl => { sl with crDamage := sl.crDamage.filter (· != i) }) with
      crDamage := s.crDamage.filter (fun e => !(crUnit c i.toNat == some e.1 && e.2 == i.toNat)) }

/-- crr (R94). -/
def execCrr (d : Fin 32) (i : BitVec 12) (s : State) : Result := crAccess i s (fun _ => s.putG d (s.readCR i.toNat))
/-- crw (R94). -/
def execCrw (a : Fin 32) (i : BitVec 12) (s : State) : Result := 
  crAccess i s (fun _ => ((s.healCR i).storeCR i.toNat (s.gval a)).writeActions i.toNat (s.gval a))
/-- crs: RW fields become old OR gs (R94). -/
def execCrs (d a : Fin 32) (i : BitVec 12) (s : State) : Result := 
  crAccess i s (fun _ => (s.putG d (s.readCR i.toNat)).storeCR i.toNat (s.readCR i.toNat ||| s.gval a))
/-- crc: RW fields become old AND NOT gs (R94). -/
def execCrc (d a : Fin 32) (i : BitVec 12) (s : State) : Result := 
  crAccess i s (fun _ => (s.putG d (s.readCR i.toNat)).storeCR i.toNat (s.readCR i.toNat &&& ~~~(s.gval a)))

/-! ### The system major (R96–R99) -/

/-- exit begins the retirement of the thread (R97). -/
def execExit (s : State) : Result := .next (s.beginExit s.cur.core s.cur.slot)
/-- scall completes and traps with cause 0x1C0 + code; the return address is the word after it (R98). In supervisor mode it is illegal (R96). -/
def execScall (c : Fin 32) (s : State) : Result :=
  if s.me.st.sup then .next s.trapIllegal
  else .next ((s.deliver s.cur.core s.cur.slot (s.cur.pc + 4) { cause := 0x1C0 + c.val, tval := 0, tinf := 0 }).setStatus .trapped)
/-- brk raises 0x1E1 and has no other effect (R98, R230). -/
def execBrk (s : State) : Result := .next (s.trap 0x1E1 s.cur.pc 0)
/-- hret needs SUP = 0 and INTRAP = 1 (R99). -/
def execHret (s : State) : Result :=
  if s.me.st.sup || !s.me.st.intrap then .next s.trapIllegal else .next (s.modMe Slot.returnUser)
/-- sret is supervisor only (R96, R99). -/
def execSret (s : State) : Result :=
  if !s.me.st.sup then .next s.trapIllegal else .next (s.modMe Slot.returnSupervisor)

/-- The words that R61 and R96 make illegal in a mode, judged with the bundle (R55). -/
def modeIllegal (sup : Bool) : Instr → Bool
  | .crr _ i => !crAllowed sup i.toNat
  | .crw _ i => !crAllowed sup i.toNat
  | .crs _ _ i => !crAllowed sup i.toNat
  | .crc _ _ i => !crAllowed sup i.toNat
  | .scall _ => sup
  | .hret => sup
  | .sret => !sup
  | _ => false

end Sys2Proof.Machine
end

