-- ==== Sys2Proof/Machine/Fp.lean ====
section
/-! DEFINITION. Scalar floating point: A majors 0x10 to 0x12 (R75, R83–R88). -/

namespace Sys2Proof.Machine

open Sys2Proof

/-- A result of a scalar floating-point instruction with its flags: Full at latency 8, or Pending for 16 cycles where binary64 takes part (R75, R76). -/
def fpWrite (d : Fin 32) (wide : Bool) (x : Nat × Flags) (s : State) : Result :=
  let s := s.raiseFlags x.2
  if wide then .next (s.putGLong d 16 (BitVec.ofNat 64 x.1)) else .next (s.putG d (BitVec.ofNat 64 x.1))

/-- The suffix .d takes 16 cycles (R76). -/
def isWide : Fmt → Bool
  | .d => true
  | _ => false
/-- The fused suffix .d (R76). -/
def isWide2 : Fmt2 → Bool
  | .d => true
  | .s => false

/-- Rounding mode and FTZ at the start of the cycle (R62). -/
def State.rm (s : State) : RMode := s.cur.fcsr.rm
/-- FTZ at the start of the cycle (R62). -/
def State.ftz (s : State) : Bool := s.cur.fcsr.ftz

/-- An operand as an exact value (R33, R75). -/
def State.fpVal (s : State) (f : FpFmt) (a : Fin 32) : FpVal := f.read s.ftz (s.gval a).toNat

/-- An arithmetic operation on two operands (R84). -/
def fpArith (g : FpFmt → RMode → Bool → FpVal → FpVal → Nat × Flags) (d a b : Fin 32) (f : Fmt) (s : State) : Result :=
  fpWrite d (isWide f) (g (fmtOf f) s.rm s.ftz (s.fpVal (fmtOf f) a) (s.fpVal (fmtOf f) b)) s

/-- Subtraction adds the negated value (R84). -/
def FpFmt.subVal (f : FpFmt) (rm : RMode) (ftz : Bool) (a b : FpVal) : Nat × Flags := f.addVal rm ftz a b.negate

/-- Minimum or maximum (R85). -/
def fpMinMax (max_ : Bool) (d a b : Fin 32) (f : Fmt) (s : State) : Result :=
  fpWrite d (isWide f) ((fmtOf f).minmax max_ s.ftz (s.gval a).toNat (s.gval b).toNat) s

/-- A sign operation on bits (R85). -/
def fpSign (g : Bool → Bool → Bool) (d a b : Fin 32) (f : Fmt) (s : State) : Result :=
  fpWrite d (isWide f) ((fmtOf f).sign g (s.gval a).toNat (s.gval b).toNat, Flags.none) s

/-- A compare (R86). -/
def fpCompare (op : FpCmp) (d a b : Fin 32) (f : Fmt) (s : State) : Result :=
  let (r, fl) := (fmtOf f).cmp op s.ftz (s.gval a).toNat (s.gval b).toNat
  fpWrite d (isWide f) (r.toNat, fl) s

/-- The rounding mode of a mode operand (R87). -/
def State.cvtMode (s : State) : CvtMode → RMode
  | .static m => m
  | .dyn => s.rm

/-- A conversion to an integer with bounds (R87). -/
def fpToG (lo hi : Int) (d a : Fin 32) (md : CvtMode) (f : Fmt) (s : State) : Result :=
  let (z, fl) := fpToInt (fmtOf f) (s.cvtMode md) s.ftz lo hi (s.gval a).toNat
  fpWrite d (isWide f) ((z % 2 ^ 64).toNat, fl) s

/-- A fused operation: signs of the product and of the addend (R88). -/
def fpFused (negProduct negAddend : Bool) (d a b c : Fin 32) (f : Fmt2) (s : State) : Result :=
  let x := s.fpVal (fmtOf2 f) a
  let z := s.fpVal (fmtOf2 f) c
  fpWrite d (isWide2 f)
    ((fmtOf2 f).fma s.rm s.ftz (if negProduct then x.negate else x) (s.fpVal (fmtOf2 f) b) (if negAddend then z.negate else z)) s

/-! ### Arithmetic (R84, R85) -/

/-- fadd (R84). -/
def execFadd (d a b : Fin 32) (f : Fmt) (s : State) : Result := fpArith FpFmt.addVal d a b f s
/-- fsub (R84). -/
def execFsub (d a b : Fin 32) (f : Fmt) (s : State) : Result := fpArith FpFmt.subVal d a b f s
/-- fmul (R84). -/
def execFmul (d a b : Fin 32) (f : Fmt) (s : State) : Result := fpArith FpFmt.mul d a b f s
/-- fdiv (R84). -/
def execFdiv (d a b : Fin 32) (f : Fmt) (s : State) : Result := fpArith FpFmt.div d a b f s
/-- fsqrt (R84). -/
def execFsqrt (d a : Fin 32) (f : Fmt) (s : State) : Result := 
  fpWrite d (isWide f) ((fmtOf f).sqrt s.rm s.ftz (s.fpVal (fmtOf f) a)) s
/-- fmin (R85). -/
def execFmin (d a b : Fin 32) (f : Fmt) (s : State) : Result := fpMinMax false d a b f s
/-- fmax (R85). -/
def execFmax (d a b : Fin 32) (f : Fmt) (s : State) : Result := fpMinMax true d a b f s
/-- fcsign (R85). -/
def execFcsign (d a b : Fin 32) (f : Fmt) (s : State) : Result := fpSign (fun _ y => y) d a b f s
/-- fnsign (R85). -/
def execFnsign (d a b : Fin 32) (f : Fmt) (s : State) : Result := fpSign (fun _ y => !y) d a b f s
/-- fxsign (R85). -/
def execFxsign (d a b : Fin 32) (f : Fmt) (s : State) : Result := fpSign (fun x y => x != y) d a b f s

/-! ### Compares, classes and conversions (R86, R87) -/

/-- feq (R86). -/
def execFeq (d a b : Fin 32) (f : Fmt) (s : State) : Result := fpCompare .eq d a b f s
/-- flt (R86). -/
def execFlt (d a b : Fin 32) (f : Fmt) (s : State) : Result := fpCompare .lt d a b f s
/-- fle (R86). -/
def execFle (d a b : Fin 32) (f : Fmt) (s : State) : Result := fpCompare .le d a b f s
/-- fkind (R86). -/
def execFkind (d a : Fin 32) (f : Fmt) (s : State) : Result := fpWrite d (isWide f) ((fmtOf f).kind (s.gval a).toNat, Flags.none) s
/-- fcvt: format fe to format f (R87). -/
def execFcvt (d a : Fin 32) (fe f : Fmt) (s : State) : Result := 
  fpWrite d (isWide f || isWide fe) (fpConvert (fmtOf fe) (fmtOf f) s.rm s.ftz (s.gval a).toNat) s
/-- fcvti (R87). -/
def execFcvti (d a : Fin 32) (md : CvtMode) (f : Fmt) (s : State) : Result := fpToG (-(2 ^ 63)) (2 ^ 63 - 1) d a md f s
/-- fcvtiu (R87). -/
def execFcvtiu (d a : Fin 32) (md : CvtMode) (f : Fmt) (s : State) : Result := fpToG 0 (2 ^ 64 - 1) d a md f s
/-- icvtf (R87). -/
def execIcvtf (d a : Fin 32) (f : Fmt) (s : State) : Result := fpWrite d (isWide f) (intToFp (fmtOf f) s.rm (s.gval a).toInt) s
/-- ucvtf (R87). -/
def execUcvtf (d a : Fin 32) (f : Fmt) (s : State) : Result := fpWrite d (isWide f) (intToFp (fmtOf f) s.rm (s.gval a).toNat) s

/-! ### Fused multiply-adds (R88) -/

/-- fmadd (R88). -/
def execFmadd (d a b c : Fin 32) (f : Fmt2) (s : State) : Result := fpFused false false d a b c f s
/-- fmsub (R88). -/
def execFmsub (d a b c : Fin 32) (f : Fmt2) (s : State) : Result := fpFused false true d a b c f s
/-- fnmadd (R88). -/
def execFnmadd (d a b c : Fin 32) (f : Fmt2) (s : State) : Result := fpFused true true d a b c f s
/-- fnmsub (R88). -/
def execFnmsub (d a b c : Fin 32) (f : Fmt2) (s : State) : Result := fpFused true false d a b c f s

end Sys2Proof.Machine
end

