-- ==== Sys2Proof/Machine/Vector.lean ====
section
/-! DEFINITION. Vector instructions on registers: A majors 0x0E and 0x20 to 0x27 (R157–R173). -/

namespace Sys2Proof.Machine

open Sys2Proof

/-! ### Lanes and masks (R157, R159) -/

/-- Lane i of a vector. -/
def lane (x : VWord) (i : Nat) : BitVec 32 := (x >>> (32 * i)).setWidth 32

/-- The vector with given lanes. -/
def ofLanes (f : Nat → BitVec 32) : VWord :=
  (List.range 16).foldl (fun a i => a ||| ((f i).setWidth 512 <<< (32 * i))) 0

/-- The flags of the enabled lanes, ORed once (R157). -/
def laneFlags (m : MWord) (f : Nat → Flags) : Flags :=
  (List.range 16).foldl (fun a i => if m.getLsbD i then a.or (f i) else a) Flags.none

/-- A lane-wise result with flags, under a mask (R14, R159). -/
def vecResult (d : Fin 16) (mk : Fin 8) (f : Nat → BitVec 32 × Flags) (s : State) : Result :=
  .next ((s.raiseFlags (laneFlags (s.mval mk) (fun i => (f i).2))).putVMasked d mk (ofLanes (fun i => (f i).1)))

/-- A lane-wise result without flags. -/
def vecPlain (d : Fin 16) (mk : Fin 8) (f : Nat → BitVec 32) (s : State) : Result :=
  .next (s.putVMasked d mk (ofLanes f))

/-- A lane of FP32 bits from a natural. -/
def lane32 (x : Nat × Flags) : BitVec 32 × Flags := (BitVec.ofNat 32 x.1, x.2)

/-- A lane-wise FP32 operation on exact values (R162). -/
def vecFp (g : FpFmt → RMode → Bool → FpVal → FpVal → Nat × Flags) (d a b : Fin 16) (mk : Fin 8) (s : State) : Result :=
  let x := s.vval a
  let y := s.vval b
  vecResult d mk (fun i => lane32 (g f32 s.rm s.ftz (f32.read s.ftz (lane x i).toNat) (f32.read s.ftz (lane y i).toNat))) s

/-- A lane-wise minimum or maximum (R85, R162). -/
def vecMinMax (max_ : Bool) (d a b : Fin 16) (mk : Fin 8) (s : State) : Result :=
  let x := s.vval a
  let y := s.vval b
  vecResult d mk (fun i => lane32 (f32.minmax max_ s.ftz (lane x i).toNat (lane y i).toNat)) s

/-- A lane-wise sign operation (R85, R162). -/
def vecSign (g : Bool → Bool → Bool) (d a b : Fin 16) (mk : Fin 8) (s : State) : Result :=
  let x := s.vval a
  let y := s.vval b
  vecPlain d mk (fun i => BitVec.ofNat 32 (f32.sign g (lane x i).toNat (lane y i).toNat)) s

/-- A lane-wise integer operation (R163). -/
def vecInt (g : BitVec 32 → BitVec 32 → BitVec 32) (d a b : Fin 16) (mk : Fin 8) (s : State) : Result :=
  let x := s.vval a
  let y := s.vval b
  vecPlain d mk (fun i => g (lane x i) (lane y i)) s

/-- A signed value saturated to 32 bits (R163). -/
def sat32 (x : Int) : BitVec 32 := if x < -(2 ^ 31) then BitVec.intMin 32 else if 2 ^ 31 - 1 < x then BitVec.intMax 32 else BitVec.ofInt 32 x

/-- A lane's shift count: bits 4:0 (R163). -/
def laneShift (x : BitVec 32) : Nat := (x.setWidth 5).toNat

/-- A lane-wise operation of one FP32 operand given as bits. -/
def vecUnary (g : Nat → Nat × Flags) (d a : Fin 16) (mk : Fin 8) (s : State) : Result :=
  let x := s.vval a
  vecResult d mk (fun i => lane32 (g (lane x i).toNat)) s

/-! ### Masks as results (R159) -/

/-- The mask whose bit i is f i. -/
def ofBits (f : Nat → Bool) : MWord := (List.range 16).foldl (fun a i => if f i then a ||| (1 <<< i) else a) 0

/-- A mask result, bit for bit under a mask; the other bits of a Void destination become 0 (R14, R159). -/
def mergeBits (old : Reg 16) (m x : MWord) : MWord := (x &&& m) ||| ((if old.tag = .void then 0 else old.val) &&& ~~~m)

/-- A lane-wise compare into a mask (R165). -/
def vecCompare (d : Fin 8) (a b : Fin 16) (mk : Fin 8) (g : BitVec 32 → BitVec 32 → Bool × Flags) (s : State) : Result :=
  let x := s.vval a
  let y := s.vval b
  let r (i : Nat) := g (lane x i) (lane y i)
  .next ((s.raiseFlags (laneFlags (s.mval mk) (fun i => (r i).2))).putM d
    (mergeBits (s.cur.regs.getM d) (s.mval mk) (ofBits (fun i => (r i).1))))

/-- An FP32 compare of lanes (R86). -/
def vecFpCompare (op : FpCmp) (d : Fin 8) (a b : Fin 16) (mk : Fin 8) (s : State) : Result :=
  vecCompare d a b mk (fun x y => f32.cmp op s.ftz x.toNat y.toNat) s

/-- An integer compare of lanes. -/
def vecIntCompare (g : BitVec 32 → BitVec 32 → Bool) (d : Fin 8) (a b : Fin 16) (mk : Fin 8) (s : State) : Result :=
  vecCompare d a b mk (fun x y => (g x y, Flags.none)) s

/-- Mask logic on all 16 bits (R166). -/
def maskLogic (g : MWord → MWord → MWord) (d a b : Fin 8) (s : State) : Result := .next (s.putM d (g (s.mval a) (s.mval b)))

/-! ### Packing and quantising (R167–R170) -/

/-- Element j of a packed 16-bit array. -/
def half (x : VWord) (j : Nat) : Nat := ((x >>> (16 * j)).setWidth 16).toNat

/-- 32 FP32 values of two registers packed into a 16-bit format (R167). -/
def pack16 (f : FpFmt) (d a b : Fin 16) (s : State) : Result :=
  let x := s.vval a
  let y := s.vval b
  let e (j : Nat) : Nat × Flags := fpConvert f32 f s.rm s.ftz (if j < 16 then lane x j else lane y (j - 16)).toNat
  let fl := (List.range 32).foldl (fun acc j => acc.or (e j).2) Flags.none
  .next ((s.raiseFlags fl).putV d ((List.range 32).foldl (fun acc j => acc ||| ((BitVec.ofNat 512 (e j).1) <<< (16 * j))) 0))

/-- 16-bit elements from lo upward converted to FP32 lanes (R167). -/
def unpack16 (f : FpFmt) (lo : Nat) (d a : Fin 16) (mk : Fin 8) (s : State) : Result :=
  let x := s.vval a
  vecResult d mk (fun i => lane32 (f32.roundVal s.rm false (f.read s.ftz (half x (i + lo))))) s

/-- vquant: 32 values of a and the register after it into codes of n + 1 bits at half p of d, and the scale byte into mask b (R168). -/
def quantise (n p : Nat) (d a : Fin 16) (b : Fin 8) (s : State) : Result :=
  let x := s.vval a
  let y := s.vval (nextV a)
  let vals := (List.range 32).map (fun j => f32.read false (if j < 16 then lane x j else lane y (j - 16)).toNat)
  let (codes, sb) := quantiseBlock vals n
  let w := n + 1
  let bits : VWord := (numbered codes).foldl (fun acc (j, c) => acc ||| ((BitVec.ofNat 512 c) <<< (32 * w * p + w * j))) 0
  let region : VWord := ((BitVec.allOnes 512) >>> (512 - 32 * w)) <<< (32 * w * p)
  let old := s.cur.regs.getV d
  let keep := (if old.tag = .void then 0 else old.val) &&& ~~~region
  .next (((s.raiseFlags (quantFlags vals codes sb n)).putV d (keep ||| bits)).putM b (sb.setWidth 16))

/-- vdeq: elements 16q … 16q + 15 of codes of n + 1 bits, under the scale byte in mask b (R169). -/
def dequantise (n q : Nat) (d a : Fin 16) (b mk : Fin 8) (s : State) : Result :=
  let x := s.vval a
  let sb : Byte := (s.mval b).setWidth 8
  vecResult d mk (fun i => lane32 (dequant s.rm ((x >>> ((n + 1) * (16 * q + i))).toNat % 2 ^ (n + 1)) n sb)) s

/-- vcnz: per lane, how many of the elements assigned to it are nonzero (R170). -/
def countNonzero (elems : Nat → List Nat) (isZero : Nat → Bool) (d a : Fin 16) (mk : Fin 8) (read : VWord → Nat → Nat) (s : State) : Result :=
  let x := s.vval a
  vecPlain d mk (fun i => BitVec.ofNat 32 ((elems i).countP (fun j => !isZero (read x j)))) s

/-! ### Reductions (R49, R171) -/

/-- One level of the pairwise tree. -/
def treeLevel {α : Type} (g : α → α → α) : List α → List α
  | x :: y :: r => g x y :: treeLevel g r
  | l => l

/-- The pairwise tree over 16 values. -/
def tree16 {α : Type} (g : α → α → α) (dflt : α) (l : List α) : α :=
  (treeLevel g (treeLevel g (treeLevel g (treeLevel g l)))).headD dflt

/-- A reduction over the enabled lanes, disabled ones entering as the identity (R171). -/
def vecReduce (ident : BitVec 32) (g : BitVec 32 → BitVec 32 → BitVec 32 × Flags) (signed : Bool) (d : Fin 32) (a : Fin 16) (mk : Fin 8) (s : State) : Result :=
  let x := s.vval a
  let leaves := (List.range 16).map (fun i => (if (s.mval mk).getLsbD i then lane x i else ident, Flags.none))
  let node (p q : BitVec 32 × Flags) : BitVec 32 × Flags :=
    let r := g p.1 q.1
    (r.1, (p.2.or q.2).or r.2)
  let (r, fl) := tree16 node (ident, Flags.none) leaves
  .next ((s.raiseFlags fl).putG d (if signed then sext r else zext r))

/-- An FP32 reduction. -/
def vecReduceFp (ident : BitVec 32) (g : Nat → Nat → Nat × Flags) (d : Fin 32) (a : Fin 16) (mk : Fin 8) (s : State) : Result :=
  vecReduce ident (fun x y => lane32 (g x.toNat y.toNat)) false d a mk s

/-- An integer reduction. -/
def vecReduceInt (ident : BitVec 32) (g : BitVec 32 → BitVec 32 → BitVec 32) (signed : Bool) (d : Fin 32) (a : Fin 16) (mk : Fin 8) (s : State) : Result :=
  vecReduce ident (fun x y => (g x y, Flags.none)) signed d a mk s

/-- An estimate: Pending for 16 cycles, disabled lanes as R14 gives (R160, R173). -/
def vecEstimate (g : Bool → Nat → Nat × Flags) (d a : Fin 16) (mk : Fin 8) (s : State) : Result :=
  let x := s.vval a
  let r (i : Nat) := g s.ftz (lane x i).toNat
  let fl := laneFlags (s.mval mk) (fun i => (r i).2)
  let v := mergeLanes (s.cur.regs.getV d) (s.mval mk) (ofLanes (fun i => BitVec.ofNat 32 (r i).1))
  .next ((s.raiseFlags fl).startLong 16 (.v d) v)

/-! ### Moves (R161) -/

/-- vbcst (R161). -/
def execVbcst (d : Fin 16) (a : Fin 32) (mk : Fin 8) (s : State) : Result := vecPlain d mk (fun _ => (s.gval a).setWidth 32) s
/-- vins: one lane; the others keep their values, or become 0 (R161). -/
def execVins (d : Fin 16) (a b : Fin 32) (s : State) : Result := 
  let old := s.cur.regs.getV d
  let k := ((s.gval b).setWidth 4).toNat
  .next (s.putV d (ofLanes (fun i => if i = k then (s.gval a).setWidth 32 else if old.tag = .void then 0 else lane old.val i)))
/-- vext (R161). -/
def execVext (d : Fin 32) (a : Fin 16) (b : Fin 32) (s : State) : Result := .next (s.putG d (zext (lane (s.vval a) ((s.gval b).setWidth 4).toNat)))
/-- vexts (R161). -/
def execVexts (d : Fin 32) (a : Fin 16) (b : Fin 32) (s : State) : Result := .next (s.putG d (sext (lane (s.vval a) ((s.gval b).setWidth 4).toNat)))
/-- mtm (R161). -/
def execMtm (d : Fin 8) (a : Fin 32) (s : State) : Result := .next (s.putM d ((s.gval a).setWidth 16))
/-- mfm (R161). -/
def execMfm (d : Fin 32) (a : Fin 8) (s : State) : Result := .next (s.putG d (zext (s.mval a)))
/-- mpopc (R161). -/
def execMpopc (d : Fin 32) (a : Fin 8) (s : State) : Result := .next (s.putG d (BitVec.ofNat 64 (popWord (zext (s.mval a)))))
/-- mffs: 16 if none (R161). -/
def execMffs (d : Fin 32) (a : Fin 8) (s : State) : Result := 
  .next (s.putG d (BitVec.ofNat 64 (((List.range 16).find? (fun i => (s.mval a).getLsbD i)).getD 16)))

/-! ### FP32 arithmetic (R162, R164) -/

/-- vfadd.s (R162). -/
def execVfaddS (d a b : Fin 16) (mk : Fin 8) (s : State) : Result := vecFp FpFmt.addVal d a b mk s
/-- vfsub.s (R162). -/
def execVfsubS (d a b : Fin 16) (mk : Fin 8) (s : State) : Result := vecFp FpFmt.subVal d a b mk s
/-- vfmul.s (R162). -/
def execVfmulS (d a b : Fin 16) (mk : Fin 8) (s : State) : Result := vecFp FpFmt.mul d a b mk s
/-- vfdiv.s (R162). -/
def execVfdivS (d a b : Fin 16) (mk : Fin 8) (s : State) : Result := vecFp FpFmt.div d a b mk s
/-- vfsqrt.s (R162). -/
def execVfsqrtS (d a : Fin 16) (mk : Fin 8) (s : State) : Result := vecUnary (fun x => f32.sqrt s.rm s.ftz (f32.read s.ftz x)) d a mk s
/-- vfmin.s (R162). -/
def execVfminS (d a b : Fin 16) (mk : Fin 8) (s : State) : Result := vecMinMax false d a b mk s
/-- vfmax.s (R162). -/
def execVfmaxS (d a b : Fin 16) (mk : Fin 8) (s : State) : Result := vecMinMax true d a b mk s
/-- vfcsign.s (R162). -/
def execVfcsignS (d a b : Fin 16) (mk : Fin 8) (s : State) : Result := vecSign (fun _ y => y) d a b mk s
/-- vfnsign.s (R162). -/
def execVfnsignS (d a b : Fin 16) (mk : Fin 8) (s : State) : Result := vecSign (fun _ y => !y) d a b mk s
/-- vfxsign.s (R162). -/
def execVfxsignS (d a b : Fin 16) (mk : Fin 8) (s : State) : Result := vecSign (fun x y => x != y) d a b mk s
/-- vfmadd.s (R164). -/
def execVfmaddS (d a b c : Fin 16) (mk : Fin 8) (s : State) : Result := 
  let x := s.vval a
  let y := s.vval b
  let z := s.vval c
  let rd (v : VWord) (i : Nat) : FpVal := f32.read s.ftz (lane v i).toNat
  vecResult d mk (fun i => lane32 (f32.fma s.rm s.ftz (rd x i) (rd y i) (rd z i))) s

/-! ### INT32 arithmetic (R163) -/

/-- vadd (R163). -/
def execVadd (d a b : Fin 16) (mk : Fin 8) (s : State) : Result := vecInt (fun x y => x + y) d a b mk s
/-- vsub (R163). -/
def execVsub (d a b : Fin 16) (mk : Fin 8) (s : State) : Result := vecInt (fun x y => x - y) d a b mk s
/-- vmul (R163). -/
def execVmul (d a b : Fin 16) (mk : Fin 8) (s : State) : Result := vecInt (fun x y => x * y) d a b mk s
/-- vand (R163). -/
def execVand (d a b : Fin 16) (mk : Fin 8) (s : State) : Result := vecInt (fun x y => x &&& y) d a b mk s
/-- vor (R163). -/
def execVor (d a b : Fin 16) (mk : Fin 8) (s : State) : Result := vecInt (fun x y => x ||| y) d a b mk s
/-- vxor (R163). -/
def execVxor (d a b : Fin 16) (mk : Fin 8) (s : State) : Result := vecInt (fun x y => x ^^^ y) d a b mk s
/-- vsll (R163). -/
def execVsll (d a b : Fin 16) (mk : Fin 8) (s : State) : Result := vecInt (fun x y => x <<< laneShift y) d a b mk s
/-- vsrl (R163). -/
def execVsrl (d a b : Fin 16) (mk : Fin 8) (s : State) : Result := vecInt (fun x y => x >>> laneShift y) d a b mk s
/-- vsra (R163). -/
def execVsra (d a b : Fin 16) (mk : Fin 8) (s : State) : Result := vecInt (fun x y => x.sshiftRight (laneShift y)) d a b mk s
/-- vmin (R163). -/
def execVmin (d a b : Fin 16) (mk : Fin 8) (s : State) : Result := vecInt (fun x y => if y.slt x then y else x) d a b mk s
/-- vmax (R163). -/
def execVmax (d a b : Fin 16) (mk : Fin 8) (s : State) : Result := vecInt (fun x y => if x.slt y then y else x) d a b mk s
/-- vminu (R163). -/
def execVminu (d a b : Fin 16) (mk : Fin 8) (s : State) : Result := vecInt (fun x y => if y.ult x then y else x) d a b mk s
/-- vmaxu (R163). -/
def execVmaxu (d a b : Fin 16) (mk : Fin 8) (s : State) : Result := vecInt (fun x y => if x.ult y then y else x) d a b mk s
/-- vadds (R163). -/
def execVadds (d a b : Fin 16) (mk : Fin 8) (s : State) : Result := vecInt (fun x y => sat32 (x.toInt + y.toInt)) d a b mk s
/-- vsubs (R163). -/
def execVsubs (d a b : Fin 16) (mk : Fin 8) (s : State) : Result := vecInt (fun x y => sat32 (x.toInt - y.toInt)) d a b mk s

/-! ### Compares and mask logic (R165, R166) -/

/-- vfeq.s (R165). -/
def execVfeqS (d : Fin 8) (a b : Fin 16) (mk : Fin 8) (s : State) : Result := vecFpCompare .eq d a b mk s
/-- vflt.s (R165). -/
def execVfltS (d : Fin 8) (a b : Fin 16) (mk : Fin 8) (s : State) : Result := vecFpCompare .lt d a b mk s
/-- vfle.s (R165). -/
def execVfleS (d : Fin 8) (a b : Fin 16) (mk : Fin 8) (s : State) : Result := vecFpCompare .le d a b mk s
/-- veq (R165). -/
def execVeq (d : Fin 8) (a b : Fin 16) (mk : Fin 8) (s : State) : Result := vecIntCompare (fun x y => x == y) d a b mk s
/-- vne (R165). -/
def execVne (d : Fin 8) (a b : Fin 16) (mk : Fin 8) (s : State) : Result := vecIntCompare (fun x y => x != y) d a b mk s
/-- vlt (R165). -/
def execVlt (d : Fin 8) (a b : Fin 16) (mk : Fin 8) (s : State) : Result := vecIntCompare (fun x y => x.slt y) d a b mk s
/-- vle (R165). -/
def execVle (d : Fin 8) (a b : Fin 16) (mk : Fin 8) (s : State) : Result := vecIntCompare (fun x y => x.sle y) d a b mk s
/-- vltu (R165). -/
def execVltu (d : Fin 8) (a b : Fin 16) (mk : Fin 8) (s : State) : Result := vecIntCompare (fun x y => x.ult y) d a b mk s
/-- vleu (R165). -/
def execVleu (d : Fin 8) (a b : Fin 16) (mk : Fin 8) (s : State) : Result := vecIntCompare (fun x y => x.ule y) d a b mk s
/-- mand (R166). -/
def execMand (d a b : Fin 8) (s : State) : Result := maskLogic (fun x y => x &&& y) d a b s
/-- mor (R166). -/
def execMor (d a b : Fin 8) (s : State) : Result := maskLogic (fun x y => x ||| y) d a b s
/-- mxor (R166). -/
def execMxor (d a b : Fin 8) (s : State) : Result := maskLogic (fun x y => x ^^^ y) d a b s
/-- mandn (R166). -/
def execMandn (d a b : Fin 8) (s : State) : Result := maskLogic (fun x y => x &&& ~~~y) d a b s
/-- mnot (R166). -/
def execMnot (d a : Fin 8) (s : State) : Result := maskLogic (fun x _ => ~~~x) d a a s

/-! ### Conversions (R167) -/

/-- FP32 to integer by RM (R167). -/
def execVcvtWS (d a : Fin 16) (mk : Fin 8) (s : State) : Result := 
  vecUnary (fun x => let (z, fl) := fpToInt f32 s.rm s.ftz (-(2 ^ 31)) (2 ^ 31 - 1) x; ((z % 2 ^ 32).toNat, fl)) d a mk s
/-- FP32 to integer by RM (R167). -/
def execVcvtWuS (d a : Fin 16) (mk : Fin 8) (s : State) : Result := 
  vecUnary (fun x => let (z, fl) := fpToInt f32 s.rm s.ftz (0) (2 ^ 32 - 1) x; ((z % 2 ^ 32).toNat, fl)) d a mk s
/-- INT32 to FP32 (R167). -/
def execVcvtSW (d a : Fin 16) (mk : Fin 8) (s : State) : Result := vecUnary (fun x => intToFp f32 s.rm (BitVec.ofNat 32 x).toInt) d a mk s
/-- unsigned 32-bit to FP32 (R167). -/
def execVcvtSWu (d a : Fin 16) (mk : Fin 8) (s : State) : Result := vecUnary (fun x => intToFp f32 s.rm x) d a mk s
/-- vcvt.h.s (R167). -/
def execVcvtHS (d a b : Fin 16) (s : State) : Result := pack16 f16 d a b s
/-- vcvt.bf.s (R167). -/
def execVcvtBfS (d a b : Fin 16) (s : State) : Result := pack16 bf16 d a b s
/-- 16-bit elements to FP32 (R167). -/
def execVcvtSHLo (d a : Fin 16) (mk : Fin 8) (s : State) : Result := unpack16 f16 0 d a mk s
/-- 16-bit elements to FP32 (R167). -/
def execVcvtSHHi (d a : Fin 16) (mk : Fin 8) (s : State) : Result := unpack16 f16 16 d a mk s
/-- 16-bit elements to FP32 (R167). -/
def execVcvtSBfLo (d a : Fin 16) (mk : Fin 8) (s : State) : Result := unpack16 bf16 0 d a mk s
/-- 16-bit elements to FP32 (R167). -/
def execVcvtSBfHi (d a : Fin 16) (mk : Fin 8) (s : State) : Result := unpack16 bf16 16 d a mk s

/-! ### Quantising (R168–R170) -/

/-- vquant (R168). -/
def execVquantTap8P0 (d a : Fin 16) (b : Fin 8) (s : State) : Result := quantise 7 0 d a b s
/-- vquant (R168). -/
def execVquantTap8P1 (d a : Fin 16) (b : Fin 8) (s : State) : Result := quantise 7 1 d a b s
/-- vquant (R168). -/
def execVquantTap6P0 (d a : Fin 16) (b : Fin 8) (s : State) : Result := quantise 5 0 d a b s
/-- vquant (R168). -/
def execVquantTap6P1 (d a : Fin 16) (b : Fin 8) (s : State) : Result := quantise 5 1 d a b s
/-- vdeq.tap8, quarter 0 (R169). -/
def execVdeqTap8Q0 (d a : Fin 16) (b mk : Fin 8) (s : State) : Result := dequantise 7 0 d a b mk s
/-- vdeq.tap8, quarter 1 (R169). -/
def execVdeqTap8Q1 (d a : Fin 16) (b mk : Fin 8) (s : State) : Result := dequantise 7 1 d a b mk s
/-- vdeq.tap8, quarter 2 (R169). -/
def execVdeqTap8Q2 (d a : Fin 16) (b mk : Fin 8) (s : State) : Result := dequantise 7 2 d a b mk s
/-- vdeq.tap8, quarter 3 (R169). -/
def execVdeqTap8Q3 (d a : Fin 16) (b mk : Fin 8) (s : State) : Result := dequantise 7 3 d a b mk s
/-- vdeq.tap6, quarter 0 (R169). -/
def execVdeqTap6Q0 (d a : Fin 16) (b mk : Fin 8) (s : State) : Result := dequantise 5 0 d a b mk s
/-- vdeq.tap6, quarter 1 (R169). -/
def execVdeqTap6Q1 (d a : Fin 16) (b mk : Fin 8) (s : State) : Result := dequantise 5 1 d a b mk s
/-- vdeq.tap6, quarter 2 (R169). -/
def execVdeqTap6Q2 (d a : Fin 16) (b mk : Fin 8) (s : State) : Result := dequantise 5 2 d a b mk s
/-- vdeq.tap6, quarter 3 (R169). -/
def execVdeqTap6Q3 (d a : Fin 16) (b mk : Fin 8) (s : State) : Result := dequantise 5 3 d a b mk s
/-- vdeq.tap6, quarter 4 (R169). -/
def execVdeqTap6Q4 (d a : Fin 16) (b mk : Fin 8) (s : State) : Result := dequantise 5 4 d a b mk s

/-- Field k of w bits. -/
def field (w : Nat) (x : VWord) (k : Nat) : Nat := (x >>> (w * k)).toNat % 2 ^ w

/-- vcnz.b (R170). -/
def execVcnzB (d a : Fin 16) (mk : Fin 8) (s : State) : Result := 
  countNonzero (fun i => [4 * i, 4 * i + 1, 4 * i + 2, 4 * i + 3]) (fun x => x == 0) d a mk (field 8) s
/-- vcnz.tap6 (R170). -/
def execVcnzTap6 (d a : Fin 16) (mk : Fin 8) (s : State) : Result := 
  countNonzero (fun i => (List.range 85).filter (fun j => 6 * j / 32 == i)) (fun x => x == 0) d a mk (field 6) s
/-- vcnz.h (R170). -/
def execVcnzH (d a : Fin 16) (mk : Fin 8) (s : State) : Result := 
  countNonzero (fun i => [2 * i, 2 * i + 1]) (fun x => x == 0 || x == 0x8000) d a mk (field 16) s
/-- vcnz.s (R170). -/
def execVcnzS (d a : Fin 16) (mk : Fin 8) (s : State) : Result := countNonzero (fun i => [i]) (fun x => x == 0 || x == 0x80000000) d a mk (field 32) s
/-- vcnz.w (R170). -/
def execVcnzW (d a : Fin 16) (mk : Fin 8) (s : State) : Result := countNonzero (fun i => [i]) (fun x => x == 0) d a mk (field 32) s

/-! ### Reductions and permutes (R171, R172) -/

/-- vred.fadd.s (R171). -/
def execVredFaddS (d : Fin 32) (a : Fin 16) (mk : Fin 8) (s : State) : Result := 
  vecReduceFp 0x80000000 (fun x y => f32.addVal s.rm s.ftz (f32.read s.ftz x) (f32.read s.ftz y)) d a mk s
/-- vred.fmin.s (R171). -/
def execVredFminS (d : Fin 32) (a : Fin 16) (mk : Fin 8) (s : State) : Result := vecReduceFp 0x7F800000 (f32.minmax false s.ftz) d a mk s
/-- vred.fmax.s (R171). -/
def execVredFmaxS (d : Fin 32) (a : Fin 16) (mk : Fin 8) (s : State) : Result := vecReduceFp 0xFF800000 (f32.minmax true s.ftz) d a mk s
/-- vred.add (R171). -/
def execVredAdd (d : Fin 32) (a : Fin 16) (mk : Fin 8) (s : State) : Result := vecReduceInt 0 (fun x y => x + y) true d a mk s
/-- vred.min (R171). -/
def execVredMin (d : Fin 32) (a : Fin 16) (mk : Fin 8) (s : State) : Result := vecReduceInt 0x7FFFFFFF (fun x y => if y.slt x then y else x) true d a mk s
/-- vred.max (R171). -/
def execVredMax (d : Fin 32) (a : Fin 16) (mk : Fin 8) (s : State) : Result := vecReduceInt 0x80000000 (fun x y => if x.slt y then y else x) true d a mk s
/-- vred.minu (R171). -/
def execVredMinu (d : Fin 32) (a : Fin 16) (mk : Fin 8) (s : State) : Result := vecReduceInt 0xFFFFFFFF (fun x y => if y.ult x then y else x) false d a mk s
/-- vred.maxu (R171). -/
def execVredMaxu (d : Fin 32) (a : Fin 16) (mk : Fin 8) (s : State) : Result := vecReduceInt 0 (fun x y => if x.ult y then y else x) false d a mk s
/-- vred.and (R171). -/
def execVredAnd (d : Fin 32) (a : Fin 16) (mk : Fin 8) (s : State) : Result := vecReduceInt 0xFFFFFFFF (fun x y => x &&& y) false d a mk s
/-- vred.or (R171). -/
def execVredOr (d : Fin 32) (a : Fin 16) (mk : Fin 8) (s : State) : Result := vecReduceInt 0 (fun x y => x ||| y) false d a mk s
/-- vred.xor (R171). -/
def execVredXor (d : Fin 32) (a : Fin 16) (mk : Fin 8) (s : State) : Result := vecReduceInt 0 (fun x y => x ^^^ y) false d a mk s
/-- vperm (R172). -/
def execVperm (d a b : Fin 16) (mk : Fin 8) (s : State) : Result := 
  let x := s.vval a
  let y := s.vval b
  vecPlain d mk (fun i => lane x ((lane y i).setWidth 4).toNat) s
/-- vrot (R172). -/
def execVrot (d a : Fin 16) (b : Fin 32) (mk : Fin 8) (s : State) : Result := 
  let x := s.vval a
  vecPlain d mk (fun i => lane x ((i + ((s.gval b).setWidth 4).toNat) % 16)) s
/-- vmerge: the mask selects, every lane is written (R172). -/
def execVmerge (d a b : Fin 16) (mk : Fin 8) (s : State) : Result := 
  let x := s.vval a
  let y := s.vval b
  .next (s.putV d (ofLanes (fun i => if (s.mval mk).getLsbD i then lane x i else lane y i)))

/-! ### Estimates (R173) -/

/-- vfrecip.s (R173). -/
def execVfrecipS (d a : Fin 16) (mk : Fin 8) (s : State) : Result := vecEstimate estRecip d a mk s
/-- vfrsqrt.s (R173). -/
def execVfrsqrtS (d a : Fin 16) (mk : Fin 8) (s : State) : Result := vecEstimate estRsqrt d a mk s
/-- vfexp2.s (R173). -/
def execVfexp2S (d a : Fin 16) (mk : Fin 8) (s : State) : Result := vecEstimate estExp2 d a mk s
/-- vflog2.s (R173). -/
def execVflog2S (d a : Fin 16) (mk : Fin 8) (s : State) : Result := vecEstimate estLog2 d a mk s

end Sys2Proof.Machine
end

