-- ==== Sys2Proof/Machine/Access.lean ====
section
/-! DEFINITION. Addresses and the checks at issue (R100–R102), translation (R342–R347), range locks (R194, R195), and the shared forms of loads and stores (R103–R115, R149, R151, R174–R176). -/

namespace Sys2Proof.Machine

open Sys2Proof

/-! ### Address classes (R100) -/

/-- Where an effective address leads, or the cause of its violation. -/
inductive Loc where
  | global
  | spad (core : CoreKey) (off : Nat)
  | bad (cause : Nat)
  deriving DecidableEq, Repr

/-- The class of an effective address of a thread on a core (R100, R377). -/
def State.classify (s : State) (c : CoreKey) (ea : Word) : Loc :=
  match wordBits ea 63 62 with
  | 0 => if wordBits ea 61 55 = 0 then .global else .bad 0x081
  | 1 => .bad 0x081
  | 3 => if wordBits ea 61 18 = 0 then .spad c (wordBits ea 17 0) else .bad 0x062
  | _ =>
    let p := wordBits ea 37 29
    if wordBits ea 61 38 = 0 ∧ wordBits ea 26 22 < 24 ∧ p ≤ (s.pkg (pkgOf c)).podN then
      .spad ((((s.pod0 (pkgOf c) + p) * 4 + wordBits ea 28 27) * 24 + wordBits ea 26 22) * 16 + wordBits ea 21 18) (wordBits ea 17 0)
    else .bad 0x062

/-! ### Page tables (R342–R344) -/

/-- The frame of n bytes at a package-local address lies in a range of R251. -/
def frameOk (pa n : Nat) : Bool :=
  if pa / 2 ^ 39 % 2 = 0 then pa / 2 ^ 37 % 4 = 0 && pa / 2 ^ 32 % 32 < 24 && pa % 2 ^ 32 + n ≤ 0xAA000000
  else pa % 2 ^ 39 + n ≤ 0x6000000000

/-- What one page-table entry says. -/
inductive PteVerdict where
  | table (pa : PhysAddr)
  | leaf (e : TlbEntry)
  | invalid
  | malformed
  deriving DecidableEq, Repr

/-- The verdict on an entry that a walk of package p reads at a level; the pod's package 0 and the last number of the pod bound HPKG (R343, R344). -/
def readPte (pod0 npkg p ctx va level : Nat) (x : Word) : PteVerdict :=
  let pa := wordBits x 41 16 * 65536
  if !x.getLsbD 0 then .invalid
  else if !x.getLsbD 7 then
    if level = 3 ∨ wordBits x 6 1 ≠ 0 ∨ wordBits x 15 8 ≠ 0 ∨ wordBits x 63 42 ≠ 0 ∨ !frameOk pa 65536 then .malformed
    else .table (p * 2 ^ 42 + pa)
  else
    let big : Bool := level = 2
    let hpkg := wordBits x 63 55
    let hdie := wordBits x 50 49
    let hclu := wordBits x 48 44
    let lp : Bool := pa / 2 ^ 39 % 2 = 1
    if level = 1 ∨ wordBits x 15 10 ≠ 0 ∨ wordBits x 43 42 ≠ 0 ∨ 1 < wordBits x 9 8 ∨ (x.getLsbD 2 ∧ x.getLsbD 3)
        ∨ (big ∧ pa % 2 ^ 29 ≠ 0) ∨ npkg < hpkg ∨ 23 < hclu ∨ !frameOk pa (if big then 2 ^ 29 else 65536)
        ∨ pa / 2 ^ 40 % 4 ≠ hdie ∨ (!lp ∧ pa / 2 ^ 32 % 32 ≠ hclu) then .malformed
    else
      let home := ((pod0 + hpkg) * 4 + hdie) * 24 + hclu
      .leaf { ctx := ctx, big := big, vpn := if big then va / 2 ^ 29 else va / 2 ^ 16, pa := (pod0 + hpkg) * 2 ^ 42 + pa
              r := x.getLsbD 1, w := x.getLsbD 2, x := x.getLsbD 3, u := x.getLsbD 4, v := x.getLsbD 5, code := x.getLsbD 6
              uncached := wordBits x 9 8 = 1, home := home, hcore := home * 16 + wordBits x 54 51, used := 0 }

/-- The address of the entry that a level of a walk reads (R342). -/
def pteAddr (table va level : Nat) : PhysAddr :=
  table + 8 * (if level = 1 then va / 2 ^ 42 % 8192 else if level = 2 then va / 2 ^ 29 % 8192 else va / 2 ^ 16 % 8192)

/-! ### TLBs (R346, R347) -/

/-- An entry maps a virtual address of a context. -/
def TlbEntry.maps (e : TlbEntry) (ctx va : Nat) : Bool := e.ctx == ctx && e.vpn == (if e.big then va / 2 ^ 29 else va / 2 ^ 16)

/-- The physical address of a virtual address that an entry maps. -/
def TlbEntry.phys (e : TlbEntry) (va : Nat) : PhysAddr := e.pa + (if e.big then va % 2 ^ 29 else va % 2 ^ 16)

/-- Remove the least recently used of a list that has reached its capacity. -/
def evictLru {α : Type} (used : α → Nat) (cap : Nat) (l : List α) : List α :=
  if l.length < cap then l
  else match minOf (l.map used) with
    | none => l
    | some m => l.eraseIdx (l.findIdx (fun e => used e == m))

/-- Install a translation in a core's TLB. -/
def Core.installTlb (k : Core) (e : TlbEntry) (now : Nat) : Core :=
  let l := k.tlb.filter (fun x => !(x.ctx == e.ctx && x.big == e.big && x.vpn == e.vpn))
  { k with tlb := { e with used := now } :: evictLru TlbEntry.used 64 l }

/-- The set of the cluster TLB that an entry falls in (R346). -/
def TlbEntry.set (e : TlbEntry) : Nat := e.vpn % 512

/-- Install a translation in the cluster TLB. -/
def Cluster.installTlb (k : Cluster) (e : TlbEntry) (now : Nat) : Cluster :=
  let l := k.tlb.filter (fun x => !(x.ctx == e.ctx && x.big == e.big && x.vpn == e.vpn))
  let same := l.filter (fun x => x.set == e.set)
  { k with tlb := { e with used := now } :: (l.filter (fun x => x.set != e.set) ++ evictLru TlbEntry.used 8 same) }

/-- The next cycle in which a walk of a cluster acts after a read of an entry at pa begins. -/
def State.walkRead (s : State) (clu : ClusterKey) (pa : PhysAddr) : Nat := s.homeLatency clu (physHome pa) / 2

/-- The cycles after an entry is read until its reply is back at the walker. -/
def State.walkReply (s : State) (clu : ClusterKey) (pa : PhysAddr) : Nat :=
  s.accessLatency clu (physHome pa) pa - s.homeLatency clu (physHome pa) / 2

/-- Begin to walk: the first read starts now or later (R347). -/
def State.launchWalk (s : State) (clu : ClusterKey) (w : Walk) (start : Nat) : State :=
  let s := s.modClu clu (fun k => { k with walks := k.walks ++ [w] })
  s.postAt (start + s.walkRead clu (pteAddr w.table w.va.toNat 1)) 0 (.pageWalkCompletion clu w.id)

/-- Walks of a page that a miss of it may join: those that read tables (R347). -/
def Walk.joins (w : Walk) (ctx va : Nat) : Bool := w.level != 0 && w.ctx == ctx && w.va.toNat / 2 ^ 16 == va / 2 ^ 16

/-- Add a waiter to a walk. -/
def Walk.join (w : Walk) (c : List (CoreKey × Nat)) (p : List Nat) : Walk :=
  { w with waits := w.waits ++ c.filter (fun x => !w.waits.contains x), ports := w.ports ++ p.filter (fun x => !w.ports.contains x) }

/-- Walks other than those that only bring a cluster-TLB hit to a core: the walker runs 16 (R347). -/
def Cluster.busyWalks (k : Cluster) : Nat := (k.walks.filter (fun w => w.level != 0)).length

/-- Ask for a translation: a waiter joins a walk of the page, or takes a cluster-TLB hit 12 cycles from now, or starts or queues a walk (R347). -/
def State.requestWalk (s : State) (clu : ClusterKey) (ctx : Nat) (va : Word) (c : List (CoreKey × Nat)) (p : List Nat) : State :=
  let k := s.clu clu
  let same (w : Walk) : Bool := w.joins ctx va.toNat
  if k.walks.any same then s.modClu clu (fun k => { k with walks := k.walks.map (fun w => if same w then w.join c p else w) })
  else if k.walkWait.any same then s.modClu clu (fun k => { k with walkWait := k.walkWait.map (fun w => if same w then w.join c p else w) })
  else
    let (id, s) := s.takeFresh
    let root := ((getKey (s.pkg (pkgOfClu clu)).ctxs ctx).map CtxDesc.root).getD 0
    let w : Walk := { id := id, ctx := ctx, va := va, level := 1, table := root, waits := c, ports := p, since := s.cycle, turn := false, stale := false, result := none }
    match k.tlb.find? (fun e => e.maps ctx va.toNat) with
    | some e =>
      let s := s.modClu clu (fun k => { k with
        walks := k.walks ++ [{ w with level := 0, result := some (some e) }]
        tlb := k.tlb.map (fun x => if x = e then { x with used := s.cycle } else x) })
      s.postAt (s.cycle + 12) 0 (.pageWalkCompletion clu id)
    | none =>
      match getKey (s.pkg (pkgOfClu clu)).ctxs ctx with
      | none =>
        let s := s.modClu clu (fun k => { k with walks := k.walks ++ [{ w with level := 0, result := some none }] })
        s.postAt (s.cycle + 12) 0 (.pageWalkCompletion clu id)
      | some _ =>
        if k.busyWalks < 16 then s.launchWalk clu w (w.since + 12)
        else s.modClu clu (fun k => { k with walkWait := k.walkWait ++ [w] })

/-- What a core's TLB answers for a slot (16 names the copy engine). -/
inductive Xlat where
  | hit (e : TlbEntry)
  | fault
  | miss
  deriving DecidableEq, Repr

/-- Translate for a slot: a hit, the fault of a walk that has failed for it, or a miss that a walk now serves (R13, R346). -/
def State.translate (s : State) (c : CoreKey) (slot ctx : Nat) (va : Word) : Xlat × State :=
  let k := s.core c
  match k.tlb.find? (fun e => e.maps ctx va.toNat) with
  | some e => (.hit e, s.modCore c (fun k => { k with tlb := k.tlb.map (fun x => if x = e then { x with used := s.cycle } else x) }))
  | none =>
    let bad : WalkFault := { slot := slot, ctx := ctx, vpn := va.toNat / 2 ^ 16 }
    if k.walkFaults.contains bad then (.fault, s.modCore c (fun k => { k with walkFaults := k.walkFaults.filter (· != bad) }))
    else (.miss, s.requestWalk (cluOf c) ctx va [(c, slot)] [])

/-! ### Range locks (R194, R195) -/

/-- A sparse record that has yet to be read whole and checked: nothing of it has been written (R199). -/
def CopyCmd.unchecked (c : CopyCmd) : Bool := c.kind = .wsld && wordBits c.gc 55 53 = 1 && c.dst2 = 0

/-- A command has stopped: it has met its fault, and every element before it is written and final (R203, log 87). -/
def CopyCmd.hasStopped (c : CopyCmd) : Bool := c.stopped.isSome && (c.blocks.isEmpty || (c.unchecked && c.blocks.all CopyBlock.read))

/-- A command of a core that has stopped, with its fault, by the owner of a lock (R203). -/
def Core.stoppedOwner (k : Core) (owner : Nat) : Option CopyCmd := k.copy.cmds.find? (fun c => c.id = owner && c.hasStopped)

/-- The lock entries of a core that bytes lo … hi − 1 of a space meet. -/
def Core.locksMet (k : Core) (space : LockSpace) (lo hi : Nat) : List RangeLock :=
  k.locks.filter (fun l => l.space = space && l.lo < hi && lo < l.hi)

/-- The trap of a thread's access that meets locks: a stopped command of its own decides, otherwise 0x0A1 where R195 says so. -/
def State.lockTrap (s : State) (t : ThreadRef) (space : LockSpace) (lo n : Nat) (store : Bool) (ea : Word) : Option TrapVal :=
  let k := s.core t.core
  let met := k.locksMet space lo (lo + n)
  match met.findSome? (fun l => (k.stoppedOwner l.owner).bind (fun c => if c.thread = t then c.stopped else none)) with
  | some v => some v
  | none =>
    if met.any (fun l => store || l.write || (k.stoppedOwner l.owner).isSome) then some { cause := 0x0A1, tval := ea, tinf := 0 } else none

/-! ### The checks of an access (R101, R102, R152) -/

/-- What an access asks of a page (R102). -/
inductive AccKind where
  | load | store | atomic
  deriving DecidableEq, Repr

/-- Which spaces an instruction allows (R101). -/
inductive Spaces where
  | both | globalOnly | spadOnly
  deriving DecidableEq, Repr

/-- What a transaction does to an access (R152). -/
inductive TxRule where
  /-- a plain access -/
  | plain
  /-- misuse in either space -/
  | forbidden
  /-- misuse on global memory -/
  | globalForbidden
  | exempt
  deriving DecidableEq, Repr

/-- The outcome of the checks of an access. -/
inductive Checked where
  | trap (v : TrapVal)
  /-- a TLB miss: the walk is under way -/
  | park (s : State)
  | spad (core : CoreKey) (off : Nat)
  /-- with the state after the TLB's use -/
  | global (e : TlbEntry) (pa : PhysAddr) (s : State)

/-- Values of a trap at an address. -/
def trapAt (cause : Nat) (ea : Word) : TrapVal := { cause := cause, tval := ea, tinf := 0 }

/-- cr.tinf of transaction misuse: OP, and the func field of a CR word, or of a CM word (R156). -/
def txInfo (w : BitVec 32) : Word :=
  let op := (w >>> 23).toNat % 64
  let cr : Bool := op = 0x27 || op = 0x28 || op = 0x2F
  BitVec.ofNat 64 (op + (if cr then w.toNat % 256 else w.toNat % 8) * 256)

/-- Transaction misuse (R152, R156). -/
def State.txMisuse (s : State) : TrapVal := { cause := 0x143, tval := 0, tinf := txInfo s.cur.curWord }

/-- The page lets the access through (R102). -/
def permitted (e : TlbEntry) (kind : AccKind) (sup : Bool) : Bool :=
  (match kind with
    | .load => e.r
    | .store => e.w
    | .atomic => e.r && e.w) && (sup || e.u)

/-- The checks of R101 on n bytes at an effective address, in order. -/
def State.checkAccess (s : State) (ea : Word) (n : Nat) (kind : AccKind) (sp : Spaces) (tx : TxRule) : Checked :=
  let c := s.cur.core
  let sl := s.me
  let store : Bool := kind != .load
  match s.classify c ea with
  | .bad cause => .trap (trapAt cause ea)
  | .spad t off =>
    if sp = .globalOnly then .trap (trapAt 0x063 ea)
    else if ea.toNat % n ≠ 0 then .trap (trapAt 0x061 ea)
    else match s.lockTrap s.meRef (.spad t) off n store ea with
      | some v => .trap v
      | none => if sl.st.tx && tx = .forbidden then .trap s.txMisuse else .spad t off
  | .global =>
    if sp = .spadOnly then .trap (trapAt 0x063 ea)
    else if ea.toNat % n ≠ 0 then .trap (trapAt 0x061 ea)
    else match s.translate c s.cur.slot sl.ctx ea with
      | (.fault, _) => .trap (trapAt 0x081 ea)
      | (.miss, s) => .park s
      | (.hit e, s) =>
        if !permitted e kind sl.st.sup then .trap (trapAt 0x082 ea)
        else match s.lockTrap s.meRef .global ea.toNat n store ea with
          | some v => .trap v
          | none =>
            if sl.st.tx && (tx = .forbidden || tx = .globalForbidden) then .trap s.txMisuse
            else if sl.st.tx && tx = .plain && (!e.v || pkgOfPA e.pa != pkgOf c) then .trap (trapAt 0x144 ea)
            else .global e (e.phys ea.toNat) s

/-- The bundle traps with given values; a failed walk that it consumed is forgotten with it. -/
def State.trapV (s : State) (v : TrapVal) : State :=
  let s := s.modMyCore (fun k => { k with walkFaults := k.walkFaults.filter (fun w => w.slot != s.cur.slot) })
  s.trap v.cause v.tval v.tinf

/-! ### Values in registers -/

/-- n loaded bytes extended for their register (R103, R104). -/
def extend (ext : Ext) (n : Nat) (x : VWord) : VWord :=
  match ext with
  | .vector => x
  | .zero => BitVec.ofNat 512 (x.toNat % 256 ^ n)
  | .sign => (BitVec.ofInt 64 (if x.toNat % 256 ^ n < 256 ^ n / 2 then (x.toNat % 256 ^ n : Int) else (x.toNat % 256 ^ n : Int) - 256 ^ n)).setWidth 512

/-- The mark of a poisoned load, with its source (R220). -/
def poisonMark (source : Nat) : Mark := { cause := 0x1A1, info := BitVec.ofNat 32 source }

/-- A register of the thread in the latch written Full, with a mark where one comes (R219). -/
def State.putReg (s : State) (d : RegName) (x : VWord) (m : Option Mark) : State :=
  s.modMe (fun sl => { sl with regs := sl.regs.put d x m })

/-- The value and mark of a load that a scratchpad serves; a poisoned word marks the register and leaves the address as its value (R219, R220). -/
def Core.loadSpad (k : Core) (off n : Nat) (ext : Ext) (ea : Word) : VWord × Option Mark :=
  match k.spadPoisonIn off n with
  | some src => (ea.setWidth 512, some (poisonMark src))
  | none => (extend ext n (k.spadVal off n), none)

/-! ### Accesses that leave the core -/

/-- The access that the thread in the latch makes at a home (R110, R149, R345). -/
def State.mkAccess (s : State) (op : GlobalOp) (e : TlbEntry) (ea : Word) (pa : PhysAddr) (n : Nat) (id : Nat) : Access :=
  { agent := .thread s.meRef, id := id, op := op, ctx := s.me.ctx, va := ea, pa := pa, home := e.home, src := s.myClu, size := n
    ts := (s.core s.cur.core).time, snap := 0, ordered := false, vbit := e.v, code := e.code, uncached := e.uncached
    data := 0, cmp := 0, dst := none, ext := .zero, word := s.cur.word, issue := s.cycle
    reply := s.accessLatency s.myClu e.home pa - s.homeLatency s.myClu e.home / 2, queued := false, bad := none }

/-- The cycle in which a home performs an access that issues now (R416). -/
def State.performAt (s : State) (a : Access) : Nat := s.cycle + s.homeLatency a.src a.home / 2

/-- Send an access to its home in the sender order of R15. -/
def State.sendHome (s : State) (a : Access) (ev : Access → Instr) : State :=
  s.sendAt 3 a.src a.home (s.performAt a) (senderRank s.cur.core s.cur.slot) (ev a)

/-- A request to another core's scratchpad leaves the thread in the latch (R105, R254). -/
def State.sendRemote (s : State) (id : Nat) (t : CoreKey) (off : Nat) (ea : Word) (op : RemoteOp) (data : VWord) (dst : Option RegName) (budget : Nat) : State :=
  s.sendAt 3 s.myClu (cluOf t) (s.cycle + s.oneWay s.cur.core t) (senderRank s.cur.core s.cur.slot)
    (.remoteRequestArrival { thread := s.meRef, id := id, target := t, off := off, va := ea, op := op, data := data, dst := dst
                             time := (s.core s.cur.core).time, ctx := s.me.ctx, budget := budget, issue := s.cycle, word := s.cur.word, bad := none })

/-- Two byte ranges meet. -/
def overlap (a n b m : Nat) : Bool := a < b + m && b < a + n

/-- Where a byte of another core's scratchpad stands among the places of outstanding accesses: above every physical address. -/
def spadPlace (c : CoreKey) (off : Nat) : Nat := 2 ^ 60 + c * 262144 + off

/-- An outstanding access of the thread overlaps n bytes: an access to them issues once it has completed (R106, R270; log 77). -/
def Slot.meets (sl : Slot) (pa n : Nat) : Bool := sl.out.any (fun o => o.size != 0 && overlap pa n o.pa o.size)

/-- Bytes overlap an unacknowledged global store, atomic or reduction of the thread: its copy engine neither reads nor writes them (R273). -/
def Slot.holdsLoad (sl : Slot) (pa n : Nat) : Bool :=
  sl.out.any (fun o => (o.kind = .globalStore || o.kind = .atomic || o.kind = .reduction) && overlap pa n o.pa o.size)

/-- A held store of a mirrored pair overlaps the load: the pair must take a checkpoint (R397). -/
def State.wantCheckpoint (s : State) (c : CoreKey) : State :=
  match s.primaryOf c with
  | some p => if s.agenda.any (fun e => e.ev = .checkpoint p) then s else s.post (4 * s.cycle + 3) 0 (.checkpoint p)
  | none => s

/-- The access is held before issue (R106); a pair whose held store it meets takes a checkpoint (R397). -/
def State.held (s : State) : State := (s.wantCheckpoint s.cur.core).park

/-- The bytes that a transaction has buffered for a range, and a mask of them (R151). -/
def Tx.overlay (tx : Tx) (pa n : Nat) : VWord × Word :=
  match tx.sectors.find? (fun x => x.sector = sectorOf pa) with
  | none => (0, 0)
  | some x => (x.data >>> (8 * (pa % 64)), (x.mask >>> (pa % 64)) &&& BitVec.ofNat 64 (2 ^ n - 1))

/-- Bytes of new where the byte mask is 1, of old elsewhere. -/
def overlayBytes (old new : VWord) (mask : Word) : VWord :=
  (List.range 64).foldl (fun a i => if mask.getLsbD i then a ||| (((new >>> (8 * i)).setWidth 8).setWidth 512 <<< (8 * i))
    else a ||| (((old >>> (8 * i)).setWidth 8).setWidth 512 <<< (8 * i))) 0

/-- A global load: long, served by the cluster cache or the home (R105, R109, R114, R149, R151). -/
def State.globalLoad (s : State) (d : RegName) (e : TlbEntry) (ea : Word) (pa n : Nat) (ext : Ext) (ordered : Bool) : State :=
  let (id, s) := s.begin_ .long pa n
  let s := s.modMe (fun sl => { sl with regs := sl.regs.retag .pending d })
  let (data, mask) := if ordered then (0, 0) else match s.me.tx with
    | some tx => tx.overlay pa n
    | none => (0, 0)
  let a := { s.mkAccess .load e ea pa n id with
    dst := some d, ext := ext, ordered := ordered, snap := if ordered || !e.v then 0 else s.me.snap, data := data, cmp := mask }
  if ordered || e.uncached then s.sendHome a .homeLoad
  else s.postAt (s.cycle + 18) (senderRank s.cur.core s.cur.slot) (.clusterCacheAccess a)

/-- A load of n bytes in either space (R105). -/
def memLoad (d : RegName) (ea : Word) (n : Nat) (ext : Ext) (ordered : Bool) (s : State) : State :=
  match s.checkAccess ea n .load .both (if ordered then .globalForbidden else .plain) with
  | .trap v => s.trapV v
  | .park s => s.park
  | .spad t off =>
    if t = s.cur.core then
      let (x, m) := s.myCore.loadSpad off n ext ea
      s.putReg d x m
    else if s.me.meets (spadPlace t off) n then s.held
    else
      let (id, s) := s.begin_ .long (spadPlace t off) n
      let s := s.modMe (fun sl => { sl with regs := sl.regs.retag .pending d })
      s.sendRemote id t off ea (.load n ext) 0 (some d) 0
  | .global e pa s => if s.me.meets pa n then s.held else s.globalLoad d e ea pa n ext ordered

/-- A sector image with bytes merged in (R151). -/
def TxSector.merge (x : TxSector) (pa n : Nat) (data : VWord) : TxSector :=
  let m : Word := BitVec.ofNat 64 ((2 ^ n - 1) * 2 ^ (pa % 64))
  { x with data := overlayBytes x.data (data <<< (8 * (pa % 64))) m, mask := x.mask ||| m }

/-- The 64 KiB page of an address. -/
def pageOf (ea : Word) : Word := ea &&& ~~~0xFFFF#64

/-- A sector image keeps the page and CODE of one more store (R368). -/
def TxSector.through (x : TxSector) (e : TlbEntry) (ea : Word) : TxSector :=
  { x with code := x.code || e.code, vas := if x.vas.contains (pageOf ea) then x.vas else pageOf ea :: x.vas }

/-- A transactional store: merged into its sector image, or discarded when a 33rd sector would be needed or the transaction has been restored as failed (R151, R352, R368). -/
def Tx.store (tx : Tx) (e : TlbEntry) (ea : Word) (pa n : Nat) (data : VWord) : Tx :=
  if tx.discards then tx
  else if tx.sectors.any (fun x => x.sector = sectorOf pa) then
    { tx with sectors := tx.sectors.map (fun x => if x.sector = sectorOf pa then (x.merge pa n data).through e ea else x) }
  else if 32 ≤ tx.sectors.length then { tx with failed := true }
  else
    let x : TxSector := { sector := sectorOf pa, home := e.home, code := e.code, vas := [pageOf ea], data := 0, mask := 0 }
    { tx with sectors := tx.sectors ++ [x.merge pa n data] }

/-- A global store: sent to its home, buffered in a transaction, or held in the buffer of a mirrored pair (R105, R110, R151, R395). -/
def State.globalStore (s : State) (e : TlbEntry) (ea : Word) (pa n : Nat) (data : VWord) (plain : Bool) : State :=
  match plain, s.me.tx with
  | true, some tx => s.modMe (fun sl => { sl with tx := some (tx.store e ea pa n data) })
  | _, _ =>
    let (id, s) := s.begin_ .globalStore pa n
    let a := { s.mkAccess .store e ea pa n id with data := data }
    match (s.core s.cur.core).mirror with
    | some m => s.modMyCore (fun k => { k with mirror := some { m with store := m.store ++ [{ access := a, at_ := s.cycle }] } })
    | none => s.sendHome a .homeStore

/-- A store of n bytes in either space (R105). -/
def memStore (ea : Word) (n : Nat) (data : VWord) (plain : Bool) (s : State) : State :=
  match s.checkAccess ea n .store .both (if plain then .plain else .globalForbidden) with
  | .trap v => s.trapV v
  | .park s => s.park
  | .spad t off =>
    if t = s.cur.core then s.spadWrite t off (vBytes n data)
    else if s.me.meets (spadPlace t off) n then s.held
    else
      let (id, s) := s.begin_ .remoteStore (spadPlace t off) n
      s.sendRemote id t off ea (.store n) data none 0
  | .global e pa s => if s.me.meets pa n then s.held else s.globalStore e ea pa n data plain

/-! ### Ordering waits (R113) -/

/-- The kind waits before it is performed, at a scope other than .th. -/
def ordReleases (o : OrdKind) (sc : Scope) : Bool := sc != .th && (o = .rel || o = .full)
/-- The kind waits after it, at a scope other than .th. -/
def ordAcquires (o : OrdKind) (sc : Scope) : Bool := sc != .th && (o = .acq || o = .full)

/-- The thread issues nothing until its outstanding operations complete, as if H were set (R113). -/
def State.acquire (s : State) (o : OrdKind) (sc : Scope) : State :=
  if ordAcquires o sc && s.cur.status = .run then s.modMe (fun sl => { sl with hold := true }) else s

/-- Whether an access passes its checks now, so that its release wait may begin. -/
def Checked.passes : Checked → Bool
  | .trap _ => false
  | .park _ => false
  | _ => true

/-- An instruction with a release wait: its checks are made first, then the wait, then it is performed (R113). A held store of a mirrored pair asks for a checkpoint. -/
def withRelease (rel : Bool) (chk : Checked) (f : State → State) (s : State) : State :=
  if rel && s.mustRelease && chk.passes then (s.wantCheckpoint s.cur.core).wait .release else f s

end Sys2Proof.Machine
end

