-- ==== Sys2Proof/Machine/Issue.lean ====
section
/-! DEFINITION. The issue of bundles: fetch (R221, R259), the bundle checks (R55), tags (R10), interrupts at bundle boundaries (R228), the search of a core (R22, R23, R234–R239), bundles of followers and shadows (R236, R394), and words whose wait has ended. Each operation that executes words takes the meaning of instructions as an argument. -/

namespace Sys2Proof.Machine

open Sys2Proof

noncomputable section

/-! ### Interrupts at a bundle boundary -/

/-- The pending interrupt of lowest code (R228). -/
def lowestInt (l : List PendInt) : Option PendInt :=
  l.foldl (fun a x => match a with
    | none => some x
    | some y => if x.code < y.code then some x else some y) none

/-- Take the lowest pending interrupt of a slot if its mode lets one through, with a return address (R228). -/
def State.takeInterrupt (s : State) (c : CoreKey) (i : Nat) (ret : Word) : Option State :=
  let sl := s.slot c i
  if sl.occ = .thread ∧ !sl.st.sup ∧ sl.st.ie then
    (lowestInt sl.ints).map (fun x =>
      (s.modSlot c i (fun sl => { sl with ints := sl.ints.erase x })).deliver c i ret { cause := x.code, tval := 0, tinf := x.info })
  else none

/-- The followers of a leader that does not issue its bundle become ready in cycle c + k + 1 (R239). -/
def State.freeFollowers (s : State) (c : CoreKey) (i : Nat) : State :=
  let sl := s.slot c i
  if sl.st.role = .leader then
    (numbered sl.gang).foldl (fun s (k, m) => if s.matches_ m then s.modSlot m.core m.slot (fun f => { f with readyAt := max f.readyAt (s.cycle + k + 2), byBranch := sl.byBranch, pc := sl.pc }) else s) s
  else s

/-! ### Fetch (R221, R259) -/

/-- What fetching a doubleword answers. -/
inductive Fetched where
  | trap (v : TrapVal)
  | park (s : State)
  | word (d : BitVec 64) (s : State)

/-- The set of the instruction cache that a line falls in (R259). -/
def ILine.set (l : ILine) : Nat := l.line / 256 % 32

/-- Install a line in an instruction cache: 32 sets of 4, the least recently used replaced (R259). -/
def Core.installLine (k : Core) (l : ILine) : Core :=
  let rest := k.icache.filter (fun x => x.line != l.line)
  let same := rest.filter (fun x => x.set == l.set)
  { k with icache := l :: (rest.filter (fun x => x.set != l.set) ++ evictLru ILine.used 4 same) }

/-- Ask for a line that missed: join a fetch of it, or send one through the cluster cache (R259, R276). -/
def State.requestLine (s : State) (c : CoreKey) (i : Nat) (e : TlbEntry) (pc : Word) (line : PhysAddr) : State :=
  let k := s.core c
  if k.fills.any (fun f => f.line == line) then
    s.modCore c (fun k => { k with fills := k.fills.map (fun f => if f.line = line ∧ !f.slots.contains i then { f with slots := f.slots ++ [i] } else f) })
  else
    let (id, s) := s.takeFresh
    let s := s.modCore c (fun k => { k with fills := k.fills ++ [{ line := line, slots := [i], got := none, wts := 0, answer := none }] })
    let a : Access := { agent := .thread (s.refOf c i), id := id, op := .fetch, ctx := (s.slot c i).ctx, va := pc, pa := line, home := e.home
                        src := cluOf c, size := 256, ts := k.time, snap := 0, ordered := false, vbit := e.v, code := e.code, uncached := e.uncached
                        data := 0, cmp := 0, dst := none, ext := .zero, word := 0, issue := s.cycle
                        reply := s.accessLatency (cluOf c) e.home line - s.homeLatency (cluOf c) e.home / 2, queued := false, bad := none }
    s.postAt (s.cycle + 18) (senderRank c i) (.clusterCacheAccess a)

/-- The doubleword at the PC of a slot, with the checks of R221 in order. -/
def State.fetch (s : State) (c : CoreKey) (i : Nat) : Fetched :=
  let sl := s.slot c i
  let pc := sl.pc
  if wordBits pc 63 63 = 0 ∧ wordBits pc 62 55 ≠ 0 then .trap (trapAt 0x081 pc)
  else if wordBits pc 63 63 = 1 then .trap (trapAt 0x162 pc)
  else match s.translate c i sl.ctx pc with
    | (.fault, _) => .trap (trapAt 0x081 pc)
    | (.miss, s) => .park s
    | (.hit e, s) =>
      if !e.x then .trap (trapAt 0x162 pc)
      else if !sl.st.sup && !e.u then .trap (trapAt 0x082 pc)
      else
        let pa := e.phys pc.toNat
        let line := lineOf pa
        let k := s.core c
        match k.fetchFaults.find? (fun f => f.1 == i && f.2.1 == line) with
        | some (_, _, .poisoned src) => .trap { cause := 0x1A2, tval := pc &&& ~~~255#64, tinf := BitVec.ofNat 64 src }
        | some (_, _, .unpublished) => .trap (trapAt 0x161 (pc &&& ~~~255#64))
        | none =>
          match k.icache.find? (fun l => l.line == line && k.time ≤ l.rts) with
          | some l =>
            let off := pa % 256
            let d := ((l.data.getD (off / 64) 0) >>> (8 * (off % 64 / 8 * 8))).setWidth 64
            .word d (s.modCore c (fun k => { k with icache := k.icache.map (fun x => if x.line = line then { x with used := s.cycle } else x) }))
          | none => .park (s.requestLine c i e pc line)

/-- The answers of a slot's fetches and walks are forgotten once its bundle is decided. -/
def Core.forgetSlot (k : Core) (i : Nat) : Core :=
  { k with fetchFaults := k.fetchFaults.filter (fun f => f.1 != i), walkFaults := k.walkFaults.filter (fun w => w.slot != i) }

/-! ### The bundle checks (R55, R218) -/

/-- What R55 makes of a doubleword. -/
inductive Checks where
  | trap (v : TrapVal)
  | lone (i : Instr) (word : Nat)
  | pair (i0 i1 : Instr)

/-- A word that is legal in a mode (R55, R61). -/
def legalWord (sup : Bool) (w : BitVec 32) : Option Instr := (decodeInstr (w.toNat % 2 ^ 30)).filter (fun i => !modeIllegal sup i)

/-- The P bit of a word (R52). -/
def pBit (w : BitVec 32) : Bool := w.getLsbD 31
/-- The H bit of a word (R52). -/
def hBit (w : BitVec 32) : Bool := w.getLsbD 30
/-- The K bit of a word (R52). -/
def kBit (w : BitVec 32) : Bool := w.getLsbD 29
/-- Majors that stand alone (R63). -/
def loneOnly (w : BitVec 32) : Bool :=
  let op := w.toNat / 2 ^ 23 % 128
  op = 0x19 || op = 0x27 || op = 0x28

/-- check_bundle of R55, with the values of R233. -/
def checkBundle (pc : Word) (byBranch sup : Bool) (d : BitVec 64) : Checks :=
  let w0 : BitVec 32 := d.setWidth 32
  let w1 : BitVec 32 := (d >>> 32).setWidth 32
  let illegal (w : BitVec 32) (n : Nat) : Checks := .trap { cause := 0x001, tval := w.setWidth 64, tinf := BitVec.ofNat 64 n }
  let bad (n : Nat) : Checks := .trap { cause := 0x002, tval := d, tinf := BitVec.ofNat 64 n }
  if pc.getLsbD 2 then
    if byBranch && pBit w0 then .trap (trapAt 0x003 pc)
    else if pBit w1 then bad 1
    else match legalWord sup w1 with
      | none => illegal w1 1
      | some i => .lone i 1
  else if !pBit w0 then
    match legalWord sup w0 with
    | none => illegal w0 0
    | some i => .lone i 0
  else if kBit w0 || !kBit w1 || pBit w1 then bad 1
  else if loneOnly w0 then bad 2
  else match legalWord sup w0, legalWord sup w1 with
    | none, _ => illegal w0 0
    | _, none => illegal w1 1
    | some i0, some i1 => if sameDest i0 i1 then bad 3 else .pair i0 i1

/-! ### Engines with room (R22) -/

/-- Commands that enter the tile unit's queue (R177). -/
def tileQueued : Instr → Bool
  | .mma .. => true | .gmma .. => true | .mmas .. => true | .mzero .. => true
  | .mdrain .. => true | .mdrainZ .. => true | .mdrainRel .. => true | .mvaToAccumulator .. => true
  | _ => false

/-- Commands that enter the copy engine's queue (R196). -/
def copyQueued : Instr → Bool
  | .cpy .. => true | .cpy2 .. => true | .gath .. => true | .scat .. => true | .wsld .. => true
  | _ => false

/-- Commands in the copy engine's queue: those not yet started. -/
def CopyEngine.waiting (e : CopyEngine) : Nat := (e.cmds.filter (fun c => !c.started)).length

/-- Both queues of 2 entries have room for an instruction (R8, R22). -/
def Core.hasRoom (k : Core) (i : Instr) : Bool :=
  (!tileQueued i || k.tile.queue.length < 2) && (!copyQueued i || k.copy.waiting < 2)

/-- The same at the start of a cycle: commands that entered in it are not counted (R235). -/
def Core.hadRoom (k : Core) (cycle : Nat) (i : Instr) : Bool :=
  (!tileQueued i || k.tile.queue.countP (fun c => c.issue < cycle) < 2)
    && (!copyQueued i || k.copy.cmds.countP (fun c => !c.started && c.issue < cycle) < 2)

/-! ### Examining a slot (R10, R22, R235) -/

/-- The words of a latched bundle with their word numbers (R233). -/
def Cur.words (c : Cur) : List (Instr × Nat) :=
  (c.instr, if c.pair then 0 else if c.pc.getLsbD 2 then 1 else 0) :: (match c.aword with
    | none => []
    | some a => [(a, 1)])

/-- What the examination of a slot answers. -/
inductive Exam where
  /-- the fetch or a bundle check fails -/
  | fault (v : TrapVal)
  /-- a source is Void or marked; the bundle is latched -/
  | tags (v : TrapVal) (s : State)
  | parked (s : State)
  /-- the bundle is latched and may issue -/
  | ready (s : State)

/-- The latch for a bundle of a slot. -/
def State.latch (s : State) (c : CoreKey) (i : Nat) (pc : Word) (d : BitVec 64) (i0 : Instr) (a : Option Instr) : State :=
  let sl := s.slot c i
  let w0 : BitVec 32 := d.setWidth 32
  let w1 : BitVec 32 := (d >>> 32).setWidth 32
  { s with cur :=
    { core := c, slot := i, pc := pc, nextPc := if a.isSome then pc + 8 else pc + 4, pair := a.isSome
      hold := if a.isSome then hBit w0 else if pc.getLsbD 2 then hBit w1 else hBit w0
      word0 := w0, word1 := w1, word := 0, instr := i0, aword := a, regs := sl.regs, fcsr := sl.fcsr
      stage := 0, start := s.cycle, status := .run } }

/-- A wait on an Open source starts its limit (R10). -/
def State.parkOpen (s : State) (c : CoreKey) (i : Nat) (info : Word) : State :=
  let sl := s.slot c i
  match sl.openSince with
  | some (since, _) => s.modSlot c i (fun sl => { sl with openSince := some (since, info) })
  | none =>
    let s := s.modSlot c i (fun sl => { sl with openSince := some (s.cycle, info) })
    s.postAt (s.cycle + max 1 sl.wlim.toNat) (2 ^ 62) (.openWaitLimit (s.refOf c i))

/-- The limit of a wait on an Open source has passed in a member of a gang. -/
def Slot.openLimitPassed (sl : Slot) (now : Nat) : Bool :=
  match sl.openSince with
  | some (since, _) => since + max 1 sl.wlim.toNat ≤ now
  | none => false

/-- The verdict on the words of a bundle in a slot (R93, R218). -/
def State.judge (s : State) (c : CoreKey) (i : Nat) (words : List (Instr × Nat)) : TagVerdict :=
  let sl := s.slot c i
  judgeTags (sl.st.role = .follower) (s.damagedCR c i) sl.regs words

/-- Every follower lets the leader's bundle issue (R235): the state after the followers' waits are noted, and whether none waits. A Void source in a follower does not hold the leader back; an Open source whose limit has passed does so no longer, and the other conditions remain. -/
def State.followersReady (s : State) (gang : List ThreadRef) (words : List (Instr × Nat)) : Bool × State :=
  gang.foldl (fun (ok, s) m =>
    let k := s.core m.core
    let sl := k.slot m.slot
    let may : Bool := words.all (fun w => k.hadRoom s.cycle w.1) && !waitsPending true sl.regs words
    match openSource true sl.regs words with
    | some (r, w) => if sl.openLimitPassed s.cycle then (ok && may, s) else (false, s.parkOpen m.core m.slot (tagInfo r w))
    | none => (ok && may, s.modSlot m.core m.slot (fun sl => { sl with openSince := none }))) (true, s)

/-- Fetch, check and examine the bundle at the PC of a slot (R218 steps 1 to 3, R22's queue room). -/
def State.examine (s : State) (c : CoreKey) (i : Nat) : Exam :=
  let sl := s.slot c i
  match s.fetch c i with
  | .trap v => .fault v
  | .park s => .parked s
  | .word d s =>
    let go (s : State) : Exam :=
      let words := s.cur.words
      if words.any (fun w => !(s.core c).hasRoom w.1) then .parked s
      else match s.judge c i words with
        | .open_ r w => .parked (s.parkOpen c i (tagInfo r w))
        | .pending => .parked (s.modSlot c i (fun sl => { sl with openSince := none }))
        | verdict =>
          let s := s.modSlot c i (fun sl => { sl with openSince := none })
          let (ok, s) := if sl.st.role = .leader then s.followersReady sl.gang words else (true, s)
          if !ok then .parked s
          else match verdict with
            | .trap v => .tags v s
            | _ => .ready s
    match checkBundle sl.pc sl.byBranch sl.st.sup d with
    | .trap v => .fault v
    | .lone i0 _ => go (s.latch c i sl.pc d i0 none)
    | .pair i0 i1 => go (s.latch c i sl.pc d i0 (some i1))

/-! ### Executing the words of the latch (R25, R216) -/

/-- The thread of the latch moves to its next PC; its tempo and its hold begin (R22, R26, R53). -/
def Slot.begin_ (sl : Slot) (cur : Cur) (cycle : Nat) : Slot :=
  { sl with pc := cur.nextPc, byBranch := false, readyAt := max sl.readyAt (cycle + 8), hold := cur.hold }

/-- What the execution of a latched bundle answers. -/
inductive Ran where
  /-- it did not issue -/
  | parked (s : State)
  | done (s : State)
  | stop (r : Result)

/-- The A word of the latch executes on a state (R25). -/
def runA (ex : Instr → State → Result) (a : Instr) (s : State) : Result :=
  ex a { s with cur := { s.cur with instr := a, aword := none, word := 1, status := .run } }

/-- The latched bundle issues: the C word, then the A word, each reading the registers of the latch; a trap of either leaves no effect of the other (R25, R216). The A word of a C word that waits after issue takes effect at issue too; State.undoPair takes it back if the wait is given up (log 11). -/
def runLatch (ex : Instr → State → Result) (s : State) : Ran :=
  let pre := s.modMe (fun sl => sl.begin_ s.cur s.cycle)
  match ex s.cur.instr pre with
  | .next r =>
    match r.cur.status with
    | .parked => .parked (r.modMe (fun sl => { sl with pc := s.me.pc, byBranch := s.me.byBranch, readyAt := s.me.readyAt, hold := s.me.hold }))
    | .trapped => .done r
    | .run =>
      match s.cur.aword with
      | none => .done r
      | some a =>
        match runA ex a r with
        | .next q => if q.cur.status = .trapped then
            (match runA ex a pre with
              | .next q => .done q
              | o => .stop o)
          else .done q
        | o => .stop o
    | .blocked =>
      match s.cur.aword with
      | none => .done r
      | some a =>
        match runA ex a pre, runA ex a r with
        | .next q, .next q' => if q.cur.status = .trapped then .done q else .done (q'.setStatus .blocked)
        | .next _, o => .stop o
        | o, _ => .stop o
  | o => .stop o

/-- The waits before issue are over. -/
def State.clearWaits (s : State) (c : CoreKey) (i : Nat) : State :=
  (s.modSlot c i (fun sl => { sl with openSince := none, parkLimit := none })).modCore c (fun k => k.forgetSlot i)

/-! ### Mirrored pairs at issue (R394–R397) -/

/-- A write to the control register acts outside its core: a shootdown, a host call, a register of a cluster or a die; or moves the undo log (R395, R399; log 154). -/
def outwardCR (i : BitVec 12) : Bool := [0x120, 0x130, 0x140, 0x141, 0x160, 0x170, 0x171, 0x172].contains i.toNat

/-- Instructions with an irrevocable effect (R395; log 154). -/
def irrevocable : Instr → Bool
  | .amoAdd .. => true | .amoAnd .. => true | .amoOr .. => true | .amoXor .. => true | .amoMax .. => true | .amoMin .. => true
  | .amoSwap .. => true | .amoFadd .. => true | .amoMaxu .. => true | .amoMinu .. => true | .amoFmax .. => true | .amoFmin .. => true
  | .lres .. => true | .scnd .. => true | .cas .. => true | .red .. => true | .redo .. => true | .ordset .. => true
  | .fill .. => true | .msend .. => true | .spawn .. => true | .mig .. => true | .lnch .. => true | .serve .. => true | .servn .. => true
  | .mdrain .. => true | .mdrainZ .. => true | .mdrainRel .. => true
  | .cpy .. => true | .cpy2 .. => true | .gath .. => true | .scat .. => true | .wsld .. => true
  | .cpub .. => true | .snap .. => true | .txb .. => true | .txc .. => true | .barArr .. => true | .barWt .. => true | .bar .. => true
  | .snend => true | .txa => true | .gres => true | .gcan => true | .exit => true
  | .crw _ i => outwardCR i | .crs _ _ i => outwardCR i | .crc _ _ i => outwardCR i
  | _ => false

/-- Stores and tagged operations whose address decides whether they leave the core. -/
def addressed : Instr → Option (Fin 32 × Word × Bool)
  | .stB _ a i => some (a, sext i, false) | .stH _ a i => some (a, sext i, false) | .stW _ a i => some (a, sext i, false)
  | .stD _ a i => some (a, sext i, false) | .stV _ a i => some (a, sext i, false)
  | .ldfe _ n _ _ => some (n, 0, true) | .ldff _ n _ _ => some (n, 0, true) | .stfe _ n _ _ => some (n, 0, true)
  | .stf _ n _ _ => some (n, 0, true) | .ste _ n _ _ => some (n, 0, true)
  | .stBRel _ n _ _ => some (n, 0, false) | .stHRel _ n _ _ => some (n, 0, false) | .stWRel _ n _ _ => some (n, 0, false)
  | .stDRel _ n _ _ => some (n, 0, false)
  | _ => none

/-- The latched bundle has an effect outside its core that cannot be taken back: an irrevocable instruction, or a store, tagged operation or monitor of another core's scratchpad, or a monitor of global memory (R395; log 154). -/
def State.sendsOut (s : State) : Bool :=
  irrevocable s.cur.instr
  || (match addressed s.cur.instr with
      | some (a, o, _) => match s.classify s.cur.core (s.gval a + o) with
        | .spad t _ => t != s.cur.core
        | _ => false
      | none => false)
  || (match s.cur.instr with
      | .mon _ a => match s.classify s.cur.core (s.gval a) with
        | .spad t _ => t != s.cur.core
        | _ => true
      | _ => false)

/-- The latched bundle asks a mirrored pair for a checkpoint before it: it sends out, or is a full fence at a scope other than .th (R395, R397). -/
def State.needsCheckpoint (s : State) : Bool :=
  s.sendsOut || (match s.cur.instr with
    | .fence .full e => e != .th
    | _ => false)

/-- The pair's store buffer or an undo log is about to overflow (R397): a bundle writes at most 16 words; LCAP acts as at least 16 (R399, log 49). -/
def Mirror.almostFull (m : Mirror) (cap : Nat) : Bool :=
  64 ≤ m.store.length || max 16 cap < m.logCount + 16 || max 16 cap < m.logShadow + 16

/-- The gate of a mirrored pair: some state when the bundle must wait for a checkpoint. A bundle whose slot stands exactly at its last checkpoint has one before it. -/
def State.mirrorGate (s : State) : Option State :=
  let c := s.cur.core
  let k := s.core c
  match k.mirror with
  | none => none
  | some m =>
    let sl := s.me
    let ck := m.ckSlots.getD s.cur.slot Slot.init
    if m.busy.contains s.cur.slot then some s
    else if (s.needsCheckpoint && !(ck.pc == sl.pc && ck.regs == sl.regs)) || m.almostFull k.mirrLcap.toNat then some (s.wantCheckpoint c)
    else none

/-- An irrevocable operation of a mirrored pair: its thread parks until it completes (R395). -/
def State.mirrorBusy (s : State) : State :=
  match s.myCore.mirror with
  | some m => if s.sendsOut then
      (s.modMyCore (fun k => { k with mirror := some { m with busy := s.cur.slot :: m.busy } })).modMe (fun sl => { sl with hold := true })
    else s
  | none => s

/-! ### The bundles that follow (R213, R236, R394) -/

/-- The bundle of the latch for a follower or a shadow. -/
def Cur.follow (c : Cur) (t leader : ThreadRef) (k : Nat) (next : Word) (byBranch : Bool) : FollowMsg :=
  { thread := t, leader := leader, k := k, pc := c.pc, nextPc := c.nextPc, pair := c.pair, hold := c.hold
    word0 := c.word0, word1 := c.word1, leaderNext := next, leaderByBranch := byBranch, view := none, trapped := false }

/-- The value that the bundle of a primary read of a control register that is not the slot's own: its shadow reads the same (R394). -/
def State.crView (s : State) (cur : Cur) : Option Word :=
  match crTarget cur.instr with
  | some (d, i) => if (crUnit cur.core i.toNat).isSome then some ((s.slot cur.core cur.slot).regs.getG d).val else none
  | none => none

/-- The bundle of a primary for its shadow, one cycle later (R394): of a bundle whose C word waits the A word alone (k = 2), since the end of the wait acts on both cores (log 48). -/
def State.postShadow (s : State) (cur : Cur) (t : ThreadRef) (next : Word) (byBranch : Bool) : State :=
  match (s.core cur.core).mirror with
  | none => s
  | some m =>
    let f := { cur.follow (s.refOf m.shadow cur.slot) t 1 next byBranch with view := s.crView cur, trapped := s.cur.status == .trapped }
    if s.cur.status = .blocked then
      if cur.pair then s.postAt (s.cycle + 1) 0 (.shadowBundle { f with pc := cur.pc + 4, pair := false, k := 2 }) else s
    else s.postAt (s.cycle + 1) 0 (.shadowBundle f)

/-- A bundle whose traps depend on its registers alone: A words, branches, jumps, brk and scall. -/
def Cur.registersOnly (c : Cur) : Bool :=
  (readsLeader c.instr || kBit c.curWord || (match c.instr with
    | .jal .. => true | .brk => true | .scall _ => true
    | _ => false)) && c.word = 0

/-- The bundle that the slot of the latch has issued goes to its followers, with the translations by which they were judged (R235, log 32), and to its shadow; one that trapped only where registers alone decide that (log 48). -/
def State.postFollow (s : State) (cur : Cur) (t : ThreadRef) (gang : List ThreadRef) (next : Word) (byBranch shadow : Bool) : State :=
  let s := (numbered gang).foldl (fun s (k, m) =>
    let s := s.modSlot m.core m.slot (fun f => { f with readyAt := s.cycle + k + 2, judged := (s.core m.core).tlb })
    s.postAt (s.cycle + k + 1) 0 (.gangFollowerIssue (cur.follow m t (k + 1) next byBranch))) s
  if shadow then s.postShadow cur t next byBranch else s

/-- Where a bundle that trapped in its leader leads its followers: a branch or jump whose operands the leader holds goes its way, also when the other word of its pair trapped; a jalr to its target, aligned or not (R93, R214). -/
def leaderPath (ex : Instr → State → Result) (cur : Cur) (s : State) : Word × Bool :=
  let held (r : RegName) : Bool := cur.regs.tag r == .full && (cur.regs.mark r).isNone
  if !(sources cur.instr).all held then (cur.nextPc, false)
  else match cur.instr with
    | .jalr _ a i => ((cur.regs.getG a).val + sext i, true)
    | i =>
      match ex i ({ s with cur := cur }.modMe (fun sl => sl.begin_ cur s.cycle)) with
      | .next r => if r.cur.status = .run then (r.me.pc, r.me.byBranch) else (cur.nextPc, false)
      | _ => (cur.nextPc, false)

/-- Where a bundle goes next, for those that follow its thread: before and after it. -/
def nextOf (ex : Instr → State → Result) (cur : Cur) (pre s : State) : Word × Bool :=
  let sl := s.slot cur.core cur.slot
  if s.cur.status = .trapped then leaderPath ex cur pre else (sl.pc, sl.byBranch)

/-! ### One attempt of a slot -/

/-- What an attempt of a slot answers. -/
inductive Attempt where
  /-- the slot did not use the issue port -/
  | idle (s : State)
  /-- the slot issued -/
  | used (s : State)
  /-- a leader waits only for its gang cycle: the search ends (R237) -/
  | gangStop (s : State)
  | stop (r : Result)

/-- The members of a slot's gang after the leader; none for another slot. -/
def Slot.followers (sl : Slot) : List ThreadRef := if sl.st.role = .leader then sl.gang else []

/-- The bundle of the latch in another member of the gang. -/
def Cur.inMember (c : Cur) (s : State) (m : ThreadRef) : Cur :=
  let sl := s.slot m.core m.slot
  { c with core := m.core, slot := m.slot, regs := sl.regs, fcsr := sl.fcsr }

/-- A latched bundle would park before issue: the state with the walk that it asks for (R13, R106, R194). -/
def wouldPark (ex : Instr → State → Result) (cur : Cur) (s : State) : Option State :=
  match runLatch ex { s with cur := cur } with
  | .parked r => some { r with cur := s.cur }
  | _ => none

/-- A follower's access would park the gang (R229, R240): whether one does, and the state with the walks that they ask for. -/
def gangParks (ex : Instr → State → Result) (gang : List ThreadRef) (s : State) : Bool × State :=
  gang.foldl (fun (p, s) m =>
    match s.judge m.core m.slot s.cur.words with
    | .ready => (match wouldPark ex (s.cur.inMember s m) s with
      | some s => (true, s)
      | none => (p, s))
    | _ => (p, s)) (false, s)

/-- The slot is examined, and issues when the port is free; a slot whose bundle fails R55 or R10 traps in the cycle in which it would be ready (log 31). -/
def attempt (ex : Instr → State → Result) (portFree : Bool) (c : CoreKey) (i : Nat) (s : State) : Attempt :=
  let sl := s.slot c i
  let t := s.refOf c i
  let gangCycle : Bool := s.cyc (pkgOf c) % 4 = 0
  let waitsGang : Bool := sl.st.role = .leader && !gangCycle
  if sl.stopping then .idle (s.beginExit c i)
  else match (s.freeFollowers c i).takeInterrupt c i sl.pc with
  | some s' => .idle (s'.clearWaits c i)
  | none =>
    match s.examine c i with
    | .parked s' => .idle s'
    | .fault v =>
      if waitsGang then .gangStop s
      else .idle (((s.freeFollowers c i).deliver c i sl.pc v).clearWaits c i)
    | .tags v s' =>
      let (parks, s') := gangParks ex sl.followers s'
      if parks then .idle s'
      else if waitsGang then .gangStop s'
      else
        let (next, by_) := leaderPath ex s'.cur s'
        let s' := (s'.setStatus .trapped).postFollow s'.cur t sl.followers next by_ true
        .idle ((s'.deliver c i sl.pc v).clearWaits c i)
    | .ready s' =>
      let (parks, s') := gangParks ex sl.followers s'
      if parks then .idle s'
      else if waitsGang then
        (match wouldPark ex s'.cur s' with
          | some s' => .idle s'
          | none => if portFree then .gangStop s' else .idle s')
      else if !portFree then .idle s'
      else match s'.mirrorGate with
        | some s' => .idle s'
        | none =>
          match runLatch ex s' with
          | .stop r => .stop r
          | .parked s' => .idle s'
          | .done r =>
            let (next, by_) := nextOf ex s'.cur s' r
            let r := if r.cur.status = .trapped then r else { r with cur := { s'.cur with status := r.cur.status } }.mirrorBusy
            .used ((r.postFollow s'.cur t sl.followers next by_ (r.cur.status != .trapped || s'.cur.registersOnly)).clearWaits c i)

/-! ### The search of a core (R22, R23, R237) -/

/-- The slot is in the search: it holds a thread that is not parked after issue, is no follower, and its tempo and hold have ended; of a gang, no follower is parked either, and each will be ready in its own cycle (R22, R26, R235, R240). -/
def State.eligible (s : State) (c : CoreKey) (i : Nat) : Bool :=
  let sl := s.slot c i
  sl.occ == .thread && sl.block.isNone && sl.readyAt ≤ s.cycle && sl.st.role != .follower
    && (numbered sl.followers).all (fun (k, m) => (s.slot m.core m.slot).block.isNone && (s.slot m.core m.slot).readyAt ≤ s.cycle + k + 1)
    && (!sl.hold || ((t sl) :: sl.followers.map (fun m => t (s.slot m.core m.slot))).all id)
where
  /-- A thread has nothing outstanding, and its last operation ended in an earlier cycle (R26). -/
  t (sl : Slot) : Bool := sl.out.isEmpty && sl.lastEnd < s.cycle

/-- The next slot to examine on a core at or after an offset of the search: the offset and the slot. -/
def State.nextSlot (s : State) (c : CoreKey) (off : Nat) : Option (Nat × Nat) :=
  let last := (s.core c).last
  ((List.range 16).drop off).findSome? (fun j =>
    let i := (last + 1 + j) % 16
    if s.eligible c i then some (j, i) else none)

/-- The search of one core is over: its last slot is noted (R23, R237). -/
def State.endSearch (s : State) (c : CoreKey) : State :=
  let s := match s.scanIssued with
    | some i => if i < 16 then s.modCore c (fun k => { k with last := i }) else s
    | none => s
  { s with scanCore := c + 1, scanOff := 0, scanIssued := none }

/-- The first core with a thread to examine, from the scan's place on: it runs and is not stopped. -/
def State.nextCore (s : State) : Option (CoreKey × Nat × Nat) :=
  s.cores.findSome? (fun (c, k) =>
    if c < s.scanCore ∨ s.cycle < k.stopUntil ∨ k.shadowOf.isSome then none
    else (s.nextSlot c (if c = s.scanCore then s.scanOff else 0)).map (fun (j, i) => (c, j, i)))

/-- One step of the search: examine one slot; none when every core has been searched. -/
def scanStep (ex : Instr → State → Result) (s : State) : Option Result :=
  match s.nextCore with
  | none => none
  | some (c, j, i) =>
    let s := if c = s.scanCore then s else { s.endSearch s.scanCore with scanCore := c, scanOff := 0, scanIssued := none }
    let port : Bool := s.scanIssued.isNone && (s.core c).reservedCycle != some s.cycle
    some (match attempt ex port c i s with
      | .stop r => r
      | .gangStop s' => .next { s' with scanCore := c, scanOff := j + 1, scanIssued := if port then some 16 else s.scanIssued }
      | .idle s' => .next { s' with scanCore := c, scanOff := j + 1, scanIssued := s.scanIssued }
      | .used s' => .next { s' with scanCore := c, scanOff := j + 1, scanIssued := some i })

/-! ### Words whose wait has ended -/

/-- The shadow's core with its primary's translations and range locks, those of the primary's scratchpad standing for its own (R394, R395). -/
def State.lendView (s : State) (p c : CoreKey) : State :=
  let k := s.core p
  s.modCore c (fun x => { x with
    tlb := k.tlb, locks := k.locks.map (fun l => if l.space = .spad p then { l with space := .spad c } else l) })

/-- The state after a shadow's bundle: its own core's local effects, and the completions of its own long operations; everything else it would have sent is left out (R395). -/
def State.keepShadow (before after : State) (c : CoreKey) (i : Nat) : State :=
  let k := after.core c
  let own := after.agenda.filter (fun p => match p.ev with
    | .longOperationCompletion m => m.thread.core == c && !before.agenda.contains p
    | _ => false)
  let s := before.modCore c (fun old => { k with
    copy := old.copy, tlb := old.tlb, fills := old.fills, arrivals := old.arrivals, tile := old.tile, locks := old.locks
    walkFaults := old.walkFaults })
  let s := s.modSlot c i (fun sl => { sl with
    block := none, tx := (before.slot c i).tx, parkLimit := none, out := sl.out.filter (fun o => o.kind == .localLong) })
  { own.foldl (fun s p => { s with agenda := insertPending s.agenda p }) s with
    fresh := after.fresh, free := after.free }

/-- A word that a mirrored primary executes at the end of a wait is executed by its shadow in the same cycle, on the registers of the latch (R395, log 48). -/
def shadowRun (ex : Instr → State → Result) (cur : Cur) (i : Instr) (s : State) : State :=
  match (s.core cur.core).mirror with
  | none => s
  | some m =>
    match ex i { s.lendView cur.core m.shadow with cur := { cur with core := m.shadow, status := .run } } with
    | .next r => { s.keepShadow r m.shadow cur.slot with cur := s.cur }
    | _ => s


/-- Instructions whose thread is ready in the cycle in which their wait ends: servn has only waited to send, mrecv takes its message in the cycle after its acceptance (R240, R388, R415). -/
def readyAtOnce : Instr → Bool
  | .servn .. => true | .mrecv .. => true | .mpoll .. => true
  | _ => false

/-- Instructions at whose release wait's end a pending interrupt is taken (R229). -/
def interruptAfterRelease : Instr → Bool
  | .barArr .. => true | .bar .. => true | .mig .. => true | .lnch .. => true | .gang .. => true
  | _ => false

/-- The word of a resume executes again, unless its wait has been given up since; when it traps, the A word of its pair has no effect either (R25). -/
def runResume (ex : Instr → State → Result) (r : Resume) (s : State) : Result :=
  let t := r.thread
  if !s.matches_ t ∨ (s.slot t.core t.slot).occ ≠ .thread ∨ !(s.slot t.core t.slot).block.any (fun b => b.id = r.id) then .next s
  else
    let block := (s.slot t.core t.slot).block
    let s := { s with cur := { r.cur with status := .run } }
    match (if r.cur.stage ≠ 0 ∧ interruptAfterRelease r.cur.instr then s.takeInterrupt t.core t.slot r.cur.pc else none) with
    | some s => .next s
    | none =>
      let again (s : State) : Result := ex r.cur.instr (s.modMe (fun sl => { sl with block := none }))
      match again s with
      | .next q =>
        match q.cur.status with
        | .trapped => again (s.undoPair t.core t.slot)
        | .parked => .next { q.modMe (fun sl => { sl with block := block }) with resumes := q.resumes ++ [{ r with due := 4 * (s.cycle + 1) + 1 }] }
        | .run =>
          let q := q.modMe (fun sl => { sl with readyAt := max sl.readyAt (if readyAtOnce r.cur.instr then s.cycle else s.cycle + 1) })
          .next (shadowRun ex r.cur r.cur.instr q)
        | _ => .next q
      | o => o

/-! ### Bundles of followers and shadows (R213, R236, R394) -/

/-- The registers that a shadow's bundle wrote differ from its primary's (R396). -/
def State.shadowDiffers (s : State) (p c : CoreKey) (i : Nat) (words : List Instr) : Bool :=
  let a := (s.slot p i).regs
  let b := (s.slot c i).regs
  (words.flatMap dests).any (fun r => !fixedReg r && a.tag r == .full && b.tag r == .full
    && (match r with
      | .g n => a.getG n != b.getG n
      | .v n => a.getV n != b.getV n
      | .m n => a.getM n != b.getM n))

/-- The register that a shadow read a control register into holds what its primary read (R394). -/
def State.lendValue (s : State) (c : CoreKey) (i : Nat) (x : Instr) (v : Option Word) : State :=
  match crTarget x, v with
  | some (d, _), some w => s.modSlot c i (fun sl => { sl with regs := sl.regs.setG d (Reg.full w) })
  | _, _ => s

/-- A shadow executes its primary's bundle one cycle later; a write-back that differs, or a trap that only one of the two takes, is a mismatch when the later copy is written (R394, R396). -/
def runShadow (ex : Instr → State → Result) (f : FollowMsg) (p : CoreKey) (d : BitVec 64) (i0 : Instr) (a : Option Instr) (s : State) : Result :=
  let c := f.thread.core
  let i := f.thread.slot
  let moved (r : State) : State := r.modSlot c i (fun sl => { sl with pc := f.leaderNext, byBranch := f.leaderByBranch, openSince := none })
  let wrong (r : State) : State := r.postAt (s.cycle + 8) 0 (.mirroredRollback p i (if f.k = 2 then f.pc - 4 else f.pc))
  let lent := ((s.modSlot c i (fun sl => { sl with pc := f.pc })).lendView p c).latch c i f.pc d i0 a
  let traps : Bool := match lent.judge c i lent.cur.words, runLatch ex lent with
    | .trap _, _ => true
    | .open_ _ _, _ => true
    | _, .done r => r.cur.status == .trapped
    | _, _ => false
  if f.trapped then .next (if traps then s else wrong s)
  else if traps then .next (wrong (moved s))
  else match runLatch ex lent with
    | .stop r => r
    | .parked r => .next (moved (s.keepShadow r c i))
    | .done r =>
      let q := moved ((s.keepShadow r c i).lendValue c i i0 f.view)
      .next (if q.shadowDiffers p c i (lent.cur.words.map Prod.fst) then wrong q else q)

/-- The bundle of the latch executes in a follower; an access whose translation has left the TLB since the leader was judged uses the one by which it was judged (R235, R236, log 32). -/
def runMember (ex : Instr → State → Result) (s : State) : Ran :=
  match runLatch ex s with
  | .parked _ =>
    let c := s.cur.core
    let old := (s.core c).tlb
    let back (r : State) : State := r.modCore c (fun k => { k with tlb := old })
    (match runLatch ex (s.modCore c (fun k => { k with tlb := s.me.judged })) with
      | .done r => .done (back r)
      | .parked r => .parked (back r)
      | .stop r => .stop r)
  | r => r

/-- The target of a jalr that a gang's leader computed misaligned traps in every member (R91, R93). -/
def jalrTrap (i : Instr) (target : Word) : Option TrapVal :=
  match i with
  | .jalr _ _ _ => if target &&& 3 ≠ 0 then some { cause := 0x061, tval := target, tinf := 0 } else none
  | _ => none

/-- The bundle of a leader in its follower's reserved cycle: an interrupt in its place, else the checks of R218 on the follower's own state, else its words, along the leader's path (R93, R214, R236, R239). -/
def runFollower (ex : Instr → State → Result) (f : FollowMsg) (d : BitVec 64) (s : State) : Result :=
  let c := f.thread.core
  let i := f.thread.slot
  let go (s : State) : Result :=
    match s.judge c i s.cur.words with
    | .trap v => .next (s.deliver c i f.pc v)
    | .open_ r w => .next (s.deliver c i f.pc { cause := 0x022, tval := 0, tinf := tagInfo r w })
    | _ =>
      match jalrTrap s.cur.instr f.leaderNext with
      | some v => .next (s.deliver c i f.pc v)
      | none =>
        match runMember ex s with
        | .stop r => r
        | .parked r => .next r
        | .done r =>
          .next (if r.cur.status = .trapped ∨ (r.slot c i).occ ≠ .thread then r
            else r.modSlot c i (fun sl => { sl with pc := f.leaderNext, byBranch := f.leaderByBranch, openSince := none }))
  match s.takeInterrupt c i f.pc with
  | some s => .next s
  | none =>
    match checkBundle f.pc false (s.slot c i).st.sup d with
    | .trap v => .next (s.deliver c i f.pc v)
    | .lone i0 _ => go (s.latch c i f.pc d i0 none)
    | .pair i0 i1 => go (s.latch c i f.pc d i0 (some i1))

/-- A bundle that a follower or shadow executes in its reserved cycle. -/
def runForced (ex : Instr → State → Result) (f : FollowMsg) (s : State) : Result :=
  let t := f.thread
  let c := t.core
  let i := t.slot
  if !s.matches_ t ∨ (s.slot c i).occ ≠ .thread then .next s
  else
    let d : BitVec 64 := f.word0.setWidth 64 ||| (f.word1.setWidth 64 <<< 32)
    match (s.core c).shadowOf with
    | none => runFollower ex f d (s.modSlot c i (fun sl => { sl with pc := f.pc }))
    | some p =>
      let sup := (s.slot c i).st.sup
      let a := if f.pair then legalWord sup f.word1 else none
      match legalWord sup (if !f.pair && f.pc.getLsbD 2 then f.word1 else f.word0) with
      | none => .next s
      | some i0 => runShadow ex f p d i0 a s

end

end Sys2Proof.Machine
end

