-- ==== Sys2Proof/Machine/Memory.lean ====
section
/-! DEFINITION. Memory instructions: loads and stores (R103, R104, R114), gathers and scatters (R174–R176), fences (R115), tagged words (R116–R119), atomics, reservations and reductions (R120–R126). -/

namespace Sys2Proof.Machine

open Sys2Proof

/-! ### Plain loads and stores (R103, R104) -/

/-- A scalar load from gb + imm. -/
def scalarLoad (d a : Fin 32) (i : BitVec 13) (n : Nat) (ext : Ext) (s : State) : Result :=
  .next (memLoad (.g d) (s.gval a + sext i) n ext false s)

/-- A scalar store to gb + imm. -/
def scalarStore (x a : Fin 32) (i : BitVec 13) (n : Nat) (s : State) : Result :=
  .next (memStore (s.gval a + sext i) n ((s.gval x).setWidth 512) true s)

/-- ld.b: sign-extended byte (R103). -/
def execLdB (d a : Fin 32) (i : BitVec 13) (s : State) : Result := scalarLoad d a i 1 .sign s
/-- ld.bu: zero-extended byte (R103). -/
def execLdBu (d a : Fin 32) (i : BitVec 13) (s : State) : Result := scalarLoad d a i 1 .zero s
/-- ld.h (R103). -/
def execLdH (d a : Fin 32) (i : BitVec 13) (s : State) : Result := scalarLoad d a i 2 .sign s
/-- ld.hu (R103). -/
def execLdHu (d a : Fin 32) (i : BitVec 13) (s : State) : Result := scalarLoad d a i 2 .zero s
/-- ld.w (R103). -/
def execLdW (d a : Fin 32) (i : BitVec 13) (s : State) : Result := scalarLoad d a i 4 .sign s
/-- ld.wu (R103). -/
def execLdWu (d a : Fin 32) (i : BitVec 13) (s : State) : Result := scalarLoad d a i 4 .zero s
/-- ld.d: whole doubleword (R103). -/
def execLdD (d a : Fin 32) (i : BitVec 13) (s : State) : Result := scalarLoad d a i 8 .zero s
/-- st.b: stores the low 1 bytes (R103). -/
def execStB (x a : Fin 32) (i : BitVec 13) (s : State) : Result := scalarStore x a i 1 s
/-- st.h: stores the low 2 bytes (R103). -/
def execStH (x a : Fin 32) (i : BitVec 13) (s : State) : Result := scalarStore x a i 2 s
/-- st.w: stores the low 4 bytes (R103). -/
def execStW (x a : Fin 32) (i : BitVec 13) (s : State) : Result := scalarStore x a i 4 s
/-- st.d: stores the low 8 bytes (R103). -/
def execStD (x a : Fin 32) (i : BitVec 13) (s : State) : Result := scalarStore x a i 8 s
/-- ld.v: 64 bytes, every lane (R104). -/
def execLdV (d : Fin 16) (a : Fin 32) (i : BitVec 13) (s : State) : Result := .next (memLoad (.v d) (s.gval a + sext i) 64 .vector false s)
/-- st.v: 64 bytes (R104). -/
def execStV (x : Fin 16) (a : Fin 32) (i : BitVec 13) (s : State) : Result := .next (memStore (s.gval a + sext i) 64 (s.vval x) true s)

/-! ### Gather and scatter (R174–R176) -/

/-- The lanes that a mask enables, ascending. -/
def enabledLanes (m : MWord) : List Nat := (List.range 16).filter (fun i => m.getLsbD i)

/-- The address of a lane (R174). -/
def laneAddr (base : Word) (offs : VWord) (i : Nat) : Word := base + (lane offs i).setWidth 64

/-- The check of one step of R101 on one lane of a gather or scatter (R175): its cause when it fails. -/
def State.laneCheck (s : State) (step : Nat) (store : Bool) (ea : Word) : Option TrapVal :=
  let own : Option Nat := match s.classify s.cur.core ea with
    | .spad t off => if t = s.cur.core then some off else none
    | _ => none
  match step with
  | 1 => match s.classify s.cur.core ea with
    | .bad cause => some (trapAt cause ea)
    | _ => none
  | 2 => if own.isSome then none else some (trapAt 0x063 ea)
  | 3 => if ea.toNat % 4 = 0 then none else some (trapAt 0x061 ea)
  | _ => own.bind (fun off => s.lockTrap s.meRef (.spad s.cur.core) off 4 store ea)

/-- The first failing check over the enabled lanes: by step, then by lane (R175). -/
def State.lanesTrap (s : State) (store : Bool) (base : Word) (offs : VWord) (m : MWord) : Option TrapVal :=
  [1, 2, 3, 6].findSome? (fun step => (enabledLanes m).findSome? (fun i =>
    (s.laneCheck step store (laneAddr base offs i)).map (fun v => if v.cause = 0x0A1 ∨ step ≠ 6 then { v with tinf := BitVec.ofNat 64 i } else v)))

/-- vgath: every enabled lane's word in the issue cycle, merged under the mask (R176); of several poisoned words the mark is that of the lowest enabled lane (DESIGN CHOICE, log 147). -/
def execVgath (d : Fin 16) (a : Fin 32) (b : Fin 16) (mk : Fin 8) (s : State) : Result :=
  let m := s.mval mk
  let at_ (i : Nat) : Word := laneAddr (s.gval a) (s.vval b) i
  match s.lanesTrap false (s.gval a) (s.vval b) m with
  | some v => .next (s.trapV v)
  | none =>
    let k := s.myCore
    match (enabledLanes m).find? (fun i => (k.spadPoisonIn (wordBits (at_ i) 17 0) 4).isSome) with
    | some i => .next (s.putReg (.v d) ((at_ i).setWidth 512) ((k.spadPoisonIn (wordBits (at_ i) 17 0) 4).map poisonMark))
    | none => .next (s.putVMasked d mk (ofLanes (fun i => (k.spadVal (wordBits (at_ i) 17 0) 4).setWidth 32)))

/-- vscat: the enabled lanes' words in ascending order, so that the higher lane's value stays (R176). -/
def execVscat (x : Fin 16) (a : Fin 32) (b : Fin 16) (mk : Fin 8) (s : State) : Result :=
  let m := s.mval mk
  match s.lanesTrap true (s.gval a) (s.vval b) m with
  | some v => .next (s.trapV v)
  | none => .next ((enabledLanes m).foldl (fun s i =>
      s.spadWrite s.cur.core (wordBits (laneAddr (s.gval a) (s.vval b) i) 17 0) (natBytes 4 (lane (s.vval x) i).toNat)) s)

/-! ### Ordered loads and stores, and fences (R113–R115) -/

/-- An ordered load: at .th the plain access; else it reads at the home and its thread waits for it (R114). full also waits before. -/
def orderedLoad (d n : Fin 32) (full : Bool) (e : Scope) (size : Nat) (s : State) : Result :=
  let ord : OrdKind := if full then .full else .acq
  let ea := s.gval n
  let rule : TxRule := if e = .th then .plain else .globalForbidden
  .next (withRelease (ordReleases ord e) (s.checkAccess ea size .load .both rule)
    (fun s => (memLoad (.g d) ea size .zero (e != .th) s).acquire ord e) s)

/-- An ordered store (R114). -/
def orderedStore (x n : Fin 32) (full : Bool) (e : Scope) (size : Nat) (s : State) : Result :=
  let ord : OrdKind := if full then .full else .rel
  let ea := s.gval n
  let rule : TxRule := if e = .th then .plain else .globalForbidden
  .next (withRelease (ordReleases ord e) (s.checkAccess ea size .store .both rule)
    (fun s => (memStore ea size ((s.gval x).setWidth 512) (e = .th) s).acquire ord e) s)

/-- ld.bu.acq (R114). -/
def execLdBuAcq (t n : Fin 32) (r : Bool) (e : Scope) (s : State) : Result := orderedLoad t n r e 1 s
/-- ld.hu.acq (R114). -/
def execLdHuAcq (t n : Fin 32) (r : Bool) (e : Scope) (s : State) : Result := orderedLoad t n r e 2 s
/-- ld.wu.acq (R114). -/
def execLdWuAcq (t n : Fin 32) (r : Bool) (e : Scope) (s : State) : Result := orderedLoad t n r e 4 s
/-- ld.d.acq (R114). -/
def execLdDAcq (t n : Fin 32) (r : Bool) (e : Scope) (s : State) : Result := orderedLoad t n r e 8 s
/-- st.b.rel (R114). -/
def execStBRel (t n : Fin 32) (r : Bool) (e : Scope) (s : State) : Result := orderedStore t n r e 1 s
/-- st.h.rel (R114). -/
def execStHRel (t n : Fin 32) (r : Bool) (e : Scope) (s : State) : Result := orderedStore t n r e 2 s
/-- st.w.rel (R114). -/
def execStWRel (t n : Fin 32) (r : Bool) (e : Scope) (s : State) : Result := orderedStore t n r e 4 s
/-- st.d.rel (R114). -/
def execStDRel (t n : Fin 32) (r : Bool) (e : Scope) (s : State) : Result := orderedStore t n r e 8 s
/-- fence performs the waits of its kind and nothing else (R115). -/
def execFence (r : OrdKind) (e : Scope) (s : State) : Result :=
  if ordReleases r e && s.mustRelease then .next ((s.wantCheckpoint s.cur.core).wait .release)
  else .next (s.acquire r e)

/-! ### Tagged scratchpad words (R116–R119) -/

/-- The condition of a tagged operation on the full/empty bit (R116). -/
def tagHolds (op : TagOp) (full : Bool) : Bool :=
  match op with
  | .ldfe => full | .ldff => full | .stfe => !full | .stf => true | .ste => true

/-- Whether a tagged operation loads. -/
def tagLoads : TagOp → Bool
  | .ldfe => true | .ldff => true | _ => false

/-- A tagged operation is performed at its word: the value loaded and its mark, and the state after (R116). -/
def State.performTag (s : State) (c : CoreKey) (off : Nat) (op : TagOp) (data : Word) (ea : Word) : (Word × Option Mark) × State :=
  let k := s.core c
  let word := off / 8
  let out : Word × Option Mark := match k.spadPoisonIn off 8 with
    | some src => (ea, some (poisonMark src))
    | none => ((k.spadVal off 8).setWidth 64, none)
  match op with
  | .ldfe => (out, (s.undoLogRange c off 8).setFull c word false)
  | .ldff => (out, s)
  | .stfe => ((0, none), (s.spadWrite c off (wordBytes data)).setFull c word true)
  | .stf => ((0, none), (s.spadWrite c off (wordBytes data)).setFull c word true)
  | .ste => ((0, none), (s.spadWrite c off (wordBytes data)).setFull c word false)

/-- The condition of a tagged operation holds at its word now: it is performed in its issue or port cycle, whatever waits there (R117; DESIGN CHOICE, log 131: R118's one in a cycle counts waiting operations alone). -/
def State.tagReady (s : State) (c : CoreKey) (off : Nat) (op : TagOp) : Bool := tagHolds op ((s.core c).full.contains (off / 8))

/-- Cycles of cr.wlim that remain since the first attempt (R119). -/
def State.budgetLeft (s : State) : Nat := s.me.wlim.toNat - (s.cycle - s.cur.start)

/-- The limit of the wait that the thread in the latch has just begun (R119, R140, R143): in a later cycle before issue, in this one at its end, after what the cycle still brings (R241). -/
def State.postLimit (s : State) (from_ : Nat) (ev : ThreadRef → Nat → Instr) : State :=
  match s.me.block with
  | some b =>
    let limit := from_ + s.me.wlim.toNat
    s.post (if limit ≤ s.cycle then 4 * s.cycle + 3 else 4 * limit) (2 ^ 61) (ev s.meRef b.id)
  | none => s

/-- A tagged operation: on the own scratchpad at once or when its condition holds, elsewhere by a request; its thread waits for it (R117). One that waits is judged once more at the end of its issue cycle, since a tag that changes in it counts as earlier (R241). The ordering bit is an acquire of a load, a release of a store (R113, R116). -/
def tagged (op : TagOp) (t n : Fin 32) (ord : Bool) (e : Scope) (s : State) : Result :=
  let ea := s.gval n
  let rel := ord && !tagLoads op
  let chk := s.checkAccess ea 8 .store .spadOnly .exempt
  if rel && e != .th && s.mustRelease && chk.passes then
    .next (((s.wantCheckpoint s.cur.core).wait .release).postLimit s.cur.start .taggedWaitLimit)
  else match chk with
  | .trap v => .next (s.trapV v)
  | .park s => .next s.park
  | .global _ _ s => .next s.park
  | .spad c off =>
    if c = s.cur.core then
      if s.tagReady c off op then
        let ((x, m), s) := s.performTag c off op (s.gval t) ea
        .next (if tagLoads op then (s.putReg (.g t) (x.setWidth 512) m).acquire (if ord then .acq else .plain) e else s)
      else
        let id := s.fresh
        let s := (s.wait (.tagLocal id (if tagLoads op then t else 0))).postLimit s.cur.start .taggedWaitLimit
        let x : TagEntry := { id := id, off := off, va := ea, op := op, data := s.gval t, thread := s.meRef, block := id, local_ := true
                              time := 0, ctx := s.me.ctx }
        .next ((s.modMyCore (fun k => { k with tagWait := k.tagWait ++ [x] })).post (4 * s.cycle + 3) 0 (.taggedOperationPerformed c id))
    else if s.me.meets (spadPlace c off) 8 then .next s.held
    else
      let id := s.fresh
      let budget := s.budgetLeft
      let s := s.wait (.tagRemote (if tagLoads op then t else 0))
      .next (s.sendRemote id c off ea (.tagged op) ((s.gval t).setWidth 512) (if tagLoads op then some (.g t) else none) budget)

/-- ldfe (R116). -/
def execLdfe (t n : Fin 32) (r : Bool) (e : Scope) (s : State) : Result := tagged .ldfe t n r e s
/-- ldff (R116). -/
def execLdff (t n : Fin 32) (r : Bool) (e : Scope) (s : State) : Result := tagged .ldff t n r e s
/-- stfe (R116). -/
def execStfe (t n : Fin 32) (r : Bool) (e : Scope) (s : State) : Result := tagged .stfe t n r e s
/-- stf (R116). -/
def execStf (t n : Fin 32) (r : Bool) (e : Scope) (s : State) : Result := tagged .stf t n r e s
/-- ste (R116). -/
def execSte (t n : Fin 32) (r : Bool) (e : Scope) (s : State) : Result := tagged .ste t n r e s

/-! ### Atomics, reservations, reductions (R120–R126) -/

/-- Bytes of a width. -/
def widthBytes : Width → Nat
  | .w32 => 4 | .w64 => 8

/-- A global access that the home performs on the newest version, with or without a result (R121, R124). -/
def homeOperation (op : GlobalOp) (ea : Word) (n : Nat) (dst : Option (Fin 32)) (data cmp : Word) (kind : OutKind) (ord : OrdKind) (e : Scope) (ev : Access → Instr) (s : State) : Result :=
  .next (withRelease (ordReleases ord e) (s.checkAccess ea n .atomic .globalOnly .globalForbidden)
    (fun s =>
      match s.checkAccess ea n .atomic .globalOnly .globalForbidden with
      | .trap v => s.trapV v
      | .park s => s.park
      | .spad _ _ => s.park
      | .global pte pa s =>
        if s.me.meets pa n then s.held
        else
          let (id, s) := s.begin_ kind pa n
          let s := match dst with
            | some d => s.modMe (fun sl => { sl with regs := sl.regs.retag .pending (.g d) })
            | none => s
          let a := { s.mkAccess op pte ea pa n id with dst := dst.map .g, data := data.setWidth 512, cmp := cmp }
          (s.sendHome a ev).acquire ord e) s)

/-- amo: package scope (R120). -/
def amo (op : AtomOp) (t n x : Fin 32) (r : OrdKind) (wd : Width) (s : State) : Result :=
  homeOperation (.amo op) (s.gval n) (widthBytes wd) (some t) (s.gval x) 0 .atomic r .pk .atomicUnitOperation s

/-- amo.add (R120). -/
def execAmoAdd (t n x : Fin 32) (r : OrdKind) (wd : Width) (s : State) : Result := amo .add t n x r wd s
/-- amo.and (R120). -/
def execAmoAnd (t n x : Fin 32) (r : OrdKind) (wd : Width) (s : State) : Result := amo .and t n x r wd s
/-- amo.or (R120). -/
def execAmoOr (t n x : Fin 32) (r : OrdKind) (wd : Width) (s : State) : Result := amo .or t n x r wd s
/-- amo.xor (R120). -/
def execAmoXor (t n x : Fin 32) (r : OrdKind) (wd : Width) (s : State) : Result := amo .xor t n x r wd s
/-- amo.max (R120). -/
def execAmoMax (t n x : Fin 32) (r : OrdKind) (wd : Width) (s : State) : Result := amo .max t n x r wd s
/-- amo.min (R120). -/
def execAmoMin (t n x : Fin 32) (r : OrdKind) (wd : Width) (s : State) : Result := amo .min t n x r wd s
/-- amo.swap (R120). -/
def execAmoSwap (t n x : Fin 32) (r : OrdKind) (wd : Width) (s : State) : Result := amo .swap t n x r wd s
/-- amo.fadd (R120). -/
def execAmoFadd (t n x : Fin 32) (r : OrdKind) (wd : Width) (s : State) : Result := amo .fadd t n x r wd s
/-- amo.maxu (R120). -/
def execAmoMaxu (t n x : Fin 32) (r : OrdKind) (wd : Width) (s : State) : Result := amo .maxu t n x r wd s
/-- amo.minu (R120). -/
def execAmoMinu (t n x : Fin 32) (r : OrdKind) (wd : Width) (s : State) : Result := amo .minu t n x r wd s
/-- amo.fmax (R120). -/
def execAmoFmax (t n x : Fin 32) (r : OrdKind) (wd : Width) (s : State) : Result := amo .fmax t n x r wd s
/-- amo.fmin (R120). -/
def execAmoFmin (t n x : Fin 32) (r : OrdKind) (wd : Width) (s : State) : Result := amo .fmin t n x r wd s

/-- lres: newest value, and a reservation on its line (R122, R123). -/
def execLres (t n : Fin 32) (r : Bool) (wd : Width) (s : State) : Result :=
  homeOperation .lres (s.gval n) (widthBytes wd) (some t) 0 0 .atomic (if r then .acq else .plain) .pk .atomicUnitOperation s
/-- scnd: stores when the reservation holds (R122). -/
def execScnd (t n x : Fin 32) (r : Bool) (wd : Width) (s : State) : Result :=
  homeOperation .scnd (s.gval n) (widthBytes wd) (some t) (s.gval x) 0 .atomic (if r then .rel else .plain) .pk .atomicUnitOperation s
/-- cas: compares with gd, which it reads (R122). -/
def execCas (t n x : Fin 32) (r : OrdKind) (wd : Width) (s : State) : Result :=
  homeOperation .cas (s.gval n) (widthBytes wd) (some t) (s.gval x) (s.gval t) .atomic r .pk .atomicUnitOperation s

/-- The atomic that a reduction names (R124). -/
def redAtom : RedOp → AtomOp
  | .add => .add | .and => .and | .or => .or | .xor => .xor | .max => .max | .min => .min | .fadd => .fadd
  | .maxu => .maxu | .minu => .minu | .fmax => .fmax | .fmin => .fmin

/-- red: no register result (R124). -/
def execRed (op : RedOp) (wd : Width) (n x : Fin 32) (r : Bool) (e : Scope) (s : State) : Result :=
  homeOperation (.red (redAtom op)) (s.gval n) (widthBytes wd) none (s.gval x) 0 .reduction (if r then .rel else .plain) e .reductionApply s

/-- redo: the contribution of slice gi; its width is the declaration's, so its address is aligned as the home finds it; the access checks a word (log 33). -/
def execRedo (t n x : Fin 32) (s : State) : Result :=
  homeOperation (.redo (s.gval t).toNat) (s.gval n) 4 none (s.gval x) 0 .reduction .plain .th .sliceOrderedMerge s
/-- ordset: a declaration at the home (R125). -/
def execOrdset (t n x : Fin 32) (s : State) : Result :=
  homeOperation .ordset (s.gval n) (if (s.gval x).getLsbD 20 then 8 else 4) (some t) (s.gval x) 0 .atomic .plain .th .ordsetDeclaration s

end Sys2Proof.Machine
end

