-- ==== Sys2Proof/Machine/Sync.lean ====
section
/-! DEFINITION. Instructions that tie threads together: code publish (R127, R128), barriers (R130–R133), monitors (R134, R135), fill and open (R136, R137), mailboxes (R138–R141), spawn and mig (R142–R145), snapshots and transactions (R147–R155). -/

namespace Sys2Proof.Machine

open Sys2Proof

/-! ### Code publish (R127, R128, R374) -/

/-- B of R128 for a scope; the pod's figure is R383's, 300 cycles at 850 MHz for each link of the diameter, in nanoseconds at other steps (R1, R411). -/
def State.broadcast (s : State) (c : CoreKey) (e : Scope) : Nat :=
  match e with
  | .th => 0 | .co => 0 | .qd => 2 | .cl => 8 | .di => 40 | .pk => 120
  | .pd => 120 + s.nsCycles (pkgOf c) (3529 * (s.pkg (pkgOf c)).podDiam)

/-- The lines that a range of n bytes meets, ascending (R127). -/
def linesMet (pa n : Nat) : List PhysAddr :=
  if n = 0 then [] else (List.range ((pa + n - 1) / 256 + 1 - pa / 256)).map (fun i => lineOf pa + 256 * i)

/-- The publish time P (R128). -/
def State.publishTime (s : State) (t : Nat) (lines : List PhysAddr) : Nat :=
  1 + max t (maxOf (lines.flatMap (fun l => (List.range 4).flatMap (fun j => [(s.sector (l + 64 * j)).wts, (s.sector (l + 64 * j)).rts]))))

/-- The checks of cpub in order, and its page (R127). -/
def State.checkPublish (s : State) (gb gn : Word) : Checked :=
  let sl := s.me
  match s.classify s.cur.core gb with
  | .bad cause => .trap (trapAt cause gb)
  | .spad _ _ => .trap (trapAt 0x063 gb)
  | .global =>
    if 65536 < gn.toNat ∨ (gn ≠ 0 ∧ gb.toNat / 65536 ≠ (gb.toNat + gn.toNat - 1) / 65536) then .trap { cause := 0x164, tval := gb, tinf := gn }
    else match s.translate s.cur.core s.cur.slot sl.ctx gb with
      | (.fault, _) => .trap (trapAt 0x081 gb)
      | (.miss, s) => .park s
      | (.hit e, s) =>
        if (!e.r && !e.w && !e.x) || (!sl.st.sup && !e.u) then .trap (trapAt 0x082 gb)
        else if !e.code then .trap (trapAt 0x163 gb)
        else if sl.st.tx then .trap s.txMisuse
        else .global e (e.phys gb.toNat) s

/-- cpub waits as a release, marks one line each 4 cycles, raises the times of its scope, and only then lets its thread go on (R128, R374). Its publish time is taken at issue and rises with each mark, so that it exceeds every lease granted before the mark (R277, log 132). -/
def execCpub (n x : Fin 32) (e : Scope) (s : State) : Result :=
  let gb := s.gval n
  let gn := s.gval x
  .next (withRelease true (s.checkPublish gb gn) (fun s =>
    match s.checkPublish gb gn with
    | .trap v => s.trapV v
    | .park s => s.park
    | .spad _ _ => s.park
    | .global pte pa s =>
      let lines := linesMet pa gn.toNat
      let p := s.publishTime (s.core s.cur.core).time lines
      let extra := s.homeLatency s.myClu pte.home - 120
      let id := s.fresh
      let s := s.wait (.cpub lines p)
      let s := (numbered lines).foldl (fun s (i, l) => s.postAt (s.cycle + 60 + 4 * i + extra) (senderRank s.cur.core s.cur.slot) (.publishMark { thread := s.meRef, id := id, line := l } p)) s
      s.postAt (s.cycle + 60 + 4 * lines.length + s.broadcast s.cur.core e + extra) (2 ^ 60) (.cpubTimeBroadcast s.meRef id e p)) s)

/-! ### Barriers (R130–R133) -/

/-- A barrier instance, as it stands. -/
def State.barrier (s : State) (b : BarRef) : Barrier :=
  (s.barriers.find? (fun x => x.bar = b)).getD { bar := b, phase := 0, arrived := [], count := 0, time := 0 }

/-- The state with a barrier instance changed. -/
def State.modBarrier (s : State) (b : BarRef) (f : Barrier → Barrier) : State :=
  { s with barriers := f (s.barrier b) :: s.barriers.filter (fun x => x.bar != b) }

/-- The instance that a barrier instruction of the thread in the latch names; none for a thread that is no party (R131, R133). -/
def State.barRef (s : State) (b : Fin 4) (e : Scope) : Option BarRef :=
  s.me.place.map (fun p => { launch := s.me.launch, scope := e, inst := instanceOf e p, b := b.val })

/-- The thread's last arrival at an instance. -/
def Slot.arrival (sl : Slot) (b : BarRef) : Option BarArrival := sl.bars.find? (fun x => x.bar = b)

/-- The trap of barrier misuse (R133, R156). -/
def State.barMisuse (s : State) (sub : Nat) : State := s.trap 0x102 0 (BitVec.ofNat 64 sub)

/-- The misuse of an arrival, by sub-cause (R133); of several, 2 before 3 before 4 (log 133). The arrival that an interrupted `bar` left standing is no misuse of that `bar` when it runs again (log 34). -/
def State.arriveMisuse (s : State) (b : Option BarRef) (gp : Word) (bar : Bool) : Option Nat :=
  match b with
  | none => if wordBits gp 63 56 ≠ 0 then some 3 else some 4
  | some r =>
    if (s.me.arrival r).any (fun a => a.phase = (s.barrier r).phase && !(bar && a.stands)) then some 2
    else if wordBits gp 63 56 ≠ 0 then some 3 else none

/-- An arrival stands from an interrupted `bar`. -/
def State.arrivalStands (s : State) (b : BarRef) : Bool := (s.me.arrival b).any (fun a => a.stands)

/-- The thread arrives at the phase in progress (R131, R132). -/
def State.arrive (s : State) (b : BarRef) (gp : Word) : State :=
  let phase := (s.barrier b).phase
  let s := s.modMe (fun sl => { sl with bars := { bar := b, phase := phase, stands := false } :: sl.bars.filter (fun x => x.bar != b) })
  s.post s.now 0 (.barrierArrival b (gp &&& 0xFFFFFFFFFFFFFF) (s.core s.cur.core).time s.meRef)

/-- The thread waits for the phase of its last arrival, then acts as an acquire (R132). -/
def State.barWait (s : State) (b : BarRef) : State :=
  match s.me.arrival b with
  | none => s.barMisuse 1
  | some a =>
    let s := s.modMe (fun sl => { sl with bars := sl.bars.map (fun x => if x.bar = b then { x with stands := false } else x) })
    if a.phase < (s.barrier b).phase then s.acquire .acq .pk
    else
      let id := s.fresh
      let s := s.wait (.barWait b a.phase)
      s.postAt (s.cycle + s.me.wlim.toNat) (2 ^ 61) (.barrierWaitLimit s.meRef id)

/-- bar.arr: the release waits, then the arrival; no effect in a follower (R130–R133). -/
def execBarArr (b : Fin 4) (x : Fin 32) (e : Scope) (s : State) : Result :=
  if s.me.st.role = .follower then .next s
  else match s.arriveMisuse (s.barRef b e) (s.gval x) false with
  | some sub => .next (s.barMisuse sub)
  | none =>
    if s.mustRelease then .next ((s.wantCheckpoint s.cur.core).wait .release)
    else match s.barRef b e with
      | some r => .next (s.arrive r (s.gval x))
      | none => .next (s.barMisuse 4)

/-- bar.wt (R130, R132, R133); of a thread that is no party, sub-cause 1 (log 133). -/
def execBarWt (b : Fin 4) (e : Scope) (s : State) : Result :=
  if s.me.st.role = .follower then .next s
  else match s.barRef b e with
    | none => .next (s.barMisuse 1)
    | some r => .next (s.barWait r)

/-- bar: bar.arr followed by bar.wt (R130); an arrival that an interrupted `bar` left standing is not made again (R229, log 34). -/
def execBar (b : Fin 4) (x : Fin 32) (e : Scope) (s : State) : Result :=
  if s.me.st.role = .follower then .next s
  else match s.barRef b e, s.arriveMisuse (s.barRef b e) (s.gval x) true with
    | _, some sub => .next (s.barMisuse sub)
    | none, none => .next (s.barMisuse 4)
    | some r, none =>
      if s.arrivalStands r then .next (s.barWait r)
      else if s.mustRelease then .next ((s.wantCheckpoint s.cur.core).wait .release)
      else .next ((s.arrive r (s.gval x)).barWait r)

/-! ### Monitors and wait (R134, R135) -/

/-- The thread's monitors of an index changed. -/
def Slot.setMonitor (sl : Slot) (i : Nat) (m : Option Monitor) : Slot := { sl with monitors := sl.monitors.setIfInBounds i m }

/-- The monitor of a slot by index. -/
def Slot.monitor (sl : Slot) (i : Nat) : Option Monitor := (sl.monitors[i]?).join

/-- The latched monitors as bits (R135). -/
def Slot.latches (sl : Slot) : Nat :=
  (List.range 4).foldl (fun a i => if (sl.monitor i).any (fun m => m.latched) then a + 2 ^ i else a) 0

/-- Every latch cleared; the monitors stay armed (R135). -/
def Slot.clearLatches (sl : Slot) : Slot := { sl with monitors := sl.monitors.map (fun m => m.map (fun x => { x with latched := false })) }

/-- Every monitor disarmed. -/
def Slot.disarm (sl : Slot) : Slot := { sl with monitors := Vector.replicate 4 none }

/-- The block that a monitor on an address would watch, and the checks of the address as a load of one byte (R134). -/
def monPlace : Checked → Option MonAt
  | .spad c off => some (.spad c (off / 64))
  | .global _ pa _ => some (.mem (sectorOf pa))
  | _ => none

/-- mon: the index of a monitor on the block, armed at once in the own scratchpad, else on the acknowledgement (R134). -/
def execMon (d a : Fin 32) (s : State) : Result :=
  let ea := s.gval a
  let chk := s.checkAccess ea 1 .load .both .plain
  match chk, monPlace chk with
  | .trap v, _ => .next (s.trapV v)
  | .park s, _ => .next s.park
  | _, none => .next s.park
  | chk, some place =>
    match (List.range 4).find? (fun i => (s.me.monitor i).any (fun m => m.at_ = place)) with
    | some i => .next (s.putG d (BitVec.ofNat 64 i))
    | none =>
      match (List.range 4).find? (fun i => (s.me.monitor i).isNone) with
      | none => .next (s.putG d (BitVec.allOnes 64))
      | some i =>
        let m : Monitor := { at_ := place, va := ea, from_ := s.cycle + 1, latched := false }
        match chk with
        | .spad c off =>
          if c = s.cur.core then .next ((s.modMe (fun sl => sl.setMonitor i (some m))).putG d (BitVec.ofNat 64 i))
          else
            let id := s.fresh
            let s := s.wait (.monitorArm d i)
            .next (s.sendRemote id c off ea (.arm i) 0 none 0)
        | .global e pa s =>
          let id := s.fresh
          let s := s.wait (.monitorArm d i)
          .next (s.sendHome { s.mkAccess (.arm i) e ea (sectorOf pa) 64 id with dst := some (.g d) } .homeLoad)
        | _ => .next s.park

/-- monx disarms every monitor of the thread (R134). -/
def execMonx (s : State) : Result := .next (s.modMe Slot.disarm)

/-- wait: judged at the end of its issue cycle (R135). -/
def execWait (d : Fin 32) (s : State) : Result :=
  if (List.range 4).all (fun i => (s.me.monitor i).isNone) && s.me.mlim == 0 then .next (s.putG d 0)
  else
    let id := s.fresh
    let s := s.wait (.wait d)
    .next (s.post (4 * s.cycle + 3) 0 (.waitTimeout s.meRef id))

/-! ### Fill and open (R136, R137) -/

/-- The register that a fill descriptor or an open names, legal for its class (R57). -/
def regOf (cls n : Nat) : Option RegName :=
  match cls with
  | 0 => if h : n < 32 then some (.g ⟨n, h⟩) else none
  | 1 => if h : n < 16 then some (.v ⟨n, h⟩) else none
  | 2 => if h : n < 8 then some (.m ⟨n, h⟩) else none
  | _ => none

/-- A unit that bits 63:44 of an identity name exists: its package is of the pod and its cluster at most 23 (R137, R377). -/
def State.idInPod (s : State) (w : Word) : Bool := wordBits w 63 55 ≤ (s.pkg (pkgOf s.cur.core)).podN && wordBits w 52 48 ≤ 23

/-- fill sends a value to an Open register (R137). -/
def execFill (a b : Fin 32) (s : State) : Result :=
  let gt := s.gval a
  match (if wordBits gt 23 7 ≠ 0 ∨ !s.idInPod gt then none else regOf (wordBits gt 6 5) (wordBits gt 4 0)) with
  | none => .next (s.trap 0x121 gt 0)
  | some r =>
    let t := s.refById (pkgOf s.cur.core) gt.toNat
    let (id, s) := s.begin_ .fill 0 0
    .next (s.sendAt 4 s.myClu (cluOf t.core) (s.cycle + s.oneWay s.cur.core t.core) (senderRank s.cur.core s.cur.slot)
      (.fillArrival { sender := s.meRef, target := t, dst := r, val := s.gval b, time := (s.core s.cur.core).time, ctx := s.me.ctx, id := id, bad := none }))

/-- open: the register's tag becomes Open (R11, R136). -/
def execOpenReg (r : RegName) (s : State) : Result := .next (s.modMe (fun sl => { sl with regs := sl.regs.retag .opened r }))

/-! ### Mailboxes (R138–R141) -/

/-- Bytes gb … gb + n − 1 lie in the thread's own scratchpad, 8-aligned: the offset, or the trap (R101, R139). -/
def State.ownRange (s : State) (gb : Word) (n : Nat) : TrapVal ⊕ Nat :=
  match s.classify s.cur.core gb with
  | .bad cause => .inl (trapAt cause gb)
  | .global => .inl (trapAt 0x063 gb)
  | .spad c off =>
    if c ≠ s.cur.core then .inl (trapAt 0x063 gb)
    else if off % 8 ≠ 0 then .inl (trapAt 0x061 gb)
    else if 262144 < off + n then .inl (trapAt 0x123 gb)
    else .inr off

/-- msend reads its payload and waits until the target accepts it (R139, R140). -/
def execMsend (a b : Fin 32) (s : State) : Result :=
  let gt := s.gval b
  let len := wordBits gt 8 0
  if wordBits gt 43 12 ≠ 0 ∨ len = 0 ∨ 256 < len ∨ !s.idInPod gt then .next (s.trap 0x123 gt 0)
  else match s.ownRange (s.gval a) len with
    | .inl v => .next (s.trapV v)
    | .inr off =>
      match s.lockTrap s.meRef (.spad s.cur.core) off len false (s.gval a) with
      | some v => .next (s.trapV v)
      | none =>
        let target := s.coreById (pkgOf s.cur.core) gt.toNat
        let r : RemoteReq :=
          { thread := s.meRef, id := s.fresh, target := target, off := 0, va := gt
            op := .message (wordBits gt 10 9) (gt.getLsbD 11) len (s.myCore.spadRead off len), data := 0, dst := none
            time := (s.core s.cur.core).time, ctx := s.me.ctx, budget := 0, issue := s.cycle, word := s.cur.word, bad := none }
        let s := (s.wait (.message r false)).postLimit s.cycle .mailboxWaitLimit
        .next (s.sendAt 4 s.myClu (cluOf target) (s.cycle + s.oneWay s.cur.core target) (senderRank s.cur.core s.cur.slot) (.remoteRequestArrival r))

/-- The oldest message of a ring (R141). -/
def Core.oldest (k : Core) (ring : Nat) : Option RingMsg := k.rings.find? (fun m => m.ring = ring)

/-- The message that mailbox gm gives next: high priority first (R141). -/
def Core.nextMessage (k : Core) (mb : Nat) : Option RingMsg := ((k.oldest (2 * mb + 1)).map some).getD (k.oldest (2 * mb))

/-- Where an entry of a ring begins (R138). -/
def Core.ringAt (k : Core) (ring place : Nat) : Nat := k.mboxBase.toNat * 256 + (ring * 2 ^ k.mboxDepth.toNat + place) * 256

/-- The first ring entry that is freed goes to the oldest waiting sender of the ring, as a notice (R140). -/
def State.noticeWaiter (s : State) (c : CoreKey) (ring : Nat) : State :=
  match (s.core c).waiters.find? (fun w => w.ring = ring) with
  | none => s
  | some w =>
    let s := s.modCore c (fun k => { k with waiters := k.waiters.erase w })
    s.sendAt 4 (cluOf c) (cluOf w.thread.core) (s.cycle + s.oneWay c w.thread.core) (senderRank c 16) (.mailboxNoticeArrival w.thread w.id)

/-- The header of a message (R141). -/
def State.messageHeader (s : State) (m : RingMsg) : Word :=
  BitVec.ofNat 64 (s.tidOf m.sender.core m.sender.slot m.sender.gen 0 + m.ring % 2 * 512 + m.len)

/-- A message is copied to gb and its entry freed; its poison goes with it (R141). -/
def State.takeMessage (s : State) (m : RingMsg) (off : Nat) : State :=
  let k := s.myCore
  let src := k.ringAt m.ring m.place
  let bad := k.spadPoisonIn src m.len
  let s := s.spadWrite s.cur.core off (k.spadRead src m.len)
  let s := match bad with
    | some x => s.spadPoisonAt s.cur.core off m.len x
    | none => s
  let s := s.modMyCore (fun k => { k with rings := k.rings.erase m })
  s.noticeWaiter s.cur.core m.ring

/-- A receiving instruction with its message chosen, or none: the checks of its destination, then the copy (R139, R141). With no message the destination is checked as one byte (log 134). -/
def State.receiveNow (s : State) (parks : Bool) (d a : Fin 32) (m : Option RingMsg) : State :=
  let len := (m.map RingMsg.len).getD 1
  match s.ownRange (s.gval a) len with
  | .inl v => s.trapV v
  | .inr off =>
    match s.lockTrap s.meRef (.spad s.cur.core) off len true (s.gval a) with
    | some v => s.trapV v
    | none =>
      match m with
      | some m => (s.takeMessage m off).putG d (s.messageHeader m)
      | none => if parks then (s.wait .receive).postLimit s.cur.start .mailboxWaitLimit else s.putG d 0

/-- mrecv and mpoll: a message of the high ring is taken at issue; else the rings are looked at once more at the end of the issue cycle, after what the remote port has accepted in it (R139, R141, R388). -/
def receive (parks : Bool) (d a b : Fin 32) (s : State) : Result :=
  let gm := s.gval b
  if 3 < gm.toNat then .next (s.trap 0x123 gm 0)
  else if s.cur.stage ≠ 0 then .next (s.receiveNow parks d a (s.myCore.nextMessage gm.toNat))
  else match s.myCore.oldest (2 * gm.toNat + 1) with
    | some m => .next (s.receiveNow parks d a (some m))
    | none =>
      let id := s.fresh
      let s := s.wait .receive
      .next { s with resumes := s.resumes ++ [{ due := 4 * s.cycle + 3, thread := s.meRef, id := id, cur := { s.cur with stage := 1, status := .run } }] }

/-- mrecv (R141). -/
def execMrecv (d a b : Fin 32) (s : State) : Result := receive true d a b s
/-- mpoll never parks (R141). -/
def execMpoll (d a b : Fin 32) (s : State) : Result := receive false d a b s

/-! ### Spawn and migration (R142–R145) -/

/-- The page that names the target of spawn or mig; ga itself is not accessed (R143); a malformed scratchpad form is no page either and gives 0x063 (DESIGN CHOICE, log 145). -/
def State.targetPage (s : State) (ga : Word) : Checked :=
  if ga.getLsbD 63 then .trap (trapAt 0x063 ga)
  else match s.classify s.cur.core ga with
    | .global =>
      match s.translate s.cur.core s.cur.slot s.me.ctx ga with
      | (.fault, _) => .trap (trapAt 0x081 ga)
      | (.miss, s) => .park s
      | (.hit e, s) => .global e (e.phys ga.toNat) s
    | _ => .trap (trapAt 0x081 ga)

/-- The context that the thread in the latch sends (R143). -/
def State.context (s : State) (spawn : Bool) (target : CoreKey) (pc : Word) (id : Nat) : CtxMsg :=
  { spawn := spawn, sender := s.meRef, id := id, target := target, pc := pc
    statusDw := fcsrWord s.cur.fcsr ||| (s.me.wlim.setWidth 64 <<< 32)
    args := carried.map s.gval, marks := List.replicate 8 none, idx := s.me.idx, launch := s.me.launch, ctx := s.me.ctx
    time := (s.core s.cur.core).time, place := if spawn then none else s.me.place, ints := [] }

/-- Cycles of a context's travel (R143, R261). -/
def State.contextTravel (s : State) (a b : CoreKey) : Nat := s.oneWay a b + 20 + 3

/-- A context leaves; its thread waits for the answer (R143). -/
def State.sendContext (s : State) (spawn : Bool) (target : CoreKey) (pc : Word) (d : Fin 32) : State :=
  let id := s.fresh
  let m := s.context spawn target pc id
  let s := (s.wait (.context m d false)).postLimit s.cycle .migrationWaitLimit
  let s := s.modMyCore (fun k => { k with flying := k.flying + 1 })
  s.sendAt 4 s.myClu (cluOf target) (s.cycle + s.contextTravel s.cur.core target) (senderRank s.cur.core s.cur.slot) (.contextArrival m)

/-- spawn creates a thread at the target core (R143, R144); its checks in the order page and translation, alignment of gp, transaction (DESIGN CHOICE, log 145). -/
def execSpawn (d a b : Fin 32) (s : State) : Result :=
  match s.targetPage (s.gval a) with
  | .trap v => .next (s.trapV v)
  | .park s => .next s.park
  | .spad _ _ => .next s.park
  | .global e _ s =>
    let gp := s.gval b
    if gp &&& 3 ≠ 0 then .next (s.trapV (trapAt 0x061 gp))
    else if s.me.st.tx then .next (s.trapV s.txMisuse)
    else if 64 ≤ s.myCore.flying then .next s.park
    else .next (s.sendContext true e.hcore gp d)

/-- The thread owns an accumulator. -/
def State.ownsAcc (s : State) : Bool :=
  (List.range 4).any (fun i => match s.myCore.accOwn[i]? with
    | some (some o) => o.val = s.cur.slot
    | _ => false)

/-- The state that keeps a thread from migrating, by sub-cause (R145). -/
def State.migRefused (s : State) : Option Nat :=
  if s.ownsAcc then some 1
  else if s.me.snapThread then some 3
  else if s.me.st.role ≠ .independent then some 4
  else none

/-- mig: the release waits, the checks of its state, then the context leaves; to the own core it is a no-op (R145). -/
def execMig (a : Fin 32) (s : State) : Result :=
  let chk (s : State) : Checked := match s.targetPage (s.gval a) with
    | .global e pa s' => if s.me.st.tx then .trap s.txMisuse else .global e pa s'
    | c => c
  .next (withRelease true (chk s) (fun s =>
    match chk s with
    | .trap v => s.trapV v
    | .park s => s.park
    | .spad _ _ => s.park
    | .global e _ s =>
      match s.migRefused with
      | some sub => s.trapV { cause := 0x126, tval := s.gval a, tinf := BitVec.ofNat 64 sub }
      | none =>
        if e.hcore = s.cur.core then s
        else if 64 ≤ s.myCore.flying then s.park
        else s.sendContext false e.hcore s.cur.nextPc 0) s)

/-! ### Snapshots and transactions (R147–R155) -/

/-- The registry answers in the home latency of cluster 0 of die 0 (R147). -/
def State.registryLatency (s : State) (clu : ClusterKey) : Nat := s.homeLatency clu (pkgOfClu clu * 96)

/-- A request to the registry leaves; the thread waits for its answer (R148, R150). -/
def State.askRegistry (s : State) (d : Fin 32) (req : Nat → Nat → RegistryReq) : State :=
  let s := s.raiseTime s.cur.core 1
  let id := s.fresh
  let t := (s.core s.cur.core).time
  let s := s.wait (.registry d)
  s.sendAt 3 s.myClu (pkgOf s.cur.core * 96) (s.cycle + s.registryLatency s.myClu / 2) (senderRank s.cur.core s.cur.slot) (.registryRequest (pkgOf s.cur.core) (req id t))

/-- The launch unit of a die judges its candidates after what else falls in a cycle. -/
def State.wakeUnit (s : State) (d : DieKey) (cycle : Nat) : State :=
  if s.agenda.any (fun p => p.ev = .launchAdmission d && p.due = 4 * cycle) then s else s.postAt cycle (2 ^ 50) (.launchAdmission d)

/-- Rounds that were answered not ready begin anew (R367, R417). -/
def State.restartRounds (s : State) (held : Round → Bool) : State :=
  s.dies.foldl (fun s (x, k) => if k.round.any held then (s.modDie x (fun k => { k with round := none })).wakeUnit x s.cycle else s) s

/-- Release the entries of a package's registry that a test names (R364); a round that the full registry held back begins anew (R367). -/
def State.releaseEntries (s : State) (p : PkgKey) (f : RegEntry → Bool) : State :=
  let t := s.modPkg p (fun k => { k with registry := k.registry.filter (fun e => !f e) })
  if (s.pkg p).registry.any f then t.restartRounds (fun r => r.full.contains p) else t

/-- The time of the snapshot of a slot's launch, 0 for none (R148, R155). -/
def State.launchSnap (s : State) (launch : Nat) : Nat := ((s.launch? launch).map Launch.snap).getD 0

/-- The registry of some package holds a thread-level entry of a thread: one whose snapshot a transaction has put away among them (R155, R364). -/
def State.holdsSnapshot (s : State) (t : ThreadRef) : Bool := s.pkgs.any (fun e => e.2.registry.any (fun r => r.owner = .thread t))

/-- Release the thread-level entries of a thread (R148, R364). -/
def State.releaseSnapshot (s : State) (t : ThreadRef) : State :=
  s.pkgs.foldl (fun s e => s.releaseEntries e.1 (fun r => r.owner = .thread t)) s

/-- snap registers the core's time (R148). -/
def execSnap (d : Fin 32) (s : State) : Result :=
  if s.me.st.tx then .next (s.trapV s.txMisuse)
  else .next (s.askRegistry d (fun id t => .snap s.meRef id t))

/-- snend releases a thread-level snapshot (R148). -/
def execSnend (s : State) : Result :=
  if s.me.st.tx then .next (s.trapV s.txMisuse)
  else if s.me.snapThread || s.holdsSnapshot s.meRef then
    let s := s.releaseSnapshot s.meRef
    .next (s.modMe (fun sl => { sl with snap := s.launchSnap sl.launch, snapThread := false }))
  else .next s

/-- The slot waits for a txb to be answered. -/
def Slot.opening (sl : Slot) : Bool :=
  match sl.block.map (fun b => b.cur.instr) with
  | some (Instr.txb _) => true
  | _ => false

/-- The open transactions of a core, those that the registry has yet to answer among them (R150). -/
def Core.openTx (k : Core) : Nat := ((List.range 16).filter (fun i => (k.slot i).tx.isSome || (k.slot i).opening)).length

/-- txb opens a transaction at the core's time (R150). -/
def execTxb (d : Fin 32) (s : State) : Result :=
  if s.me.st.tx then .next (s.trapV s.txMisuse)
  else if 4 ≤ s.myCore.openTx then .next ((s.raiseTime s.cur.core 1).putG d 0)
  else .next (s.askRegistry d (fun id t => .txb s.meRef id t))

/-- A transaction ends: its buffer is discarded, its snapshot released, cr.snap restored, TX cleared (R153, R154). -/
def State.endTx (s : State) (t : ThreadRef) : State :=
  match (s.slot t.core t.slot).tx with
  | none => s
  | some tx =>
    let s := s.releaseEntries (pkgOf t.core) (fun e => e.owner = .txn t)
    (s.pairOf t.core).foldl (fun s c =>
      s.modSlot c t.slot (fun sl => { sl with tx := none, snap := tx.savedSnap, snapThread := false, st := { sl.st with tx := false } })) s

/-- The homes of the written sectors of a transaction, each once. -/
def Tx.homes (tx : Tx) : List ClusterKey := (tx.sectors.map TxSector.home).eraseDups

/-- txc: 0 or 2 at once where no home is needed, else the prepare step at each home (R153). -/
def execTxc (d : Fin 32) (s : State) : Result :=
  match s.me.tx with
  | none => .next (s.putG d 0)
  | some tx =>
    if tx.failed then .next ((s.endTx s.meRef).putG d 2)
    else if tx.sectors.isEmpty then .next ((s.endTx s.meRef).putG d 0)
    else
      let id := s.fresh
      let s := s.wait (.txc d)
      let s := s.modMe (fun sl => { sl with tx := some { tx with votes := [], waiting := tx.homes.length } })
      .next (tx.homes.foldl (fun s h =>
        s.sendAt 3 s.myClu h (s.cycle + s.homeLatency s.myClu h / 2) (senderRank s.cur.core s.cur.slot) (.transactionPrepare s.meRef id h)) s)

/-- txa discards the transaction in its issue cycle (R154). -/
def execTxa (s : State) : Result := .next (s.endTx s.meRef)

end Sys2Proof.Machine
end

