-- ==== Sys2Proof/Machine/Threads.lean ====
section
/-! DEFINITION. What happens to threads: completions and fills (R11, R15, R29), limits, interrupts (R228, R229), gangs (R212–R214), retirement and scrubs (R97, R246), arriving contexts, installation and spill (R242–R245, R341), and the tick (R258). -/

namespace Sys2Proof.Machine

open Sys2Proof

/-! ### Completions and fills -/

/-- The other core of a mirrored pair, of a primary. -/
def State.shadow? (s : State) (c : CoreKey) : Option CoreKey := (s.core c).mirror.map Mirror.shadow

/-- A result written to a Pending register, in the thread, in its shadow, and in the checkpoint copies of both (R11, R395). -/
def State.complete (s : State) (c : CoreKey) (i : Nat) (dst : RegName) (val : VWord) (mark : Option Mark) (outside : Bool) : State :=
  let put (sl : Slot) : Slot := if sl.regs.tag dst = .pending then { sl with regs := sl.regs.put dst val mark } else sl
  let s := s.modSlot c i put
  match outside, s.shadow? c with
  | true, some d => (s.modSlot d i put).modCopies c i put
  | _, _ => s

/-- A long operation's result reaches the register file, which takes two in a cycle (R11, R29, R109). -/
def execLongOperationCompletion (c : Completion) (s : State) : Result :=
  let core := c.thread.core
  let k := s.core core
  let used := if k.portCycle = s.cycle then k.portUsed else 0
  if 2 ≤ used then .next (s.postAt (s.cycle + 1) 0 (.longOperationCompletion c))
  else
    let s := s.modCore core (fun k => { k with portCycle := s.cycle, portUsed := used + 1 })
    let s := s.raiseTime core c.raise
    if s.matches_ c.thread && (s.slot core c.thread.slot).out.any (fun o => o.id == c.id) then
      let outside : Bool := !(s.slot core c.thread.slot).out.any (fun o => o.id == c.id && o.kind == .localLong)
      let s := s.complete core c.thread.slot c.dst c.val c.mark outside
      .next ((s.finishFull c.thread c.id))
    else .next s

/-- A core owns a context whose requester may reach it (R341). -/
def State.admitsCtx (s : State) (target : CoreKey) (ctx : Nat) : Bool := (s.core target).live && (s.core target).ctxLast == ctx

/-- What a fill leaves in a register of a class (R137). -/
def fillValue (r : RegName) (v : Word) : VWord :=
  match r with
  | .v _ => ofLanes (fun _ => v.setWidth 32)
  | _ => v.setWidth 512

/-- An event that concerns a mirrored pair from outside waits for a checkpoint of the pair; some state when it must wait (R395). -/
def State.inboundGate (s : State) (c : CoreKey) (ev : Instr) : Option State :=
  match s.primaryOf c with
  | none => none
  | some p => if s.pairStopped p then none else some ((s.wantCheckpoint p).postAt (s.cycle + 1) 0 ev)

/-- A fill reaches its target core: one a cycle; it fills an Open register or is dropped and counted; either way it raises the core's time first (R11, R15, R137, R267, R341). One whose data were damaged on the way leaves a mark (R219, R379). -/
def execFillArrival (f : FillMsg) (s : State) : Result :=
  let c := f.target.core
  match s.inboundGate c (.fillArrival f) with
  | some s => .next s
  | none =>
  if (s.core c).fillCycle = some s.cycle then .next (s.postAt (s.cycle + 1) 0 (.fillArrival f))
  else
    let s := s.modCore c (fun k => { k with fillCycle := some s.cycle })
    let s := s.raiseTime c f.time
    let ack (s : State) : State := s.sendAt 2 (cluOf c) (cluOf f.sender.core) (s.cycle + s.oneWay c f.sender.core) 0 (.fillAcknowledgement f.sender f.id)
    if c ≠ f.sender.core ∧ !s.admitsCtx c f.ctx then .next (ack (s.drop c 1))
    else
      let s := if s.matches_ f.target && !(s.slot c f.target.slot).isSaved && (s.slot c f.target.slot).regs.tag f.dst == .opened then
          let put (sl : Slot) : Slot := { sl with regs := sl.regs.put f.dst (if f.bad.isSome then f.val.setWidth 512 else fillValue f.dst f.val) (f.bad.map poisonMark) }
          let s := s.modSlot c f.target.slot put
          (match s.shadow? c with
            | some d => (s.modSlot d f.target.slot put).modCopies c f.target.slot put
            | none => s)
        else s.drop c 1
      .next (ack s)

/-- A fill's acknowledgement ends it at its sender (R137). -/
def execFillAcknowledgement (t : ThreadRef) (id : Nat) (s : State) : Result := .next ((s.finish t id))

/-! ### Limits and interrupts -/

/-- The register that cr.tinf of a tag cause names (R233). -/
def infoReg (w : Word) : Option RegName := regOf (wordBits w 6 5) (wordBits w 4 0)

/-- A thread parked on an Open register reaches its limit (R10). A register that this cycle's fill made Full counts as earlier (R241): the judgement then waits until the slot has been examined again. -/
def execOpenWaitLimit (t : ThreadRef) (s : State) : Result :=
  let sl := s.slot t.core t.slot
  match sl.openSince with
  | none => .next s
  | some (since, info) =>
    if !s.matches_ t ∨ sl.occ ≠ .thread ∨ sl.st.role = .follower ∨ s.cycle < since + max 1 sl.wlim.toNat then .next s
    else if s.phase = 0 ∧ (infoReg info).any (fun r => sl.regs.tag r != .opened) then .next (s.post (4 * s.cycle + 2) 0 (.openWaitLimit t))
    else .next ((s.deliver t.core t.slot sl.pc { cause := 0x022, tval := 0, tinf := info }).clearWaits t.core t.slot)

/-- Waits of R229 that an interrupt or a stop ends at once, the instruction without effect. -/
def Block.interruptible (b : Block) : Bool :=
  match b.kind with
  | .wait _ => true
  | .barWait _ _ => true
  | .receive => true
  | .engine => true
  | .syncWait _ _ _ => true
  | .tagLocal _ _ => true
  | .message _ refused => refused
  | .context _ _ refused => refused
  | _ => false

/-- What is withdrawn when such a wait is given up: a local tagged entry; a `bar` that has arrived keeps its arrival (R229). -/
def State.withdraw (s : State) (t : ThreadRef) (b : Block) : State :=
  match b.kind with
  | .tagLocal _ _ =>
    (s.pairOf t.core).foldl (fun s c => s.modCore c (fun k => { k with tagWait := k.tagWait.filter (fun x => !(x.local_ && x.thread.slot == t.slot)) })) s
  | .barWait r _ =>
    match b.cur.instr with
    | .bar _ _ _ => s.modSlot t.core t.slot (fun sl => { sl with bars := sl.bars.map (fun x => if x.bar = r then { x with stands := true } else x) })
    | _ => s
  | .context _ _ _ => s.modCore t.core (fun k => { k with flying := k.flying - 1 })
  | _ => s

/-- A thread in a remote tagged operation asks the target for a cancel (R229). -/
def State.askCancel (s : State) (t : ThreadRef) (b : Block) : State :=
  match s.agenda.findSome? (fun p => match p.ev with
    | .remoteRequestArrival r => if r.id = b.id ∧ r.thread = t then some r.target else none
    | _ => none) with
  | some c => s.sendAt 3 (cluOf t.core) (cluOf c) (s.cycle + s.oneWay t.core c) (senderRank t.core t.slot) (.taggedBudgetExpiry c b.id)
  | none =>
    match s.cores.find? (fun (_, k) => k.fifo.any (fun r => r.id = b.id) || k.tagWait.any (fun x => x.id = b.id)) with
    | some (c, _) => s.sendAt 3 (cluOf t.core) (cluOf c) (s.cycle + s.oneWay t.core c) (senderRank t.core t.slot) (.taggedBudgetExpiry c b.id)
    | none => s

/-- A pending, enabled interrupt is taken: before the thread's next bundle, or out of a wait that R229 lets it end; a remote tagged operation is asked to cancel (R228, R229). -/
def execInterruptTaken (t : ThreadRef) (s : State) : Result :=
  let sl := s.slot t.core t.slot
  if !s.matches_ t then .next s
  else match sl.block with
    | none =>
      if s.eligible t.core t.slot then
        .next ((((s.freeFollowers t.core t.slot).takeInterrupt t.core t.slot sl.pc).map (fun x => x.clearWaits t.core t.slot)).getD s)
      else .next s
    | some b =>
      match s.takeInterrupt t.core t.slot b.cur.pc with
      | none => .next s
      | some _ =>
        if b.interruptible then .next (((s.withdraw t b).takeInterrupt t.core t.slot b.cur.pc).getD s)
        else match b.kind with
          | .tagRemote _ => .next (s.askCancel t b)
          | _ => .next s

/-- An interrupt reaches the slot that a migrated thread has been accepted into: while its installation lasts it stands beside it (R229). -/
def State.raiseMoved (s : State) (n : ThreadRef) (x : PendInt) : State :=
  if (s.slot n.core n.slot).occ = .reserved then
    s.modCore n.core (fun k => { k with installs := k.installs.map (fun y =>
      if y.slot = n.slot then { y with ctx := { y.ctx with ints := y.ctx.ints ++ [(x.code, x.info)] } } else y) })
  else if s.matches_ n then
    (s.modSlot n.core n.slot (fun sl => { sl with ints := sl.ints ++ [x] })).post s.now 0 (.interruptTaken n)
  else s

/-- An interrupt is directed at a thread: it is held until it can be taken; it follows a thread that has moved; a saved slot takes none (R228, R229, R352). -/
def State.raiseInt (s : State) (t : ThreadRef) (code : Nat) (info : Word) : State :=
  match (if s.matches_ t then (s.slot t.core t.slot).movedTo else none) with
  | some n => s.raiseMoved n { code := code, info := info }
  | none =>
  if s.matches_ t && (s.slot t.core t.slot).occ == .thread && !(s.slot t.core t.slot).isSaved then
    let s := s.modSlot t.core t.slot (fun sl => { sl with ints := sl.ints ++ [{ code := code, info := info }] })
    s.post s.now 0 (.interruptTaken t)
  else s

/-! ### Gangs -/

/-- A follower executes the leader's bundle in its reserved cycle (R236): the cycle is reserved on its core, whose issue executes it. -/
def execGangFollowerIssue (f : FollowMsg) (s : State) : Result :=
  let s := s.modCore f.thread.core (fun k => { k with reservedCycle := some s.cycle })
  .next { s with forced := s.forced ++ [f] }

/-- TVEC, SVEC and SDELEG of a slot's launch: doublewords 3, 13 and 14 of its record (R143, R315); a slot without a live launch keeps its own. -/
def State.launchVectors (s : State) (sl : Slot) : Word × Word × BitVec 12 :=
  match s.launch? sl.launch with
  | some l => (alignDouble (l.record.getD 3 0), alignDouble (l.record.getD 13 0), (l.record.getD 14 0).setWidth 12)
  | none => (sl.tvec, sl.svec, sl.sdeleg)

/-- A follower's registers: the leader's Full g and m registers, every other Void (R213); a mark is not copied, and its register's value comes without it (R219, log 73). -/
def Regs.forFollower (r : Regs) : Regs :=
  let keep {w : Nat} (x : Reg w) : Reg w := if x.tag = .full then { x with mark := none } else Reg.init
  { g := r.g.map keep, v := Vector.replicate 16 Reg.init, m := r.m.map keep }

/-- Follower k of a leader starts in a slot (R213). -/
def State.startFollower (s : State) (leader : ThreadRef) (k : Nat) (c : CoreKey) : State :=
  let l := s.slot leader.core leader.slot
  let (tv, sv, sd) := s.launchVectors l
  let s := s.raiseTime c (s.core leader.core).time
  let s := s.modCore c (fun x => x.takeCtx l.ctx)
  s.modSlot c leader.slot (fun old => { Slot.init with
    occ := .thread, gen := (old.gen + 1) % 65536, idx := l.idx, launch := l.launch, ctx := l.ctx, pc := l.pc, byBranch := false
    regs := l.regs.forFollower
    st := { l.st with role := .follower, gidx := ⟨k % 4, Nat.mod_lt _ (by decide)⟩, tx := false, intrap := false }
    mfmt := l.mfmt, ascl := l.ascl, kval := l.kval, mstat := l.mstat, fcsr := l.fcsr, wlim := l.wlim, mlim := l.mlim
    snap := l.snap, tvec := tv, svec := sv, sdeleg := sd, gang := [leader], readyAt := s.cycle + k + 1 })

/-- Core (q + k) mod 4 of the quad of a core. -/
def quadCore (c : CoreKey) (k : Nat) : CoreKey := c / 4 * 4 + (c % 4 + k) % 4

/-- The slot of the thread in the latch may be taken on a core: free, and of the launch's placement (R212). -/
def State.gangSlot (s : State) (c : CoreKey) : Bool :=
  (s.slot c s.cur.slot).occ == .free && (match s.launch? s.me.launch with
    | some l => l.cores.contains c
    | none => false)

/-- The launch of the thread in the latch is mirrored: MIRR, bit 3 of doubleword 2 of its record (R239, R315). -/
def State.mirroredLaunch (s : State) : Bool := (s.launch? s.me.launch).any (fun l => (l.record.getD 2 0).getLsbD 3)

/-- gang: the release waits, then the result code; on success n followers (R212, R239). -/
def execGang (d a : Fin 32) (s : State) : Result :=
  if s.mustRelease then .next ((s.wantCheckpoint s.cur.core).wait .release)
  else
    let n := (s.gval a).toNat
    let cores := (List.range n).map (fun k => quadCore s.cur.core (k + 1))
    if n = 0 ∨ 3 < n then .next (s.putG d 2)
    else if s.me.st.role ≠ .independent then .next (s.putG d 3)
    else if s.mirroredLaunch || !cores.all s.gangSlot then .next (s.putG d 1)
    else
      let s := s.putG d 0
      let t := s.meRef
      let s := (numbered cores).foldl (fun s (k, c) => s.startFollower t (k + 1) c) s
      let s := s.modLaunch s.me.launch (fun l => { l with alive := l.alive + n })
      .next (s.modMe (fun sl => { sl with
        gang := cores.map (fun c => s.refOf c s.cur.slot), readyAt := max sl.readyAt (s.cycle + 16)
        st := { sl.st with role := .leader, gidx := 0 } }))

/-- split: the member that executes it is independent; a no-op elsewhere (R214). -/
def execSplit (s : State) : Result := .next (s.modMe Slot.alone)

/-! ### Retirement (R97, R246) -/

/-- Commands of a thread in its core's engines. -/
def Core.engineBusy (k : Core) (t : ThreadRef) : Bool :=
  k.copy.cmds.any (fun c => c.thread = t) || k.tile.queue.any (fun c => c.thread = t)
    || (match k.tile.run with
      | some r => decide (r.cmd.thread = t)
      | none => false) || k.tile.drains.any (fun c => c.thread = t)

/-- Accumulators that a slot owns. -/
def Core.owned (k : Core) (i : Nat) : List (Fin 4) :=
  (List.finRange 4).filter (fun a => match k.accOwn[a] with
    | some o => o.val = i
    | none => false)

/-- A release step queued in the tile unit (R186). -/
def releaseCmd (id : Nat) (t : ThreadRef) (a : Fin 4) (cycle : Nat) : TileCmd :=
  { id := id, thread := t, op := .release, acc := a, issue := cycle, fmt := .tap8, kv := 0, aOff := 0, aScale := [], bad := none, handle := 0
    ctx := 0, sup := false, launch := 0, join := 0 }

/-- The tile unit is asked to look for a command to start after issue in the cycle s of R187. -/
def State.wakeTile (s : State) (c : CoreKey) : State :=
  match (s.core c).tile.queue with
  | [] => s
  | q :: _ => s.post (4 * max s.cycle (max (q.issue + 8) ((s.core c).tile.lastEnd + 1)) + 2) 0 (.tileCommandStart c)

/-- Release steps of the accumulators that a retiring thread owns enter the queue as it has room. -/
def State.queueReleases (s : State) (t : ThreadRef) : State :=
  let k := s.core t.core
  match (k.owned t.slot).find? (fun a => !(k.tile.queue.any (fun c => c.acc = a) || (match k.tile.run with
    | some r => decide (r.cmd.acc = a)
    | none => false))) with
  | none => s
  | some a =>
    if 2 ≤ k.tile.queue.length then s
    else
      let (id, s) := s.takeFresh
      (s.modCore t.core (fun k => { k with tile := { k.tile with queue := k.tile.queue ++ [releaseCmd id t a s.cycle] } })).wakeTile t.core

/-- A copy command ends in a cycle: its locks are released (R194), its thread may notice from the next cycle on (R240). -/
def Core.endCmd (k : Core) (cmd cycle : Nat) : Core :=
  let k := match k.copy.cmds.find? (fun c => c.id = cmd) with
    | some c => k.modSlot c.thread.slot (fun sl => if sl.gen = c.thread.gen then { sl with copyEnd := cycle + 1 } else sl)
    | none => k
  { k with copy := { k.copy with cmds := k.copy.cmds.filter (fun c => c.id != cmd), port := k.copy.port.filter (fun e => e.1 != cmd) }
           locks := k.locks.filter (fun l => l.owner != cmd) }

/-- A stopped copy command of a thread is cancelled and the queue goes on; of one whose elements before the fault are still under way, they are written first, being final (R203, R204). -/
def State.cancelStopped (s : State) (t : ThreadRef) : State :=
  let k := s.core t.core
  match k.copy.cmds.find? (fun c => c.thread = t && c.stopped.isSome) with
  | none => s
  | some cmd =>
    let s := s.modCore t.core (fun k =>
      if cmd.blocks.isEmpty || cmd.unchecked then k.endCmd cmd.id s.cycle
      else { k with copy := { k.copy with cmds := k.copy.cmds.map (fun c => if c.id = cmd.id then { c with stopped := none, next := 2 ^ 64 } else c) } })
    s.post (4 * s.cycle + 2) 0 (.copyCommandStart t.core)

/-- The barriers of a launch are judged again. -/
def State.judgeBarriers (s : State) (launch : Nat) : State :=
  (s.barriers.filter (fun b => b.bar.launch = launch)).foldl (fun s b => s.post s.now 0 (.barrierPhaseCompletion b.bar)) s

/-- One thread fewer of a launch; its end is judged when none is left (R331). -/
def State.loseThread (s : State) (launch : Nat) (place : Option CoreKey) (idx : Nat) : State :=
  let s := s.modLaunch launch (fun l => { l with
    alive := l.alive - 1
    retired := match place with
      | some p => (p, idx) :: l.retired
      | none => l.retired })
  let s := s.judgeBarriers launch
  if (s.launch? launch).any (fun l => l.alive = 0) then s.post s.now 0 (.launchCompletion launch) else s

/-- Every reservation of a thread breaks (R123). -/
def State.breakReservation (s : State) (t : ThreadRef) : State :=
  { s with clusters := s.clusters.map (fun (c, k) => (c, { k with resv := k.resv.filter (fun r => r.thread != t) })) }

/-- What the thread held is released (R97). -/
def State.releaseHeld (s : State) (t : ThreadRef) : State :=
  let n := (s.slot t.core t.slot).drainRecs.length
  let s := s.endTx t
  let s := s.releaseSnapshot t
  let s := s.breakReservation t
  let s := if n = 0 then s else s.drop t.core n
  s.modPair t.core t.slot (fun sl => { sl.disarm with drainRecs := [] })

/-- The scrub of a slot begins in the next cycle (R246). -/
def State.scrub (s : State) (t : ThreadRef) : State :=
  let s := s.modPair t.core t.slot (fun sl => { sl with occ := .scrubbing, block := none, ints := [], gang := [] })
  s.postAt (s.cycle + 33) 0 (.slotScrub t)

/-- A retiring thread: its operations drain, what it holds is released, its scrub begins (R97, R246); judged each cycle until its drain has ended. -/
def execThreadRetirement (t : ThreadRef) (s : State) : Result :=
  let sl := s.slot t.core t.slot
  if !s.matches_ t ∨ sl.occ ≠ .draining then .next s
  else
    let s := s.cancelStopped t
    let k := s.core t.core
    let again (s : State) : Result := .next (s.post (4 * (s.cycle + 1) + 2) 0 (.threadRetirement t))
    if !(s.slot t.core t.slot).out.isEmpty || k.engineBusy t then again (s.wantCheckpoint t.core)
    else if !(k.owned t.slot).isEmpty then again (s.queueReleases t)
    else
      let s := (s.releaseHeld t).scrub t
      .next (s.loseThread sl.launch sl.place sl.idx)

/-- A slot of a core has become free: a round that its die held back begins anew (R417). -/
def State.slotFreed (s : State) (c : CoreKey) : State := s.restartRounds (fun r => r.notReady.contains (dieOf c))

/-- The scrub has ended: the slot is free with every register at reset, its generation kept; a waiting context may take it (R246, R242). -/
def execSlotScrub (t : ThreadRef) (s : State) : Result :=
  let sl := s.slot t.core t.slot
  if sl.occ = .scrubbing ∧ sl.gen = t.gen then
    .next ((s.modPair t.core t.slot (fun sl => { Slot.init with gen := sl.gen })).slotFreed t.core |>.post s.now 1 (.contextInstallation t.core))
  else .next s

/-! ### Contexts that arrive (R242–R245, R341) -/

/-- The lowest free slot of a core (R242). -/
def Core.freeSlot (k : Core) : Option Nat := (List.range 16).find? (fun i => (k.slot i).occ = .free)

/-- The registers of an arriving context: g1–g8 Full, every other Void (R145). -/
def Regs.ofContext (args : List Word) (marks : List (Option Mark)) : Regs :=
  (List.finRange 32).foldl (fun r i =>
    if 1 ≤ i.val ∧ i.val ≤ 8 then r.setG i { val := args.getD (i.val - 1) 0, tag := .full, mark := (marks.getD (i.val - 1) none) } else r) Regs.init

/-- What follows a migrating thread into its new slot: the interrupts that wait for it, from now on those directed at it, and its snapshot's entry (R148, R229, R364). -/
def State.follow (s : State) (c : CoreKey) (i : Nat) (m : CtxMsg) : CtxMsg × State :=
  if m.spawn || (s.waiting? m.sender m.id).isNone then (m, s)
  else
    let t := m.sender
    let n := s.refOf c i
    let ints := (s.slot t.core t.slot).ints.map (fun x => (x.code, x.info))
    let s := s.modSlot t.core t.slot (fun sl => { sl with ints := [], movedTo := some n })
    ({ m with ints := m.ints ++ ints },
      { s with pkgs := s.pkgs.map (fun (p, k) => (p, { k with registry := k.registry.map (fun e => if e.owner = .thread t then { e with owner := .thread n } else e) })) })

/-- Installation of a context into a slot begins: the generation advances (R243). -/
def State.beginInstall (s : State) (c : CoreKey) (i : Nat) (m : CtxMsg) : State :=
  let s := s.modPair c i (fun sl => { Slot.init with gen := (sl.gen + 1) % 65536, occ := .reserved })
  let (m, s) := s.follow c i m
  let s := s.modCore c (fun k => { k with installs := k.installs ++ [{ slot := i, ctx := m, start := s.cycle }] })
  s.postAt (s.cycle + 3) 1 (.contextInstallation c)

/-- An installation ends: the thread is ready, its bundle checked as one that arrived by branch; a pre-emption of its context reaches it too (R55, R143–R145, R243, R350). -/
def State.endInstall (s : State) (c : CoreKey) (x : Install) : State :=
  let m := x.ctx
  let (tv, sv, sd) := s.launchVectors { Slot.init with launch := m.launch }
  let snap := s.launchSnap m.launch
  let preempt : List PendInt := if s.saving c m.ctx ∧ !m.ints.any (fun x => x.1 = 0x1E2) then [{ code := 0x1E2, info := BitVec.ofNat 64 m.ctx }] else []
  let s := s.modPair c x.slot (fun sl => { sl with
    occ := .thread, idx := m.idx, launch := m.launch, ctx := m.ctx, place := m.place, pc := m.pc, byBranch := true
    regs := Regs.ofContext m.args m.marks, st := { Status.init with mir := (s.primaryOf c).isSome }
    fcsr := fcsrOf Fcsr.init m.statusDw, wlim := (m.statusDw >>> 32).setWidth 32
    tvec := tv, svec := sv, sdeleg := sd, snap := snap, readyAt := s.cycle
    ints := m.ints.map (fun (a, b) => { code := a, info := b }) ++ preempt
    stopping := (s.launch? m.launch).any (fun l => l.aborted.isSome) })
  let s := s.modCopies c x.slot (fun _ => s.slot c x.slot)
  s.modCore c (fun k => { k with installs := k.installs.erase x })

/-- The head of the spill area may move into the queue (R242, R243). -/
def State.startSpillMove (s : State) (c : CoreKey) : State :=
  let k := s.core c
  if k.spillCnt ≠ 0 ∧ k.spillMove.isNone ∧ k.arrivals.length < 16 then
    (s.modCore c (fun k => { k with spillMove := some [], spillMarks := [] })).post (4 * s.cycle + 2) 0 (.spillMove c 0)
  else s

/-- Installations that have run 3 cycles end; then, after the gangs that issue in the cycle, the head of the queue is installed into a free slot, and the spill area's head may move (R242, R243). -/
def execContextInstallation (core : CoreKey) (s : State) : Result :=
  let s := ((s.core core).installs.filter (fun x => x.start + 3 ≤ s.cycle)).foldl (fun s x => s.endInstall core x) s
  if s.phase < 2 then .next (s.post (4 * s.cycle + 2) 1 (.contextInstallation core))
  else
  let k := s.core core
  match k.arrivals, k.freeSlot with
  | m :: rest, some i =>
    if k.installs.any (fun x => x.start = s.cycle) then .next (s.postAt (s.cycle + 1) 1 (.contextInstallation core))
    else
      let s := s.modCore core (fun k => { k with arrivals := rest })
      let s := (s.beginInstall core i m).startSpillMove core
      .next (s.postAt (s.cycle + 1) 1 (.contextInstallation core))
  | _, _ => .next (s.startSpillMove core)

/-- Where entry i of the spill ring lies (R245). -/
def Core.spillAt (k : Core) (i : Nat) : Nat := k.spillBase.toNat * 128 + (i % max 1 k.spillCap.toNat) * 128

/-- Marks that a context carries go into its entry as poison of the words that hold its registers (R219, R245, log 66). -/
def State.spillPoison (s : State) (c : CoreKey) (off : Nat) (m : CtxMsg) : State :=
  (numbered m.marks).foldl (fun s (i, x) => match x with
    | some y => (s.pairOf c).foldl (fun s d => s.spadPoisonAt d (off + 16 + 8 * i) 8 y.info.toNat) s
    | none => s) s

/-- The 128 bytes of a spill entry (R245). -/
def State.spillBytes (s : State) (m : CtxMsg) : List Byte :=
  wordBytes m.pc ++ wordBytes m.statusDw ++ m.args.flatMap wordBytes
    ++ natBytes 3 m.idx ++ natBytes 5 0 ++ natBytes 8 (m.launch % 2 ^ 32 + m.ctx * 2 ^ 32)
    ++ natBytes 8 (s.tidOf m.sender.core m.sender.slot m.sender.gen 0) ++ natBytes 24 0

/-- The context that 128 bytes give; what the entry does not hold comes from what the core keeps beside it (R245). -/
def contextOf (m : CtxMsg) (bs : List Byte) (marks : List (Nat × Nat)) : CtxMsg :=
  let dw (i : Nat) : Word := BitVec.ofNat 64 (bytesNat ((bs.drop (8 * i)).take 8))
  { m with
    pc := dw 0, statusDw := dw 1, args := (List.range 8).map (fun i => dw (2 + i))
    marks := (List.range 8).map (fun i => (getKey marks (2 + i)).map poisonMark)
    idx := bytesNat ((bs.drop 80).take 3), launch := m.launch / 2 ^ 32 * 2 ^ 32 + wordBits (dw 11) 31 0, ctx := wordBits (dw 11) 47 32 }

/-- Part k of a move reads 32 bytes after the slots' accesses of its cycle; the fourth ends the move (R243). -/
def execSpillMove (core : CoreKey) (part : Nat) (s : State) : Result :=
  let k := s.core core
  match k.spillMove with
  | none => .next s
  | some got =>
    let off := k.spillAt k.spillHead + 32 * part
    let got := got ++ k.spadRead off 32
    let marks := k.spillMarks ++ (List.range 4).filterMap (fun j => (k.spadPoisonIn (off + 8 * j) 8).map (fun src => (4 * part + j, src)))
    if part < 3 then
      .next ((s.modCore core (fun k => { k with spillMove := some got, spillMarks := marks })).post (4 * (s.cycle + 1) + 2) 0 (.spillMove core (part + 1)))
    else
      match k.spilled with
      | [] => .next (s.modCore core (fun k => { k with spillMove := none }))
      | m :: rest =>
        let s := s.modCore core (fun k => { k with
          spillMove := none, spillMarks := [], spilled := rest, spillCnt := k.spillCnt - 1
          spillHead := (k.spillHead + 1) % max 1 k.spillCap.toNat, arrivals := k.arrivals ++ [contextOf m got marks] })
        .next (s.postAt (s.cycle + 1) 1 (.contextInstallation core))

/-- The answer to a context travels back to its sender (R143). -/
def State.answerContext (s : State) (m : CtxMsg) (a : CtxAnswer) : State :=
  s.sendAt 2 (cluOf m.target) (cluOf m.sender.core) (s.cycle + s.oneWay m.target m.sender.core) (senderRank m.target 16) (.contextReply m a)

/-- A context placed on a core: times and ownership (R267, R341); a spawned thread counts for its launch. -/
def State.placed (s : State) (m : CtxMsg) : State :=
  let s := s.raiseTime m.target m.time
  let s := s.modCore m.target (fun k => k.takeCtx m.ctx)
  if m.spawn then s.modLaunch m.launch (fun l => { l with alive := l.alive + 1 }) else s

/-- Placement of an arrival whose context the core admits (R242). -/
def State.placeContext (s : State) (m : CtxMsg) : State :=
  let c := m.target
  let k := s.core c
  match k.arrivals.isEmpty && k.spillCnt == 0, k.freeSlot with
  | true, some i =>
    let s := (s.placed m).beginInstall c i m
    s.answerContext m (.slot (s.refOf c i))
  | _, _ =>
    if k.arrivals.length < 16 ∧ k.spillCnt = 0 then
      ((s.placed m).modCore c (fun k => { k with arrivals := k.arrivals ++ [m] })).answerContext m .queued
    else if 16 ≤ k.arrivals.length ∧ k.spillCnt < k.spillCap.toNat then
      let s := s.placed m
      let at_ := k.spillAt (k.spillHead + k.spillCnt)
      let s := (s.spadDeliver c at_ (s.spillBytes m) none).spillPoison c at_ m
      (s.modCore c (fun k => { k with spillCnt := k.spillCnt + 1, spilled := k.spilled ++ [m] })).answerContext m .queued
    else s.answerContext m .refused

/-- The cluster of a core is in a load window of another launch, or an admission holds the core (R341). -/
def State.heldFor (s : State) (c : CoreKey) (launch : Nat) : Bool :=
  (s.core c).hasReserved || (match (s.clu (cluOf c)).window with
    | some l => l != launch
    | none => false)

/-- A core whose record has been written, or that is being restored, takes no context (DESIGN CHOICE, log 54). -/
def State.coreSaved (s : State) (c : CoreKey) : Bool :=
  (s.pkg (pkgOf c)).preempt.any (fun x => x.clusters.contains (cluOf c) && !x.coresLeft.contains c)

/-- A context arrives, after the gangs that issue in the cycle: dropped when its launch is aborted (R334), refused or placed by the core's context and room (R242, R341). -/
def execContextArrival (c : CtxMsg) (s : State) : Result :=
  let core := c.target
  if s.phase < 2 then .next (s.post (4 * s.cycle + 2) (senderRank c.sender.core c.sender.slot) (.contextArrival c))
  else match s.inboundGate core (.contextArrival c) with
  | some s => .next s
  | none =>
  let k := s.core core
  if (s.launch? c.launch).any (fun l => l.aborted.isSome) then .next ((s.drop core 1).answerContext c .dropped)
  else if s.coreSaved core then .next (s.answerContext c .refused)
  else if k.ctxLast = c.ctx ∧ k.scrubUntil.isNone then .next (s.placeContext c)
  else if k.live || k.scrubUntil.isSome || s.heldFor core c.launch then .next (s.answerContext c .refused)
  else
    let s := s.modCore core (fun k => { k with scrubUntil := some (s.cycle + 4096) })
    .next ((s.answerContext c .refused).postAt (s.cycle + 4096) 0 (.contextSwitchScrub core c.ctx))

/-- A core's scratchpad scrubbed: every word 0, empty and clean (R116, R255, R336). -/
def Core.scrubSpad (k : Core) : Core := { k with spad := [], full := [], spadPoison := [] }

/-- EN of cr.mbox is cleared: queued messages are dropped and counted, and the freed entries are noticed to the senders that wait (R138, R140, R341). -/
def State.closeMailboxes (s : State) (c : CoreKey) : State :=
  let gone := (s.core c).rings
  let s := s.modCore c (fun k => { k with mboxEn := false, rings := [], ringTail := Vector.replicate 8 0 })
  let s := if gone.isEmpty then s else s.drop c gone.length
  gone.foldl (fun s m => s.noticeWaiter c m.ring) s

/-- The scrub for an arrival of another context ends: the core takes that context (R341). -/
def execContextSwitchScrub (core : CoreKey) (ctx : Nat) (s : State) : Result :=
  .next ((s.modCore core (fun k => { k.scrubSpad with scrubUntil := none, ctxLast := ctx, spillCap := 0 })).closeMailboxes core)

/-- A sender that waits is stopped with its launch: it retires where it stands (R334). -/
def State.stopWaiting (s : State) (t : ThreadRef) : State := s.beginExit t.core t.slot

/-- The register of spawn or mig that named the target page. -/
def targetReg : Instr → Fin 32
  | .spawn _ a _ => a
  | .mig a => a
  | _ => 0

/-- The answer to a sent context reaches its thread (R143–R145, R229). -/
def execContextReply (c : CtxMsg) (answer : CtxAnswer) (s : State) : Result :=
  let t := c.sender
  match s.waiting? t c.id with
  | none => .next s
  | some b =>
    match b.kind with
    | .context _ d _ =>
      let done (s : State) : State := s.modCore t.core (fun k => { k with flying := k.flying - 1 })
      let moved (s : State) (where_ : CtxAnswer) : State :=
        let ints := (s.slot t.core t.slot).ints
        let s := ((s.breakReservation t).modSlot t.core t.slot Slot.disarm).scrub t
        (match where_ with
          | .slot n => ints.foldl (fun s x => s.raiseMoved n x) s
          | _ => s.modCore c.target (fun k =>
            let give (m : CtxMsg) : CtxMsg := if m.sender = t ∧ m.id = c.id then { m with ints := m.ints ++ ints.map (fun x => (x.code, x.info)) } else m
            { k with arrivals := k.arrivals.map give, spilled := k.spilled.map give, installs := k.installs.map (fun x => { x with ctx := give x.ctx }) }))
      (match answer with
        | .slot n =>
          if c.spawn then
            .next (((done s).endWait t (fun sl => { sl.putG d (BitVec.ofNat 64 (s.tidOf n.core n.slot n.gen 0)) with readyAt := max sl.readyAt (s.cycle + 1) })))
          else .next (moved (done s) answer)
        | .queued =>
          if c.spawn then
            .next (((done s).endWait t (fun sl => { sl.putG d (BitVec.ofNat 64 (s.tidOf c.target 0 0 0 + 1)) with readyAt := max sl.readyAt (s.cycle + 1) })))
          else .next (moved (done s) answer)
        | .dropped => .next ((done s).stopWaiting t)
        | .refused =>
          if (s.slot t.core t.slot).stopping then .next ((done s).stopWaiting t)
          else match s.takeInterrupt t.core t.slot b.cur.pc with
            | some s => .next (done s)
            | none =>
              if b.since + (s.slot t.core t.slot).wlim.toNat ≤ s.cycle then
                .next ((done s).trapWaiting t b { cause := 0x127, tval := (b.cur.regs.getG (targetReg b.cur.instr)).val, tinf := 0 })
              else
                let s := s.modSlot t.core t.slot (fun sl => { sl with block := some { b with kind := .context c d true } })
                .next (s.postAt (s.cycle + 256) (senderRank t.core t.slot) (.refusalResend (.context c))))
    | _ => .next s

/-- A spawn or migration still refused at its limit traps (R143). -/
def execMigrationWaitLimit (t : ThreadRef) (id : Nat) (s : State) : Result :=
  match s.waiting? t id with
  | none => .next s
  | some b =>
    match b.kind with
    | .context _ _ true =>
      let s := s.modCore t.core (fun k => { k with flying := k.flying - 1 })
      .next (s.trapWaiting t b { cause := 0x127, tval := (b.cur.regs.getG (targetReg b.cur.instr)).val, tinf := 0 })
    | _ => .next s

/-! ### The tick (R258) -/

/-- cr.time of every core of a package rises by 1. -/
def execTimeTick (pkg : PkgKey) (s : State) : Result :=
  .next { s with
    cores := s.cores.map (fun (c, k) => (c, if pkgOf c = pkg then { k with time := k.time + 1 } else k))
    ticks := setKey s.ticks pkg ((getKey s.ticks pkg).getD 0 + 1) }

end Sys2Proof.Machine
end

