-- ==== Sys2Proof/Machine/HomeEvents.lean ====
section
/-! DEFINITION. Events at caches and homes: the cluster cache (R256), channels and controller groups (R252, R257, R416), loads (R109, R149, R278, R279), stores (R110), the atomic unit (R121–R124), slice-ordered merges (R125, R126), acknowledgements (R268), instruction lines (R259, R276) and page walks (R342–R347). -/

namespace Sys2Proof.Machine

open Sys2Proof

/-! ### Agents of an access -/

/-- A copy command of a core. -/
def Core.copyCmd? (k : Core) (cmd : Nat) : Option CopyCmd := k.copy.cmds.find? (fun c => c.id = cmd)

/-- The state with a copy command changed. -/
def State.modCmd (s : State) (c : CoreKey) (cmd : Nat) (f : CopyCmd → CopyCmd) : State :=
  s.modCore c (fun k => { k with copy := { k.copy with cmds := k.copy.cmds.map (fun x => if x.id = cmd then f x else x) } })

/-- The state with one block of a copy command changed. -/
def State.modBlock (s : State) (c : CoreKey) (cmd block : Nat) (f : CopyBlock → CopyBlock) : State :=
  s.modCmd c cmd (fun x => { x with blocks := x.blocks.map (fun b => if b.num = block then f b else b) })

/-- A block of a copy command. -/
def State.block? (s : State) (c : CoreKey) (cmd block : Nat) : Option CopyBlock :=
  ((s.core c).copyCmd? cmd).bind (fun x => x.blocks.find? (fun b => b.num = block))

/-- The poison that a store carries: met on its way, or that of a copied block (R379, R391). -/
def State.carriedPoison (s : State) (a : Access) : Option Nat :=
  match a.agent with
  | .engine c cmd b => a.bad.or ((s.block? c cmd b).bind CopyBlock.poison)
  | _ => a.bad

/-- A port of a rook. -/
def Rook.port (r : Rook) (p : Nat) : MemPort := (r.ports[p]?).getD MemPort.init

/-- The packet that an access of a memory port belongs to. -/
def Rook.packetOf (r : Rook) (p seq : Nat) : Option Packet :=
  ((r.port p).busy.find? (fun e => e.seq = seq)).bind (fun e => e.pkt.bind (fun n => r.packets.find? (fun q => q.num = n)))

/-- A fault precedes the recorded one: by cycle, then by port (R192, R302). -/
def faultFirst (old : Option FaultRec) (oldAt : Nat × Nat) (cycle port : Nat) : Bool :=
  old.isNone || cycle < oldAt.1 || (cycle = oldAt.1 && port < oldAt.2)

/-- A drain records a fault of one of its accesses (R192). -/
def DrainRun.fail (d : DrainRun) (f : FaultRec) (cycle port : Nat) : DrainRun :=
  if faultFirst d.fault d.faultAt cycle port then { d with fault := some f, faultAt := (cycle, port) } else d

/-- An element of the bias vector arrives in a cycle; with the last one the first unit cycle is known (R305). -/
def DrainRun.takeBias (d : DrainRun) (j : Nat) (x : BitVec 32) (wts cycle : Nat) (bad : Option FaultRec) : DrainRun :=
  let d := { d with
    bias := d.bias.set j x, biasLeft := d.biasLeft - 1, biasBad := d.biasBad || bad.isSome
    times := d.times.modify 0 (max wts)
    planned := max d.planned cycle
    first := if d.biasLeft ≤ 1 then some (max d.planned cycle) else none }
  (bad.map (fun f => d.fail f cycle 0)).getD d

/-- The state with a drain of a rook changed. -/
def State.modDrain (s : State) (r : RookKey) (d : Nat) (f : DrainRun → DrainRun) : State :=
  s.modRook r (fun k => { k with drains := k.drains.map (fun x => if x.num = d then f x else x) })

/-- A rook may have become idle: the first request that waits is looked at again (R301). -/
def State.rookFreed (s : State) (clu : ClusterKey) : State :=
  match (s.clu clu).rookWait with
  | [] => s
  | .call c :: _ => s.post s.now 0 (.configurationLoad clu c.ctx c.fid)
  | .drain d :: _ => s.post s.now 0 (.configurationLoad clu d.ctx d.fid)

/-- A drain has ended once its last row is past and its stores are acknowledged: its completion token reaches the core 12 cycles later (R305). -/
def State.judgeDrain (s : State) (r : RookKey) (d : Nat) : State :=
  match (s.rook r).drains.find? (fun x => x.num = d) with
  | none => s
  | some x =>
    match x.ended with
    | none => s
    | some e =>
      if x.pend.isEmpty && x.out.isEmpty then
        let s := s.modRook r (fun k => { k with drains := k.drains.filter (fun y => y.num != d) })
        (s.post (4 * (max e s.cycle + 12) + 2) 0 (.drainCompletion x.msg x.fault)).rookFreed (r / 4)
      else s

/-- The launch on whose behalf an access is made; 0 for none. -/
def State.launchOf (s : State) (a : Agent) : Nat :=
  match a with
  | .thread t => (s.slot t.core t.slot).launch
  | .engine c cmd _ => (((s.core c).copyCmd? cmd).map CopyCmd.launch).getD 0
  | .port r p seq =>
    (match (s.rook r).packetOf p seq with
      | some q => (s.slot q.call.thread.core q.call.thread.slot).launch
      | none => ((s.rook r).reserved).getD 0)
  | .drain r d =>
    ((s.rook r).drains.find? (fun x => x.num = d)).elim 0 (fun x => (s.slot x.msg.thread.core x.msg.thread.slot).launch)
  | .launchUnit _ => 0
  | .host _ => 0

/-- The phase time of a launch covers a wts that one of its writes received (R331). -/
def State.notePhase (s : State) (a : Agent) (wts : Nat) : State :=
  s.modLaunch (s.launchOf a) (fun l => { l with phase := max l.phase wts })

/-! ### Turns at channels, groups and the atomic unit (R252, R257) -/

/-- The controller group of an LPDDR6 byte (R252). -/
def groupOf (pa : PhysAddr) : Nat := pa / 256 % 2

/-- The channel of a sector in its vault (R257). -/
def channelOf (pa : PhysAddr) : Nat := vaultOff pa / 64 % 37

/-- When a group of a die is free, in 1/64 cycles. -/
def Die.groupAt (d : Die) (g : Nat) : Nat := d.groupFree.getD g 0

/-- The spacing of an LPDDR6 group's accesses in 1/64 cycles: 64 in 20 ns (R257). -/
def State.groupPace (s : State) (d : DieKey) : Nat := s.nsCycles (d / 4) 200

/-- Whether refresh closes the group of an LPDDR6 byte now: a free value says so where R257 lets it (log 13). -/
def State.refreshDraw (s : State) (pa : PhysAddr) : Bool × State :=
  if inLpddr pa ∧ (s.die (dieOfPA pa)).groupShut.getD (groupOf pa) 0 ≤ s.cycle then
    (Config.refreshCloses s.free, { s with free := s.free + 1 })
  else (false, s)

/-- Turns for n neighbouring sectors, in their channels or in their controller group (R257): the cycle in which the last of them is taken, when all are read (log 129), and the state with what they reserve. -/
def State.channelTurn (s : State) (pa : PhysAddr) (n : Nat) : Nat × State :=
  if inLpddr pa then
    let d := dieOfPA pa
    let g := groupOf pa
    let start := max (64 * s.cycle) ((s.die d).groupAt g)
    ((start + (n - 1) * s.groupPace d) / 64, s.modDie d (fun x => { x with groupFree := x.groupFree.set g (start + n * s.groupPace d) }))
  else
    let v := vaultClu pa
    let chans := (List.range n).map (fun i => channelOf (pa + 64 * i))
    let start := chans.foldl (fun c x => max c ((getKey (s.clu v).chan x).getD 0)) s.cycle
    (start, s.modClu v (fun k => { k with chan := chans.foldl (fun l x => setKey l x (start + 2)) k.chan }))

/-- The first sector that an access takes a turn for, and how many: a fetch takes the four of its line (R259, R276). -/
def accessTurns (a : Access) : PhysAddr × Nat := if a.op = .fetch then (lineOf a.pa, 4) else (a.pa, 1)

/-- An access enters its channel's queue: performed now, or in the cycle of its turn, before what arrives then. A group that refresh closes is closed first. -/
def State.inTurn (s : State) (a : Access) (ev : Access → Instr) (perform : State → State) : State :=
  if a.queued then perform s
  else
    let (shut, s) := s.refreshDraw a.pa
    if shut then (s.post s.now 0 (.lpddr6Refresh (dieOfPA a.pa) (groupOf a.pa))).post s.now (agentRank a.agent) (ev a)
    else
      let (start, s) := s.channelTurn (accessTurns a).1 (accessTurns a).2
      if start ≤ s.cycle then perform s else s.postAt start 1 (ev { a with queued := true })

/-- The access comes again in the next cycle, before what arrives then: those that wait keep their order. -/
def State.again (s : State) (ev : Instr) : State := s.postAt (s.cycle + 1) 0 ev

/-- The line of an access stays in its home's atomic unit until a cycle (R121). -/
def State.holdLine (s : State) (a : Access) (until_ : Nat) : State :=
  s.modClu a.home (fun k => { k with atomLines := setKey (k.atomLines.filter (fun e => s.cycle < e.2)) (lineOf a.pa) until_ })

/-- The atomic unit of a home takes an access now: its turn of the cycle is free, its line is not held, and its sector is not locked (R121, R153). -/
def State.unitTakes (s : State) (a : Access) : Bool :=
  (s.clu a.home).atomFree ≤ s.cycle && ((getKey (s.clu a.home).atomLines (lineOf a.pa)).getD 0) ≤ s.cycle && (s.sector a.pa).lock.isNone

/-- An access of the atomic unit waits for the unit, then enters its channel's queue, where its one access is performed; the unit holds its line until the cycle after (R121, R257, R262; log 129). -/
def State.inUnit (s : State) (a : Access) (ev : Access → Instr) (perform : State → State) : State :=
  if a.queued then
    if (s.sector a.pa).lock.isSome then (s.holdLine a (s.cycle + 2)).again (ev a) else perform s
  else if !s.unitTakes a then s.again (ev a)
  else
    let (shut, s) := s.refreshDraw a.pa
    if shut then (s.post s.now 0 (.lpddr6Refresh (dieOfPA a.pa) (groupOf a.pa))).post s.now 0 (ev a)
    else
      let (start, s) := s.channelTurn a.pa 1
      let s := (s.modClu a.home (fun k => { k with atomFree := s.cycle + 1 })).holdLine a (start + 1)
      if start ≤ s.cycle then perform s else s.postAt start 1 (ev { a with queued := true })

/-- A controller group is closed by refresh, for at most 280 ns and at most once in 3.9 µs (R257): a part of a closing that has passed before an access noticed it counts. -/
def execLpddr6Refresh (die : DieKey) (group : Nat) (s : State) : Result :=
  let most := s.nsCycles (die / 4) 2800
  let len := min most (Config.refreshLength s.free)
  let next := s.cycle + s.nsCycles (die / 4) 39000 - (most - len)
  .next { s.modDie die (fun x => { x with
    groupFree := x.groupFree.set group (max (x.groupAt group) (64 * (s.cycle + len)))
    groupShut := x.groupShut.set group next }) with free := s.free + 1 }

/-- An access that meets a locked sector comes again in the next cycle (R153, R279). -/
def State.whenUnlocked (s : State) (a : Access) (ev : Access → Instr) : State := s.again (ev { a with queued := true })

/-! ### Loads -/

/-- A load's value, mark and wts go to the agent that made it, some cycles from now (R109, R263, R273, R289, R305). -/
def State.deliverLoad (s : State) (a : Access) (after : Nat) (val : VWord) (mark : Option Mark) (poison : Option Nat) (raise : Nat) : State :=
  let sender := if after = a.reply then a.home else a.src
  match a.agent with
  | .thread t =>
    (match a.dst with
      | some d => s.sendAt 2 sender a.src (s.cycle + after) (completionRank a.issue a.word)
          (.longOperationCompletion { thread := t, id := a.id, dst := d, va := a.va, val := val, mark := mark, raise := raise, issue := a.issue, word := a.word })
      | none => s)
  | .engine c cmd b =>
    if (s.block? c cmd b).any (fun x => x.asked && !x.read) then
      (s.modBlock c cmd b (fun x => { x with data := val, poison := poison, read := true })).sendAt 2 sender a.src (s.cycle + after) (senderRank c 16) (.copyBlockWrite c cmd b)
    else s
  | .port r p seq => s.sendAt 2 sender a.src (s.cycle + after) 0 (.memoryPortReply r p seq val poison.isSome raise)
  | .drain r d => s.modDrain r d (fun x => x.takeBias a.id (val.setWidth 32) raise (s.cycle + after) (if poison.isSome then some { sub := 4, stage := 0, addr := a.va } else none))
  | .launchUnit _ => s
  | .host _ => s

/-- Loaded bytes as their register takes them, a transaction's buffered bytes over them (R103, R151). -/
def loadedValue (a : Access) (x : VWord) : VWord :=
  let x := if a.cmp = 0 then x else overlayBytes x a.data a.cmp
  extend a.ext a.size (BitVec.ofNat 512 (x.toNat % 256 ^ a.size))

/-- The sets of the cluster cache (R256). -/
def CLine.set (l : CLine) : Nat := l.line / 256 % 1024

/-- A line of the cluster cache, allocated if it is absent: 16 ways, the least recently used replaced (R256). -/
def Cluster.allocLine (k : Cluster) (line : PhysAddr) : Cluster :=
  if k.cache.any (fun l => l.line = line) then k
  else
    let new : CLine := { line := line, fetched := false, used := 0, sectors := Vector.replicate 4 none }
    let same := k.cache.filter (fun l => l.set == new.set)
    { k with cache := new :: (k.cache.filter (fun l => l.set != new.set) ++ evictLru CLine.used 16 same) }

/-- A fill of a cluster cache takes effect: one sector, after which the line serves no fetch until one fills it whole, or the four sectors of a fetch (R256). -/
def Cluster.applyFill (k : Cluster) (f : CFill) : Cluster :=
  let k := k.allocLine f.line
  { k with cache := k.cache.map (fun l => if l.line = f.line then
      match f.place with
      | some i => { l with fetched := false, used := f.at_, sectors := l.sectors.setIfInBounds i f.sectors.head? }
      | none => { l with fetched := true, used := f.at_, sectors := Vector.ofFn (fun (i : Fin 4) => f.sectors[i.val]?) }
    else l) }

/-- The cluster with the fills whose replies have come by a cycle in effect; until then the cache serves what it held (R109, R256). -/
def Cluster.settle (k : Cluster) (now : Nat) : Cluster :=
  (k.fills.filter (fun f => f.at_ ≤ now)).foldl Cluster.applyFill { k with fills := k.fills.filter (fun f => now < f.at_) }

/-- A fill among those on their way, in the order of their replies. -/
def insertFill (l : List CFill) (f : CFill) : List CFill :=
  match l with
  | [] => [f]
  | x :: r => if f.at_ < x.at_ then f :: x :: r else x :: insertFill r f

/-- A home's reply will fill a cluster cache. -/
def State.fillCache (s : State) (clu : ClusterKey) (f : CFill) : State :=
  s.modClu clu (fun k => { k with fills := insertFill k.fills f })

/-- An instruction line is on its way to a core (R259). -/
def State.answerFetch (s : State) (c : CoreKey) (line : PhysAddr) (after wts : Nat) (got : Option ILine) (ans : Option FetchAnswer) : State :=
  let s := s.modCore c (fun k => { k with fills := k.fills.map (fun f => if f.line = line then { f with got := got, wts := wts, answer := ans } else f) })
  s.sendAt 2 (if after = 18 then cluOf c else physHome line) (cluOf c) (s.cycle + after) (senderRank c 16) (.instructionLineFill c line)

/-- The core of an agent. -/
def agentCore : Agent → CoreKey
  | .thread t => t.core
  | .engine c _ _ => c
  | .port r _ _ => r / 4 * 16
  | .drain r _ => r / 4 * 16
  | .launchUnit d => d * 384
  | .host p => p * 1536

/-- The sector of a cluster-cache line that may serve a load of time or snapshot (R109, R149). -/
def CSector.serves (x : CSector) (a : Access) : Bool :=
  if a.snap = 0 then a.ts ≤ x.rts else x.wts ≤ a.snap && a.snap ≤ x.rts

/-- The four sectors of a line, when it serves a fetch (R256). -/
def CLine.fetchable (l : CLine) (a : Access) : Option (List CSector) :=
  let xs := l.sectors.toList.filterMap id
  if l.fetched && xs.length == 4 && xs.all (fun x => a.ts ≤ x.rts) then some xs else none

/-- The line that four sectors make (R259). -/
def lineOfSectors (line : PhysAddr) (xs : List CSector) : ILine :=
  { line := line, rts := (minOf (xs.map CSector.rts)).getD 0, data := xs.map CSector.data, used := 0 }

/-- A cluster-cache bank serves a load or fetch: a hit under its lease 18 cycles after issue, or on to the home (R256, R259, R416). -/
def execClusterCacheAccess (a : Access) (s : State) : Result :=
  let s := s.modClu a.src (fun k => k.settle s.cycle)
  let k := s.clu a.src
  let bank := a.pa / 256 % 16
  let free := (getKey k.bankFree bank).getD 0
  if !a.queued && s.cycle < free then
    .next ((s.modClu a.src (fun k => { k with bankFree := setKey k.bankFree bank (free + 1) })).postAt free 1 (.clusterCacheAccess { a with queued := true }))
  else
    let s := if a.queued then s else s.modClu a.src (fun k => { k with bankFree := setKey k.bankFree bank (s.cycle + 1) })
    let home (s : State) : State := s.sendAt 3 a.src a.home (s.cycle + s.homeLatency a.src a.home / 2 - 18) (agentRank a.agent) (.homeLoad { a with queued := false })
    let touch (s : State) : State := s.modClu a.src (fun k => { k with cache := k.cache.map (fun l => if l.line = lineOf a.pa then { l with used := s.cycle } else l) })
    match (if a.uncached then none else k.cache.find? (fun l => l.line = lineOf a.pa)) with
    | none => .next (home s)
    | some l =>
      if a.op = .fetch then
        match l.fetchable a with
        | some xs => .next ((touch s).answerFetch (agentCore a.agent) (lineOf a.pa) 18 (maxOf (xs.map CSector.wts)) (some (lineOfSectors (lineOf a.pa) xs)) none)
        | none => .next (home s)
      else
        match (l.sectors[a.pa % 256 / 64]?).join with
        | some x =>
          if x.serves a then
            .next ((touch s).deliverLoad a 18 (loadedValue a (x.data >>> (8 * (a.pa % 64)))) none none (if a.snap = 0 then x.wts else 0))
          else .next (home s)
        | none => .next (home s)

/-- The home answers a load that takes the newest version (R109, R114, R264); of these only plain loads fill the cluster cache (log 127). -/
def State.loadNewest (s : State) (a : Access) : State :=
  let s := s.grant a.pa (a.ts + 256)
  let x := s.sector a.pa
  match x.poison with
  | some src =>
    s.deliverLoad a a.reply (match a.agent with
      | .thread _ => a.va.setWidth 512
      | _ => s.memVal a.pa a.size) (some (poisonMark src)) (some src) x.wts
  | none =>
    let s := if a.ordered || a.uncached then s
      else s.fillCache a.src { at_ := s.cycle + a.reply, line := lineOf a.pa, place := some (a.pa % 256 / 64)
                               sectors := [{ wts := x.wts, rts := x.rts, data := s.memVal (sectorOf a.pa) 64 }] }
    s.deliverLoad a a.reply (loadedValue a (s.memVal a.pa a.size)) none none x.wts

/-- The home answers a snapshot load at T (R149, R278, R360). -/
def State.loadSnapshot (s : State) (a : Access) : State :=
  let s := s.grant a.pa a.snap
  match s.versionAt a.home a.pa a.snap with
  | none => s.deliverLoad a a.reply (a.va.setWidth 512) (some { cause := 0x141, info := 0 }) (some 0) 0
  | some place =>
    let wts := if place = sectorOf a.pa then (s.sector a.pa).wts else bytesNat (Memory.getN s.mem (place + 64) 8)
    match (s.sector place).poison with
    | some src => s.deliverLoad a a.reply (a.va.setWidth 512) (some (poisonMark src)) (some src) 0
    | none =>
      let rts := if place = sectorOf a.pa then (s.sector a.pa).rts else a.snap
      let s := if a.uncached then s
        else s.fillCache a.src { at_ := s.cycle + a.reply, line := lineOf a.pa, place := some (a.pa % 256 / 64)
                                 sectors := [{ wts := wts, rts := rts, data := s.memVal place 64 }] }
      s.deliverLoad a a.reply (loadedValue a (s.memVal (place + a.pa % 64) a.size)) none none 0

/-- The home answers a fetch of a line: refused when Written, else four sectors with their leases (R221, R259, R276, R372). -/
def State.loadLine (s : State) (a : Access) : State :=
  let c := (agentCore a.agent)
  let line := lineOf a.pa
  let parts := (List.range 4).map (fun i => line + 64 * i)
  if s.line line = .written then s.answerFetch c line a.reply 0 none (some .unpublished)
  else match parts.findSome? (fun p => (s.sector p).poison) with
    | some src => s.answerFetch c line a.reply 0 none (some (.poisoned src))
    | none =>
      let s := parts.foldl (fun s p => s.grant p (a.ts + 256)) s
      let xs : List CSector := parts.map (fun p =>
        { wts := (s.sector p).wts, rts := (s.sector p).rts, data := s.memVal p 64 })
      let s := if a.uncached then s else s.fillCache a.src { at_ := s.cycle + a.reply, line := line, place := none, sectors := xs }
      s.answerFetch c line a.reply (maxOf (xs.map CSector.wts)) (some (lineOfSectors line xs)) none

/-- A lock keeps a load waiting: its time or snapshot lies beyond the lease at the lock (R279). -/
def State.loadWaits (s : State) (a : Access) : Bool :=
  let beyond (p : PhysAddr) : Bool := (s.sector p).lock.isSome && (s.sector p).rts < (if a.snap = 0 then a.ts else a.snap)
  if a.op = .fetch then (List.range 4).any (fun i => beyond (lineOf a.pa + 64 * i)) else beyond a.pa

/-- A home's channel takes a load and answers it (R109, R134, R149, R276, R278, R279). -/
def execHomeLoad (a : Access) (s : State) : Result :=
  .next (s.inTurn a .homeLoad (fun s =>
    match a.op with
    | .arm m =>
      (match a.agent with
        | .thread t =>
          let s := s.modSlot t.core t.slot (fun sl =>
            if sl.gen = t.gen then sl.setMonitor m (some { at_ := .mem (sectorOf a.pa), va := a.va, from_ := s.cycle, latched := false }) else sl)
          s.sendAt 2 a.home a.src (s.cycle + a.reply) (completionRank a.issue a.word) (.monitorArmAcknowledgement t a.id m (s.sector a.pa).wts)
        | _ => s)
    | op =>
      if s.loadWaits a then s.whenUnlocked a .homeLoad
      else if op = .fetch then s.loadLine a
      else if a.snap = 0 then s.loadNewest a
      else s.loadSnapshot a))

/-- A missing instruction line arrives: it fills the instruction cache, or leaves its answer to the thread whose fetch asked; others that waited for the line fetch anew, on their own merits (R221, R259, R389). -/
def execInstructionLineFill (core : CoreKey) (line : PhysAddr) (s : State) : Result :=
  match (s.core core).fills.find? (fun f => f.line = line) with
  | none => .next s
  | some f =>
    let s := s.raiseTime core f.wts
    .next (s.modCore core (fun k =>
      let k := { k with fills := k.fills.filter (fun x => x.line != line) }
      match f.got, f.answer with
      | some l, _ => k.installLine { l with used := s.cycle }
      | none, some a => { k with fetchFaults := k.fetchFaults ++ (f.slots.take 1).map (fun i => (i, line, a)) }
      | none, none => k))

/-! ### Stores and acknowledgements -/

/-- The commands of an engine up to and with one of them. -/
def Core.cmdsUpTo (k : Core) (cmd : Nat) : List CopyCmd :=
  k.copy.cmds.takeWhile (fun x => x.id != cmd) ++ (k.copyCmd? cmd).toList

/-- A command that has stopped, or that stands behind one that has, is halted (R203). -/
def Core.copyHalted (k : Core) (cmd : Nat) : Bool := (k.cmdsUpTo cmd).any (fun x => x.stopped.isSome)

/-- A block of a halted command is not performed; its write is owed until the command goes on. Some state when that is so (R203). -/
def State.withholdBlock (s : State) (c : CoreKey) (cmd b : Nat) : Option State :=
  if (s.block? c cmd b).isNone then some s
  else if (s.core c).copyHalted cmd then some (s.modBlock c cmd b (fun x => { x with sent := false, asked := false }))
  else none

/-- The same for an access of a copy engine; none for other agents. -/
def State.withheld (s : State) (a : Agent) : Option State :=
  match a with
  | .engine c cmd b => s.withholdBlock c cmd b
  | _ => none

/-- The acknowledgement of a write goes to its agent (R110, R200, R289, R305). -/
def State.acknowledge (s : State) (a : Access) (wts : Nat) : State :=
  match a.agent with
  | .engine c cmd b => s.send 2 a.home a.src (4 * (s.cycle + a.reply) + 2) 0 (.copyBlockAcknowledgement c cmd b wts)
  | .port r p seq => s.sendAt 2 a.home a.src (s.cycle + a.reply) 0 (.memoryPortReply r p seq 0 false wts)
  | .host p => s.sendAt 2 a.home a.src (s.cycle + a.reply) 0 (.hostWriteAcknowledgement p a.id wts)
  | ag => s.sendAt 2 a.home a.src (s.cycle + a.reply) 0 (.storeAcknowledgement { agent := ag, id := a.id, wts := wts, ctx := a.ctx, va := a.va })

/-- A home applies a store with its wts, publish state, version and poison (R107, R110, R359, R391); it waits while the sector is locked (R153). -/
def execHomeStore (a : Access) (s : State) : Result :=
  .next (s.inTurn a .homeStore (fun s =>
    if (s.sector a.pa).lock.isSome then s.whenUnlocked a .homeStore
    else match s.withheld a.agent with
    | some s => s
    | none =>
      let (w, s) := s.homeWrite a.home a.pa (vBytes a.size a.data) a.ts a.vbit a.code
      let s := match s.carriedPoison a with
        | some src => s.modSector a.pa (fun x => { x with poison := some src })
        | none => s
      (s.notePhase a.agent w).acknowledge a w))

/-- A drain's stores are acknowledged one by one; its end is judged with the last (R305). -/
def State.drainAcknowledged (s : State) (r : RookKey) (d id wts : Nat) : State :=
  let s := s.modDrain r d (fun x =>
    let p := ((getKey x.out id).map Prod.fst).getD 0
    { x with out := delKey x.out id, times := x.times.modify p (max wts) })
  s.judgeDrain r d

/-- A store's acknowledgement reaches its core, drain or launch unit: its time rises and the store is no longer outstanding (R110, R268, R305). -/
def execStoreAcknowledgement (k : AckMsg) (s : State) : Result :=
  match k.agent with
  | .thread t => .next (((s.raiseTime t.core k.wts).finish t k.id))
  | .drain r d => .next (s.drainAcknowledged r d k.id k.wts)
  | .launchUnit d => .next (s.modDie d (fun x => { x with time := max x.time k.wts }))
  | _ => .next s

/-! ### The atomic unit -/

/-- The width of an access of 4 or 8 bytes. -/
def widthOf (n : Nat) : Width := if n = 4 then .w32 else .w64

/-- The thread of an agent that is one. -/
def agentThread : Agent → Option ThreadRef
  | .thread t => some t
  | _ => none

/-- The old value of an atomic goes to its register, or the mark of poison (R121, R391). -/
def State.answerAtomic (s : State) (a : Access) (x : Nat) (wts : Nat) : State := s.deliverLoad a a.reply (BitVec.ofNat 512 x) none none wts

/-- The reservation of a thread on the line of an access at its home holds (R122). -/
def State.holdsLine (s : State) (a : Access) : Bool :=
  (s.clu a.home).resv.any (fun r => some r.thread == agentThread a.agent && r.line == lineOf a.pa)

/-- A new reservation of a thread at a home, its only one, breaks after 4,096 cycles (R123). -/
def State.reserve (s : State) (a : Access) : State :=
  match agentThread a.agent with
  | none => s
  | some t =>
    let s := s.breakReservation t
    let (id, s) := s.takeFresh
    let s := s.modClu a.home (fun k => { k with resv := { thread := t, id := id, line := lineOf a.pa } :: k.resv })
    s.postAt (s.cycle + 4096) 0 (.reservationExpiry t id)

/-- A write of the atomic unit: its wts and the state after (R110, R331). -/
def State.atomicWrite (s : State) (a : Access) (x : Nat) : Nat × State :=
  let (w, s) := s.homeWrite a.home a.pa (natBytes a.size x) a.ts a.vbit a.code
  (w, s.notePhase a.agent w)

/-- An atomic, reservation or compare acts on the newest version (R121, R122); a failing scnd raises no time (DESIGN CHOICE, log 144); on a poisoned sector memory stays and gd is marked (R391). -/
def State.performAtomic (s : State) (a : Access) : State :=
  let old := bytesNat (Memory.getN s.mem a.pa a.size)
  let v := a.data.toNat % 256 ^ a.size
  let wts := (s.sector a.pa).wts
  match (s.sector a.pa).poison.or a.bad with
  | some src =>
    let s := match a.op, agentThread a.agent with
      | .lres, _ => s.reserve a
      | .scnd, some t => s.breakReservation t
      | _, _ => s
    s.deliverLoad a a.reply (a.va.setWidth 512) (some (poisonMark src)) (some src) 0
  | none =>
    match a.op with
    | .amo op =>
      let (w, s) := s.atomicWrite a (atomResult op (widthOf a.size) old v)
      s.answerAtomic a old w
    | .lres => (s.reserve a).answerAtomic a old wts
    | .scnd =>
      if s.holdsLine a then
        let (w, s) := s.atomicWrite a v
        s.answerAtomic a 0 w
      else
        let s := ((agentThread a.agent).map s.breakReservation).getD s
        s.answerAtomic a 1 0
    | .cas =>
      if old = a.cmp.toNat % 256 ^ a.size then
        let (w, s) := s.atomicWrite a v
        s.answerAtomic a old w
      else s.answerAtomic a old wts
    | _ => s

/-- The atomic unit of the home performs an atomic (R121). -/
def execAtomicUnitOperation (a : Access) (s : State) : Result :=
  .next (s.inUnit a .atomicUnitOperation (fun s => s.performAtomic a))

/-- A reservation breaks 4,096 cycles after it was set (R123). -/
def execReservationExpiry (t : ThreadRef) (id : Nat) (s : State) : Result :=
  .next { s with clusters := s.clusters.map (fun (c, k) => (c, { k with resv := k.resv.filter (fun r => !(r.thread == t && r.id == id)) })) }

/-- Poison consumed at a home is logged (R391, R393). -/
def State.logPoison (s : State) (home : ClusterKey) (pa : PhysAddr) (src : Nat) : State :=
  s.logError (dieOfClu home) (LogEvent.ofClu 3 0x1A1 src home (BitVec.ofNat 64 (pa % 2 ^ 42)) 0)

/-- The atomic unit applies a reduction and acknowledges it (R124, R391). -/
def execReductionApply (a : Access) (s : State) : Result :=
  .next (s.inUnit a .reductionApply (fun s =>
    match (s.sector a.pa).poison.or a.bad, a.op with
      | some src, _ => (s.logPoison a.home a.pa src).acknowledge a 0
      | none, .red op =>
        let old := bytesNat (Memory.getN s.mem a.pa a.size)
        let (w, s) := s.atomicWrite a (atomResult op (widthOf a.size) old (a.data.toNat % 256 ^ a.size))
        s.acknowledge a w
      | none, _ => s))

/-! ### Slice-ordered merge (R125, R126) -/

/-- The operation that a bank and code name; swap is none of them (R124, R125). -/
def declOp (bank : Bool) (op : Nat) : Option AtomOp :=
  match bank, op with
  | false, 0 => some .add | false, 1 => some .and | false, 2 => some .or | false, 3 => some .xor
  | false, 4 => some .max | false, 5 => some .min | false, 7 => some .fadd
  | true, 0 => some .maxu | true, 1 => some .minu | true, 2 => some .fmax | true, 3 => some .fmin
  | _, _ => none

/-- The result code of a declaration, and the declaration of code 0 (R125); where several codes apply, the descriptor is judged first, then the address, then the table (log 35). -/
def Cluster.declare (k : Cluster) (pa : PhysAddr) (d : Word) : Nat × Option Decl :=
  match declOp (d.getLsbD 19) (wordBits d 18 16) with
  | none => (3, none)
  | some op =>
    if wordBits d 15 0 = 0 ∨ wordBits d 63 21 ≠ 0 then (3, none)
    else if k.decls.any (fun x => x.target = pa) then (2, none)
    else if 256 ≤ k.decls.length then (1, none)
    else (0, some { target := pa, next := 0, nsl := wordBits d 15 0, op := op, wide := d.getLsbD 20 })

/-- The home processes a declaration (R125). -/
def execOrdsetDeclaration (a : Access) (s : State) : Result :=
  let (code, d) := (s.clu a.home).declare a.pa (a.data.setWidth 64)
  let s := match d with
    | some d => s.modClu a.home (fun k => { k with decls := k.decls ++ [d] })
    | none => s
  .next (s.answerAtomic a code 0)

/-- The slice that a contribution names. -/
def sliceOf (a : Access) : Nat :=
  match a.op with
  | .redo n => n
  | _ => 0

/-- The contribution of the next slice is applied; the declaration ends after the last (R126). A poisoned target discards it, logged, and the slice counts as received (R391, log 36). -/
def State.applySlice (s : State) (a : Access) (d : Decl) : Nat × State :=
  let n := if d.wide then 8 else 4
  let s := s.modClu a.home (fun k => { k with
    decls := if d.next + 1 = d.nsl then k.decls.filter (fun x => x.target != d.target)
      else k.decls.map (fun x => if x.target = d.target then { x with next := d.next + 1 } else x) })
  match (s.sector a.pa).poison.or a.bad with
  | some src => (0, s.logPoison a.home a.pa src)
  | none =>
    let old := bytesNat (Memory.getN s.mem a.pa n)
    s.atomicWrite { a with size := n } (atomResult d.op (widthOf n) old (a.data.toNat % 256 ^ n))

/-- An access waits in the merge buffer of its home: it has been acknowledged. -/
def Cluster.buffered (k : Cluster) (a : Access) : Bool := k.merge.any (fun b => b.id == a.id && b.agent == a.agent)

/-- A contribution is applied; one from the buffer has been acknowledged. The buffered contribution that is next in order then asks for the atomic unit (R121, R126). -/
def State.mergeNext (s : State) (a : Access) (d : Decl) : State :=
  let held := (s.clu a.home).buffered a
  let s := s.modClu a.home (fun k => { k with merge := k.merge.filter (fun b => !(b.id == a.id && b.agent == a.agent)) })
  let (w, s) := s.applySlice a d
  let s := if held then s else s.acknowledge a w
  let k := s.clu a.home
  match (k.decls.find? (fun x => x.target = a.pa)).bind (fun d => k.merge.find? (fun b => b.pa = a.pa && sliceOf b = d.next)) with
  | some b => s.post s.now 0 (.sliceOrderedMerge b)
  | none => s

/-- A contribution that no declaration wants is counted and logged (R126, R393). -/
def State.mergeError (s : State) (a : Access) : State :=
  let s := s.modClu a.home (fun k => { k with mergeErr := k.mergeErr + 1 })
  s.logError (dieOfClu a.home) (LogEvent.ofClu 10 0 0 a.home (BitVec.ofNat 64 (a.pa % 2 ^ 42)) (BitVec.ofNat 64 (sliceOf a)))

/-- A `redo` contribution reaches its home: applied in slice order by the atomic unit, buffered, held in the network, or discarded (R126). -/
def execSliceOrderedMerge (a : Access) (s : State) : Result :=
  let k := s.clu a.home
  match k.decls.find? (fun x => x.target = a.pa) with
  | none => .next ((s.mergeError a).acknowledge a 0)
  | some d =>
    if a.queued || k.buffered a || sliceOf a = d.next then .next (s.inUnit a .sliceOrderedMerge (fun s => s.mergeNext a d))
    else if d.nsl ≤ sliceOf a ∨ sliceOf a < d.next ∨ k.merge.any (fun b => b.pa = a.pa && sliceOf b = sliceOf a) then .next ((s.mergeError a).acknowledge a 0)
    else if k.merge.length < 64 then
      .next ((s.modClu a.home (fun k => { k with merge := k.merge ++ [a] })).acknowledge a 0)
    else .next (s.again (.sliceOrderedMerge a))

/-! ### Page walks (R344, R347) -/

/-- The result of a walk reaches those that wait: a leaf is installed, a failure is noted for the waiting slots, ports refill; a stale walk installs nothing (R347, R349). -/
def State.deliverWalk (s : State) (clu : ClusterKey) (w : Walk) (r : Option TlbEntry) : State :=
  let s := match r with
    | some e =>
      if w.stale then s
      else
        let s := if w.level = 0 then s else s.modClu clu (fun k => k.installTlb e s.cycle)
        (w.waits.map Prod.fst).eraseDups.foldl (fun s c => s.modCore c (fun k => k.installTlb e s.cycle)) s
    | none =>
      if w.stale then s
      else w.waits.foldl (fun s (c, i) => s.modCore c (fun k => { k with
        walkFaults := { slot := i, ctx := w.ctx, vpn := w.va.toNat / 2 ^ 16 } :: k.walkFaults })) s
  let s := w.ports.foldl (fun s p => s.post s.now 0 (.portTranslationRefill (p / 4) (p % 4) w.id)) s
  if w.ports.isEmpty then s.modClu clu (fun k => { k with walks := k.walks.filter (fun x => x.id != w.id) })
  else s.modClu clu (fun k => { k with walks := k.walks.map (fun x => if x.id = w.id then { x with level := 0, waits := [], result := some r } else x) })

/-- A queued walk starts when the walker has room, at the earliest 12 cycles after its request (R347). -/
def State.nextWalk (s : State) (clu : ClusterKey) : State :=
  let k := s.clu clu
  match k.walkWait with
  | [] => s
  | w :: rest =>
    if k.busyWalks < 16 then (s.modClu clu (fun k => { k with walkWait := rest })).launchWalk clu w (max s.cycle (w.since + 12)) else s

/-- A walk reads its next entry at the entry's home, in the turn of the entry's channel and not while its sector is locked (R257, log 130), or ends with its leaf or its failure (R342–R347); a malformed entry is logged (R393). -/
def execPageWalkCompletion (cluster : ClusterKey) (walk : Nat) (s : State) : Result :=
  match (s.clu cluster).walks.find? (fun w => w.id = walk) with
  | none => .next s
  | some w =>
    match w.result with
    | some r => .next ((s.deliverWalk cluster w r).nextWalk cluster)
    | none =>
      let p := pkgOfClu cluster
      let pa := pteAddr w.table w.va.toNat w.level
      let x : Word := BitVec.ofNat 64 (bytesNat (Memory.getN s.mem pa 8))
      let reply := s.walkReply cluster pa
      let again : Instr := .pageWalkCompletion cluster walk
      let put (s : State) (f : Walk → Walk) : State := s.modClu cluster (fun k => { k with walks := k.walks.map (fun y => if y.id = walk then f y else y) })
      let ends (s : State) (r : Option TlbEntry) : State := (put s (fun y => { y with result := some r })).postAt (s.cycle + reply) 0 again
      let (shut, s) := if w.turn then (false, s) else s.refreshDraw pa
      if shut then .next ((s.post s.now 0 (.lpddr6Refresh (dieOfPA pa) (groupOf pa))).post s.now 0 again)
      else
      let (start, s) := if w.turn then (s.cycle, s) else s.channelTurn pa 1
      if s.cycle < start then .next ((put s (fun y => { y with turn := true })).postAt start 1 again)
      else if (s.sector pa).lock.isSome then .next ((put s (fun y => { y with turn := true })).again again)
      else
      let s := put s (fun y => { y with turn := false })
      match readPte (s.pod0 p) (s.pkg p).podN p w.ctx w.va.toNat w.level x with
      | .table t =>
        let next := pteAddr t w.va.toNat (w.level + 1)
        .next ((put s (fun y => { y with level := w.level + 1, table := t })).postAt (s.cycle + reply + s.walkRead cluster next) 0 again)
      | .leaf e => .next (ends s (some e))
      | .invalid => .next (ends s none)
      | .malformed => .next (ends (s.logError (dieOfClu cluster) (LogEvent.ofClu 9 0x081 0 cluster (BitVec.ofNat 64 (pa % 2 ^ 42)) x)) none)

end Sys2Proof.Machine
end

