-- ==== Sys2Proof/Machine/Copy.lean ====
section
/-! DEFINITION. The copy engine: commands and their checks (R196–R199), how it reads and writes (R200, R254, R273), cwait and what stops a command (R201–R204), sync words (R205, R206) and barrier bytes (R207). -/

namespace Sys2Proof.Machine

open Sys2Proof

/-! ### The control doubleword (R197) -/

/-- N. -/
def gcN (gc : Word) : Nat := wordBits gc 31 0
/-- The offset of the sync word. -/
def gcSync (gc : Word) : Nat := wordBits gc 45 32 * 16
/-- SWE. -/
def gcSwe (gc : Word) : Bool := gc.getLsbD 46
/-- BE. -/
def gcBe (gc : Word) : Bool := gc.getLsbD 47
/-- BN. -/
def gcBn (gc : Word) : Nat := wordBits gc 49 48
/-- BSC. -/
def gcBsc (gc : Word) : Nat := wordBits gc 52 50
/-- ESZ. -/
def gcEsz (gc : Word) : Nat := wordBits gc 55 53
/-- ROWS, a count less 1. -/
def gcRows (gc : Word) : Nat := wordBits gc 63 56

/-- The code of a kind in R202. -/
def CopyKind.code : CopyKind → Nat
  | .cpy => 0 | .cpy2 => 1 | .gath => 2 | .scat => 3 | .wsld => 4

/-! ### Ranges and spans -/

/-- The space and offset of an effective address; an address that R100 does not place counts as global. -/
def State.placeOf (s : State) (c : CoreKey) (ea : Word) : LockSpace × Nat :=
  match s.classify c ea with
  | .spad t off => (.spad t, off)
  | _ => (.global, ea.toNat)

/-- The lowest and the end of the bytes that n-byte rows 0 to rows at a signed stride touch, from an offset (R194). -/
def span (o : Nat) (n rows : Nat) (stride : Word) : Int × Int :=
  let d : Int := rows * stride.toInt
  ((o : Int) + min 0 d, (o : Int) + max 0 d + n)

/-- A range of a copy command: space, first byte, end, whether it is written. -/
abbrev CopyRange := LockSpace × Int × Int × Bool

/-- The ranges that a command locks (R194). -/
def State.copyRanges (s : State) (c : CoreKey) (kind : CopyKind) (dst dst2 src src2 gc : Word) : List CopyRange :=
  let n := gcN gc
  let plain (a : Word) (len : Nat) (w : Bool) : CopyRange := let (sp, o) := s.placeOf c a; (sp, o, o + len, w)
  match kind with
  | .cpy => [plain src n false, plain dst n true]
  | .cpy2 =>
    let (sp, o) := s.placeOf c src
    let (dp, p) := s.placeOf c dst
    let (a, b) := span o n (gcRows gc) src2
    let (x, y) := span p n (gcRows gc) dst2
    [(sp, a, b, false), (dp, x, y, true)]
  | .gath => [plain src (4 * n) false, plain dst (n * 2 ^ gcEsz gc) true]
  | .scat => [plain dst (n * 2 ^ gcEsz gc) false, plain src (4 * n) false]
  | .wsld => [plain src n false, (.weights, dst.toNat, dst.toNat + n, true)]

/-- Two ranges of one space meet. -/
def rangesMeet (a b : CopyRange) : Bool := a.1 = b.1 && a.2.1 < b.2.2.1 && b.2.1 < a.2.2.1

/-- A range conflicts with the lock table: a write with any lock, a read with a write lock (R195). -/
def Core.lockConflict (k : Core) (r : CopyRange) : Bool :=
  k.locks.any (fun l => rangesMeet r (l.space, (l.lo : Int), (l.hi : Int), l.write) && (r.2.2.2 || l.write))

/-! ### The checks at issue (R198) -/

/-- Check 1: the fields that R197 fixes for the form. -/
def gcBad (kind : CopyKind) (gc : Word) : Bool :=
  gcN gc = 0 || (gcBe gc && (gcBsc gc = 0 || gcBsc gc = 7))
    || (kind != .cpy2 && gcRows gc != 0)
    || (match kind with
      | .cpy => gcEsz gc != 0
      | .cpy2 => gcEsz gc != 0
      | .wsld => 1 < gcEsz gc
      | _ => 3 < gcEsz gc)

/-- The first address of a list that R100 does not place. -/
def State.badAddress (s : State) (l : List Word) : Option Word :=
  l.find? (fun a => match s.classify s.cur.core a with
    | .bad _ => true
    | _ => false)

/-- The addresses that a command names: for gath and scat the contiguous operand, the index array and the base. -/
def copyAddresses (kind : CopyKind) (dst src src2 : Word) : List Word :=
  match kind with
  | .cpy => [dst, src]
  | .cpy2 => [dst, src]
  | .wsld => [src]
  | _ => [dst, src, src2]

/-- The first value of a list of (value, divisor) that is no multiple. -/
def misaligned (l : List (Word × Nat)) : Option Word := (l.find? (fun x => x.1.toNat % x.2 ≠ 0)).map Prod.fst

/-- Check 3 (R198): the value that cr.tval receives. -/
def copyMisaligned (kind : CopyKind) (dst dst2 src src2 gc : Word) : Option Word :=
  let e := 2 ^ gcEsz gc
  let n (d : Nat) : Option Word := if gcN gc % d = 0 then none else some gc
  match kind with
  | .cpy => (misaligned [(dst, 8), (src, 8)]).or (n 8)
  | .cpy2 => ((misaligned [(dst, 8), (src, 8)]).or (n 8)).or (misaligned [(dst2, 8), (src2, 8)])
  | .wsld => (misaligned [(dst, 64)]).or (n 64)
  | _ => misaligned [(src2, e), (dst, e), (src, 4)]

/-- n bytes from an address lie in the scratchpad of the issuing core. -/
def State.ownSpad (s : State) (a : Word) (n : Nat) : Bool :=
  match s.classify s.cur.core a with
  | .spad t off => t = s.cur.core && off + n ≤ 262144
  | _ => false

/-- Check 5 of gath and scat: the contiguous operand, the index array, N (R198). -/
def State.badArrays (s : State) (dst src gc : Word) : Option (Nat × Word) :=
  if !s.ownSpad dst (gcN gc * 2 ^ gcEsz gc) then some (5, dst) else if !s.ownSpad src (4 * gcN gc) then some (5, src)
  else if 65536 < gcN gc then some (5, gc) else none

/-- The first failing check of a copy command: its number and cr.tval (R198); where gc and an address could be meant, the address of the operand, else gc (log 37). -/
def State.copyCheck (s : State) (kind : CopyKind) (dst dst2 src src2 gc : Word) : Option (Nat × Word) :=
  if gcBad kind gc then some (1, gc)
  else match s.badAddress (copyAddresses kind dst src src2) with
  | some a => some (2, a)
  | none =>
    match copyMisaligned kind dst dst2 src src2 gc with
    | some v => some (3, v)
    | none =>
      match kind, s.copyRanges s.cur.core kind dst dst2 src src2 gc with
      | .cpy, [a, b] => if rangesMeet a b then some (4, dst) else none
      | .cpy2, [a, b] => if rangesMeet a b then some (4, dst) else if 2 ^ 24 < gcN gc then some (4, gc) else none
      | .wsld, _ => if 2 ^ 24 < dst.toNat + gcN gc then some (6, dst) else none
      | .gath, _ => s.badArrays dst src gc
      | .scat, _ => s.badArrays dst src gc
      | _, _ => none

/-! ### Issue (R194–R196, R200) -/

/-- A copy command issues: its checks, its locks, its place in the queue. dst is the contiguous operand of gath and scat, src their index array, src2 their base. -/
def copyCommand (kind : CopyKind) (dst dst2 src src2 gc : Word) (s : State) : Result :=
  match s.copyCheck kind dst dst2 src src2 gc with
  | some (n, v) => .next (s.trap 0x0A2 v (BitVec.ofNat 64 n))
  | none =>
    if kind = .wsld ∧ (s.clu s.myClu).window ≠ some s.me.launch then .next (s.trap 0x0C5 dst 0)
    else
      let rs := s.copyRanges s.cur.core kind dst dst2 src src2 gc
      let k := s.myCore
      if rs.any k.lockConflict || 16 < k.locks.length + rs.length then .next s.park
      else
        let (id, s) := s.begin_ .copyCommand 0 0
        let cmd : CopyCmd :=
          { id := id, thread := s.meRef, kind := kind, word := s.cur.curWord, dst := dst, dst2 := dst2, src := src, src2 := src2, gc := gc
            ctx := s.me.ctx, sup := s.me.st.sup, launch := s.me.launch, place := s.me.place
            blocks := [], next := 0, credit := 0, started := false, issue := s.cycle, stopped := none, slip := 0, writeAt := 0 }
        let locks := rs.map (fun (sp, lo, hi, w) => { space := sp, lo := lo.toNat, hi := hi.toNat, write := w, owner := id : RangeLock })
        .next ((s.modMyCore (fun k => { k with copy := { k.copy with cmds := k.copy.cmds ++ [cmd] }, locks := k.locks ++ locks })).post
          (4 * (s.cycle + 1) + 2) 0 (.copyCommandStart s.cur.core))

/-- cpy (R199). -/
def execCpy (d a b : Fin 32) (s : State) : Result := copyCommand .cpy (s.gval d) 0 (s.gval a) 0 (s.gval b) s
/-- cpy2: the strides stand in the next registers (R196, R199). -/
def execCpy2 (d a b : Fin 32) (s : State) : Result :=
  copyCommand .cpy2 (s.gval d) (s.gval (next d)) (s.gval a) (s.gval (next a)) (s.gval b) s
/-- gath (R199). -/
def execGath (d a b : Fin 32) (s : State) : Result := copyCommand .gath (s.gval d) 0 (s.gval a) (s.gval (next a)) (s.gval b) s
/-- scat (R199). -/
def execScat (d a b : Fin 32) (s : State) : Result := copyCommand .scat (s.gval d) 0 (s.gval a) (s.gval (next a)) (s.gval b) s
/-- wsld (R199). -/
def execWsld (d a b : Fin 32) (s : State) : Result := copyCommand .wsld (s.gval d) 0 (s.gval a) 0 (s.gval b) s

/-! ### The pieces of a command -/

/-- Bytes or elements of a command. -/
def CopyCmd.total (c : CopyCmd) : Nat := if c.kind = .cpy2 then gcN c.gc * (gcRows c.gc + 1) else gcN c.gc

/-- A piece: source, destination, length, its place for R202, and the units it advances by. -/
structure Piece where
  src : Word
  dst : Word
  len : Nat
  index : Nat
  units : Nat
  deriving DecidableEq, Repr

/-- Bytes from a source address that one read brings: up to the end of the sector, or of the scratchpad. -/
def sourceSpan (src : Word) : Nat := if src.getLsbD 63 then 262144 - src.toNat % 262144 else 64 - src.toNat % 64

/-- A piece that one read brings and that meets no 64-byte boundary of the destination. -/
def byteLen (src dst : Word) (left : Nat) : Nat := min left (min (sourceSpan src) (64 - dst.toNat % 64))

/-- The index of element i of a gather or scatter: a word of the own scratchpad (R199). -/
def Core.elementIndex (k : Core) (idx : Word) (i : Nat) : Word := (k.spadVal (wordBits (idx + BitVec.ofNat 64 (4 * i)) 17 0) 4).setWidth 64

/-- The next piece of a command, within the bytes that the engine may still read in this cycle (R199, R200). -/
def CopyCmd.piece (c : CopyCmd) (k : Core) : Piece :=
  let n := gcN c.gc
  let i := c.next
  let at_ (a : Word) (o : Nat) : Word := a + BitVec.ofNat 64 o
  match c.kind with
  | .cpy =>
    let len := min c.credit (byteLen (at_ c.src i) (at_ c.dst i) (n - i))
    { src := at_ c.src i, dst := at_ c.dst i, len := len, index := i, units := len }
  | .wsld =>
    let len := min c.credit (byteLen (at_ c.src i) (at_ c.dst i) (n - i))
    { src := at_ c.src i, dst := at_ c.dst i, len := len, index := i, units := len }
  | .cpy2 =>
    let r := BitVec.ofNat 64 (i / n)
    let src := at_ (c.src + r * c.src2) (i % n)
    let dst := at_ (c.dst + r * c.dst2) (i % n)
    let len := min c.credit (byteLen src dst (n - i % n))
    { src := src, dst := dst, len := len, index := i, units := len }
  | .gath =>
    let e := gcEsz c.gc
    { src := c.src2 + (k.elementIndex c.src i <<< e), dst := at_ c.dst (i * 2 ^ e), len := 2 ^ e, index := i, units := 1 }
  | .scat =>
    let e := gcEsz c.gc
    { src := at_ c.dst (i * 2 ^ e), dst := c.src2 + (k.elementIndex c.src i <<< e), len := 2 ^ e, index := i, units := 1 }

/-- cr.tinf of a fault in a copy command (R202). -/
def copyInfo (kind : CopyKind) (index : Nat) (dstSide : Bool) : Word :=
  BitVec.ofNat 64 (index % 2 ^ 32 + kind.code * 2 ^ 32 + dstSide.toNat * 2 ^ 35 + 2 ^ 63)

/-- Where the unit that faults begins: for cpy and cpy2 the first byte, within its row, of the aligned 64-byte block of the destination (R203). -/
def CopyCmd.unitStart (c : CopyCmd) (p : Piece) : Nat :=
  match c.kind with
  | .cpy => p.index - min p.index (p.dst.toNat % 64)
  | .cpy2 => p.index - min (p.index % gcN c.gc) (p.dst.toNat % 64)
  | _ => p.index

/-- The end of that unit. -/
def CopyCmd.unitEnd (c : CopyCmd) (p : Piece) : Nat :=
  match c.kind with
  | .cpy => min (gcN c.gc) (p.index + 64 - p.dst.toNat % 64)
  | .cpy2 => min (p.index - p.index % gcN c.gc + gcN c.gc) (p.index + 64 - p.dst.toNat % 64)
  | .wsld => p.index - p.index % 64 + 64
  | _ => p.index + 1

/-- What of a piece's unit a second read must bring, where its source leaves the piece's sector or scratchpad. -/
def CopyCmd.second (c : CopyCmd) (p : Piece) : Option Piece :=
  let n := sourceSpan p.src
  if (c.kind = .cpy ∨ c.kind = .cpy2) ∧ p.index + n < c.unitEnd p then
    some { p with src := p.src + BitVec.ofNat 64 n, dst := p.dst + BitVec.ofNat 64 n, index := p.index + n }
  else none

/-- A command stops at the first byte of a piece, its cr.tval: what lies before its unit is final, it keeps its locks, and commands behind it are halted (R203). -/
def State.stopCmd (s : State) (c : CoreKey) (cmd : CopyCmd) (p : Piece) (cause : Nat) (dstSide : Bool) : State :=
  let i := cmd.unitStart p
  let v : TrapVal := { cause := cause, tval := if dstSide then p.dst else p.src, tinf := copyInfo cmd.kind i dstSide }
  let halt (b : CopyBlock) : CopyBlock := if b.read then b else { b with asked := false }
  s.modCore c (fun k => { k with copy := { k.copy with
    cmds := k.copy.cmds.map (fun x =>
      if x.id = cmd.id then { x with stopped := some v, next := i, credit := 0, blocks := x.blocks.filter (fun b => b.index < i) }
      else if (k.cmdsUpTo cmd.id).any (fun y => y.id = x.id) then x
      else { x with blocks := x.blocks.map halt })
    port := k.copy.port.filter (fun e => (k.cmdsUpTo cmd.id).any (fun y => y.id = e.1 && y.id != cmd.id)) } })

/-! ### Reading a piece (R200, R203, R273) -/

/-- How the engine finds one side of a piece. -/
inductive Side where
  | own (off : Nat)
  | remote (core : CoreKey) (off : Nat)
  | global (e : TlbEntry) (pa : PhysAddr)
  | weights
  | fault (cause : Nat)
  | miss
  deriving DecidableEq, Repr

/-- One side of a piece: its class, translation and permission (R100, R102, R203). -/
def State.engineSide (s : State) (c : CoreKey) (ctx : Nat) (sup : Bool) (a : Word) (write : Bool) : Side × State :=
  match s.classify c a with
  | .bad cause => (.fault cause, s)
  | .spad t off => (if t = c then .own off else .remote t off, s)
  | .global =>
    match s.translate c 16 ctx a with
    | (.hit e, s) => (if permitted e (if write then .store else .load) sup then .global e (e.phys a.toNat) else .fault 0x082, s)
    | (.fault, s) => (.fault 0x081, s)
    | (.miss, s) => (.miss, s)

/-- The engine waits for an unacknowledged store of the issuing thread that a side overlaps (R273). -/
def State.sideHeld (s : State) (t : ThreadRef) (sd : Side) (n : Nat) : Bool :=
  let sl := s.slot t.core t.slot
  match sd with
  | .global _ pa => sl.holdsLoad pa n
  | .remote core off => sl.out.any (fun o => o.kind = .remoteStore && overlap (spadPlace core off) n o.pa o.size)
  | _ => false

/-- A global access of the engine for a block. -/
def State.engineAccess (s : State) (c : CoreKey) (cmd : CopyCmd) (b : CopyBlock) (op : GlobalOp) (e : TlbEntry) (va : Word) : Access :=
  let pa := e.phys va.toNat
  { agent := .engine c cmd.id b.num, id := b.num, op := op, ctx := cmd.ctx, va := va, pa := pa, home := e.home, src := cluOf c, size := b.len
    ts := (s.core c).time, snap := 0, ordered := false, vbit := e.v, code := e.code, uncached := e.uncached, data := b.data, cmp := 0, dst := none
    ext := .vector, word := 0, issue := s.cycle
    reply := s.accessLatency (cluOf c) e.home pa - s.homeLatency (cluOf c) e.home / 2, queued := false, bad := none }

/-- A block's request to another core's scratchpad; slot 16 names the engine (R254). -/
def State.engineRemote (s : State) (c : CoreKey) (cmd : CopyCmd) (b : CopyBlock) (t : CoreKey) (off : Nat) (va : Word) (op : RemoteOp) : State :=
  s.sendAt 3 (cluOf c) (cluOf t) (s.cycle + s.oneWay c t) (senderRank c 16)
    (.remoteRequestArrival { thread := { core := c, slot := 16, gen := 0 }, id := b.num, target := t, off := off, va := va, op := op, data := b.data
                             dst := none, time := (s.core c).time, ctx := cmd.ctx, budget := 0, issue := s.cycle, word := 0, bad := none })

/-- The read of a block starts on its way. -/
def State.askRead (s : State) (c : CoreKey) (cmd : CopyCmd) (b : CopyBlock) (sd : Side) : State :=
  match sd with
  | .own _ => s.modCore c (fun k => { k with copy := { k.copy with port := k.copy.port ++ [(cmd.id, b.num, false)] } })
  | .remote t off => s.engineRemote c cmd b t off b.src (.load b.len .vector)
  | .global e _ =>
    let a := s.engineAccess c cmd b .load e b.src
    if e.uncached then s.sendAt 3 (cluOf c) e.home (s.cycle + s.homeLatency (cluOf c) e.home / 2) (senderRank c 16) (.homeLoad a)
    else s.postAt (s.cycle + 18) (senderRank c 16) (.clusterCacheAccess a)
  | _ => s

/-- What an attempt to read a piece came to. -/
inductive ReadStep where
  | read (s : State)
  | wait (s : State)
  | stop (s : State)

/-- The source of the rest of a piece's unit, judged with its first byte so that the unit is copied whole or not at all (R203, log 139). -/
def State.judgeSecond (s : State) (c : CoreKey) (cmd : CopyCmd) (p : Piece) : Side × State :=
  match cmd.second p with
  | none => (.weights, s)
  | some q => s.engineSide c cmd.ctx cmd.sup q.src false

/-- The engine reads one piece, its source judged before its destination. -/
def State.readPiece (s : State) (c : CoreKey) (cmd : CopyCmd) (p : Piece) : ReadStep :=
  match s.engineSide c cmd.ctx cmd.sup p.src false with
  | (.miss, s) => .wait s
  | (.fault x, s) => .stop (s.stopCmd c cmd p x false)
  | (sd, s) =>
  match s.judgeSecond c cmd p with
  | (.miss, s) => .wait s
  | (.fault x, s) => .stop (s.stopCmd c cmd ((cmd.second p).getD p) x false)
  | (_, s) =>
    match (if cmd.kind = .wsld then (Side.weights, s) else s.engineSide c cmd.ctx cmd.sup p.dst true) with
    | (.miss, s) => .wait s
    | (.fault x, s) => .stop (s.stopCmd c cmd p x true)
    | (dd, s) =>
      if s.sideHeld cmd.thread sd p.len || s.sideHeld cmd.thread dd p.len then .wait s
      else
        let (num, s) := s.takeFresh
        let to_ : Option TlbEntry := match dd with
          | .global e _ => some e
          | _ => none
        let b : CopyBlock := { num := num, src := p.src, dst := p.dst, len := p.len, index := p.index, to_ := to_, data := 0, poison := none
                               read := false, sent := false, asked := true }
        let s := s.modCmd c cmd.id (fun x => { x with blocks := x.blocks ++ [b], next := x.next + p.units, credit := x.credit - p.len })
        .read (s.askRead c cmd b sd)

/-- The engine reads pieces of a command while the cycle's bytes last; false when it stopped or must wait. -/
def State.readPieces (s : State) (c : CoreKey) (cmd : Nat) : Nat → Bool × State
  | 0 => (true, s)
  | n + 1 =>
    match (s.core c).copyCmd? cmd with
    | none => (true, s)
    | some x =>
      let p := x.piece (s.core c)
      if x.total ≤ x.next ∨ x.credit < max 1 p.len then (true, s)
      else match s.readPiece c x p with
        | .read s => s.readPieces c cmd n
        | .wait s => (false, s)
        | .stop s => (false, s)

/-- The command that reads: started, with pieces left. -/
def CopyEngine.reader (e : CopyEngine) : Option CopyCmd := e.cmds.find? (fun x => x.started && x.next < x.total)

/-- The engine reads again in a later cycle, once. -/
def State.readLater (s : State) (c : CoreKey) : State :=
  if s.agenda.any (fun p => p.ev = .copyBlockRead c) then s else s.postAt (s.cycle + 1) (senderRank c 16) (.copyBlockRead c)

/-- The copy engine reads at up to 64 bytes in a cycle; the next command may start when the last read has been issued (R200, R273). -/
def execCopyBlockRead (core : CoreKey) (s : State) : Result :=
  match (s.core core).copy.reader with
  | none => .next s
  | some cmd =>
    if (s.core core).copyHalted cmd.id then .next s
    else
      let (_, s) := (s.modCmd core cmd.id (fun x => { x with credit := 64 })).readPieces core cmd.id 64
      match (s.core core).copy.reader with
      | some x =>
        if x.id = cmd.id then .next (if x.stopped.isSome then s else s.readLater core)
        else .next (s.post (4 * s.cycle + 2) 0 (.copyCommandStart core))
      | none => .next (s.post (4 * s.cycle + 2) 0 (.copyCommandStart core))

/-! ### Starting and going on -/

/-- What a stop kept from being performed is taken up again: a read is asked for, a write is tried (R203). -/
def State.takeUp (s : State) (c : CoreKey) (cmd : CopyCmd) (b : CopyBlock) : State :=
  if b.asked then s
  else
    let s := s.modBlock c cmd.id b.num (fun x => { x with asked := true })
    if b.read then s.post s.now (senderRank c 16) (.copyBlockWrite c cmd.id b.num)
    else
      match s.engineSide c cmd.ctx cmd.sup b.src false with
      | (.miss, s) => (s.modBlock c cmd.id b.num (fun x => { x with asked := false })).post (4 * (s.cycle + 1) + 2) 0 (.copyCommandStart c)
      | (.fault x, s) => s.stopCmd c cmd { src := b.src, dst := b.dst, len := b.len, index := b.index, units := 0 } x false
      | (sd, s) => s.askRead c cmd b sd

/-- Once no command is stopped, what was withheld goes on, and the next command starts when every earlier one has issued its last read (R200, R204); from its start it is outstanding no more (R26; DESIGN CHOICE between R26 and R187, log 138). -/
def execCopyCommandStart (core : CoreKey) (s : State) : Result :=
  let k := s.core core
  if k.copy.cmds.any (fun x => x.stopped.isSome) then .next s
  else
    let s := (k.copy.cmds.flatMap (fun x => x.blocks.map (fun b => (x, b)))).foldl (fun s (x, b) => s.takeUp core x b) s
    let s := if k.copy.reader.isSome then s.readLater core else s
    match k.copy.cmds.find? (fun x => !x.started) with
    | none => .next s
    | some x =>
      if k.copy.reader.isSome then .next s
      else
        let s := (s.modCmd core x.id (fun y => { y with started := true })).finish x.thread x.id
        .next (s.readLater core)

/-! ### Counting (R205, R207) -/

/-- A sync word after b bytes arrive (R205). -/
def syncArrive (w b : Nat) : Nat :=
  let target := w % 2 ^ 56
  let count := (w / 2 ^ 56 % 2 ^ 56 + b) % 2 ^ 56
  let gen := w / 2 ^ 112 % 2 ^ 16
  if target = 0 then target + count * 2 ^ 56 + gen * 2 ^ 112
  else target + count % target * 2 ^ 56 + (gen + count / target) % 2 ^ 16 * 2 ^ 112

/-- A sync word of a core's scratchpad. -/
def Core.syncWord (k : Core) (off : Nat) : Nat := bytesNat (k.spadRead off 16)

/-- Bytes arrive at a sync word (R205). -/
def State.syncCount (s : State) (c : CoreKey) (off b : Nat) : State :=
  s.spadDeliver c off (natBytes 16 (syncArrive ((s.core c).syncWord off) b)) none

/-- A signed 56-bit count (R131). -/
def wrap56 (x : Int) : Int := let y := x % 2 ^ 56; if 2 ^ 55 ≤ y then y - 2 ^ 56 else y

/-- A barrier's pending bytes change, and its phase is judged (R131, R207). -/
def State.addPending (s : State) (b : BarRef) (x : Int) : State :=
  (s.modBarrier b (fun k => { k with count := wrap56 (k.count + x) })).post s.now 0 (.barrierPhaseCompletion b)

/-- A block of a command counts at its counting core and at its barrier (R205, R207); a thread without a placement has no barrier instance (log 38). -/
def State.countBlock (s : State) (cmd : CopyCmd) (counting : CoreKey) (n : Nat) : State :=
  let s := if gcSwe cmd.gc then s.syncCount counting (gcSync cmd.gc) n else s
  match gcBe cmd.gc, cmd.place, scopeOf (gcBsc cmd.gc) with
  | true, some p, some sc => s.addPending { launch := cmd.launch, scope := sc, inst := instanceOf sc p, b := gcBn cmd.gc } (-(n : Int))
  | _, _, _ => s

/-! ### Writing a block -/

/-- A command whose pieces are all written and acknowledged is complete (R200). -/
def State.judgeCmd (s : State) (c : CoreKey) (cmd : Nat) : State :=
  match (s.core c).copyCmd? cmd with
  | none => s
  | some x =>
    if x.total ≤ x.next ∧ x.blocks.isEmpty ∧ x.stopped.isNone then
      (s.modCore c (fun k => k.endCmd cmd s.cycle)).post (4 * s.cycle + 2) 0 (.copyCommandStart c)
    else s

/-- A block is done with. -/
def State.endBlock (s : State) (c : CoreKey) (cmd num : Nat) : State :=
  (s.modCmd c cmd (fun x => { x with blocks := x.blocks.filter (fun b => b.num != num) })).judgeCmd c cmd

/-- A block is performed at a scratchpad: bytes, poison, time, count (R205, R267, R391). -/
def State.blockToSpad (s : State) (cmd : CopyCmd) (b : CopyBlock) (t : CoreKey) (off : Nat) : State :=
  (s.spadDeliver t off (vBytes b.len b.data) b.poison).countBlock cmd t b.len

/-- A group of 22 bytes that the check of wsld refuses (R199). -/
def groupFails (g : List Byte) : Bool :=
  let bits := bytesNat (g.take 6)
  let p := (List.range 48).countP (fun i => bits.testBit i)
  16 < p || (List.range 16).any (fun m => (g.getD (6 + m) 0 == 0) == decide (m < p))

/-- The first failing group of a sparse record: 768 groups of 22 bytes (R184, R199). -/
def sparseFault (bytes : List Byte) : Option Nat :=
  ((List.range 768).map (fun i => 22 * i)).find? (fun o => o + 22 ≤ bytes.length && groupFails ((bytes.drop o).take 22))

/-- The bytes that a command has read, in order. -/
def CopyCmd.image (c : CopyCmd) : List Byte := c.blocks.flatMap (fun b => vBytes b.len b.data)

/-- Cycles until the refresh window in progress ends, when it refreshes the bank of a weight-store byte; 0 otherwise (R260). -/
def refreshWait (cyc off : Nat) : Nat :=
  if cyc % 2048 < 24 ∧ off / 64 % 64 / 4 = cyc / 2048 % 16 then 24 - cyc % 2048 else 0

/-- The pieces of one unit of the destination become one block once the last of them has been read: the block, in the place of its first piece (R200). -/
def State.joinUnit (s : State) (c : CoreKey) (cmd : CopyCmd) (b : CopyBlock) : Option (CopyBlock × State) :=
  let piece (x : CopyBlock) : Piece := { src := x.src, dst := x.dst, len := x.len, index := x.index, units := 0 }
  let lo := if cmd.kind = .wsld then b.index - b.index % 64 else cmd.unitStart (piece b)
  let hi := cmd.unitEnd (piece b)
  let parts := cmd.blocks.filter (fun x => lo ≤ x.index && x.index < hi && x.read && !x.sent)
  match parts with
  | [] => none
  | f :: _ =>
    if (parts.map CopyBlock.len).sum < hi - lo then none
    else
      let j : CopyBlock := { f with
        num := b.num, len := hi - lo, data := BitVec.ofNat 512 (bytesNat (parts.flatMap (fun x => vBytes x.len x.data)))
        poison := parts.findSome? CopyBlock.poison }
      some (j, s.modCmd c cmd.id (fun x => { x with blocks := x.blocks.filterMap (fun y =>
        if y.num = f.num then some j else if parts.any (fun z => z.num = y.num) then none else some y) }))

/-- A block is written into the weight store (R199, R260, R336). -/
def State.blockToWeights (s : State) (c : CoreKey) (cmd : CopyCmd) (b : CopyBlock) : State :=
  let off := cmd.dst.toNat + b.index
  let s := s.modClu (cluOf c) (fun k => { k with
    weights := Memory.setN k.weights off (vBytes b.len b.data), weightCtx := some cmd.ctx
    weightPoison := match b.poison with
      | some src => (List.range ((off + b.len - 1) / 8 + 1 - off / 8)).foldl (fun l i => setKey l (off / 8 + i) src) (clearPoison k.weightPoison off b.len)
      | none => clearPoison k.weightPoison off b.len })
  (s.countBlock cmd c b.len).endBlock c cmd.id b.num

/-- A block of wsld: a sparse record is checked whole before its first byte is written; blocks are written one in a cycle, and a refreshing bank delays its block and the rest of the command (R199, R260). -/
def State.writeWeights (s : State) (c : CoreKey) (cmd : CopyCmd) (b : CopyBlock) : State :=
  if gcEsz cmd.gc = 1 ∧ cmd.dst2 = 0 then
    if cmd.next < cmd.total ∨ cmd.blocks.any (fun x => !x.read) then s
    else match sparseFault cmd.image with
      | some o =>
        let v : TrapVal := { cause := 0x0A5, tval := cmd.src + BitVec.ofNat 64 o, tinf := BitVec.ofNat 64 o }
        (s.modCore c (fun k => { (k.endCmd cmd.id s.cycle) with copy := { (k.endCmd cmd.id s.cycle).copy with faults := k.copy.faults ++ [(cmd.thread, v)] } })).post
          (4 * s.cycle + 2) 0 (.copyCommandStart c)
      | none =>
        let s := s.modCmd c cmd.id (fun x => { x with dst2 := 1, writeAt := s.cycle + 1 })
        cmd.blocks.foldl (fun s x => s.post s.now (senderRank c 16) (.copyBlockWrite c cmd.id x.num)) s
  else match s.joinUnit c cmd b with
  | none => s
  | some (b, s) =>
    let due := max (s.cycle + cmd.slip) cmd.writeAt
    let w := refreshWait (s.cyc (pkgOf c) + (due - s.cycle)) (cmd.dst.toNat + b.index)
    let s := s.modCmd c cmd.id (fun x => { x with slip := x.slip + w, writeAt := due + w + 1 })
    (s.modBlock c cmd.id b.num (fun y => { y with sent := true })).post (max s.now (4 * (due + w))) (senderRank c 16) (.copyBlockWrite c cmd.id b.num)

/-- A block that lost its translation to a shootdown while it was withheld translates again before it is written (R203, R349). -/
def State.translateAgain (s : State) (c : CoreKey) (cmd : CopyCmd) (b : CopyBlock) : State :=
  match s.engineSide c cmd.ctx cmd.sup b.dst true with
  | (.global e _, s) => (s.modBlock c cmd.id b.num (fun y => { y with to_ := some e })).post s.now (senderRank c 16) (.copyBlockWrite c cmd.id b.num)
  | (.fault x, s) => s.stopCmd c cmd { src := b.src, dst := b.dst, len := b.len, index := b.index, units := 0 } x true
  | (_, s) => s.postAt (s.cycle + 1) (senderRank c 16) (.copyBlockWrite c cmd.id b.num)

/-- A block whose bytes have come is written: to the own scratchpad through the remote port (at once where the port has read it), to another core, to a home, or to the weight store (R200, R254, R273). -/
def execCopyBlockWrite (core : CoreKey) (cmd : Nat) (block : Nat) (s : State) : Result :=
  match (s.core core).copyCmd? cmd, s.block? core cmd block with
  | some x, some b =>
    if !b.read || (b.sent && x.kind != .wsld) then .next s
    else match s.withholdBlock core cmd block with
    | some s => .next s
    | none =>
      if x.kind = .wsld then .next (if b.sent then s.blockToWeights core x b else s.writeWeights core x b)
      else match s.classify core b.dst, b.to_ with
        | .spad t off, _ =>
          if t = core then
            match s.classify core b.src with
            | .spad u _ =>
              if u = core then
                if s.phase < 2 then .next (s.post (4 * s.cycle + 2) (senderRank core 16) (.copyBlockWrite core cmd block))
                else .next ((s.blockToSpad x b core off).endBlock core cmd block)
              else .next (s.modCore core (fun k => { k with copy := { k.copy with port := k.copy.port ++ [(cmd, block, true)] } }))
            | _ => .next (s.modCore core (fun k => { k with copy := { k.copy with port := k.copy.port ++ [(cmd, block, true)] } }))
          else .next ((s.modBlock core cmd block (fun y => { y with sent := true })).engineRemote core x b t off b.dst (.store b.len))
        | _, some e =>
          (match (if x.kind = .cpy ∨ x.kind = .cpy2 then s.joinUnit core x b else some (b, s)) with
          | none => .next s
          | some (b, s) =>
            .next ((s.modBlock core cmd block (fun y => { y with sent := true })).sendAt 3 (cluOf core) e.home (s.cycle + s.homeLatency (cluOf core) e.home / 2)
              (senderRank core 16) (.homeStore (s.engineAccess core x b .store e b.dst))))
        | _, none => .next (s.translateAgain core x b)
  | _, _ => .next s

/-- The remote port performs a block of the core's own engine (R254): its read, ready after 8 cycles (R200), or its write. -/
def State.portBlock (s : State) (c : CoreKey) (cmd num : Nat) (write : Bool) : State :=
  match (s.core c).copyCmd? cmd, s.block? c cmd num with
  | some x, some b =>
    match s.withholdBlock c cmd num with
    | some s => s
    | none =>
      if write then
        match s.classify c b.dst with
        | .spad _ off => (s.blockToSpad x b c off).endBlock c cmd num
        | _ => s
      else
        match s.classify c b.src with
        | .spad _ off =>
          let k := s.core c
          (s.modBlock c cmd num (fun y => { y with data := k.spadVal off b.len, poison := k.spadPoisonIn off b.len, read := true })).postAt
            (s.cycle + 8) (senderRank c 16) (.copyBlockWrite c cmd num)
        | _ => s
  | _, _ => s

/-- The acknowledgement of a block: a global one counts now, at the issuing core (R200, R205, R268). -/
def execCopyBlockAcknowledgement (core : CoreKey) (cmd : Nat) (block : Nat) (wts : Nat) (s : State) : Result :=
  let s := s.raiseTime core wts
  match (s.core core).copyCmd? cmd, s.block? core cmd block with
  | some x, some b =>
    let s := if b.to_.isSome then s.countBlock x core b.len else s
    .next (s.endBlock core cmd block)
  | _, _ => .next s

/-! ### cwait, gres, gcan (R201, R204) -/

/-- The fault that a thread's cwait takes: of a command that completed with 0x0A5, else of the stopped one (R201). -/
def Core.copyFault (k : Core) (t : ThreadRef) : Option TrapVal :=
  ((k.copy.faults.find? (fun e => e.1 = t)).map Prod.snd).or
    ((k.copy.cmds.find? (fun c => c.thread = t && c.hasStopped)).bind CopyCmd.stopped)

/-- A thread's copy commands have all completed or stopped; those that stand behind a stopped one of them count as stopped with it (R201, R203, log 39). -/
def Core.copyDone (k : Core) (t : ThreadRef) : Bool :=
  match k.copy.cmds.find? (fun c => c.thread = t) with
  | none => true
  | some c => c.hasStopped

/-- cwait parks until the thread's commands have completed or stopped, and until the cycle after; then a fault of one of them is its trap (R201, R240). -/
def execCwait (d : Fin 32) (s : State) : Result :=
  let t := s.meRef
  let k := s.myCore
  if !k.copyDone t || s.cycle < s.me.copyEnd then .next s.park
  else match k.copyFault t with
  | some v =>
    let s := if v.cause = 0x0A5 then s.modMyCore (fun k => { k with copy := { k.copy with faults := k.copy.faults.eraseP (fun e => e.1 = t) } }) else s
    .next (s.trap v.cause v.tval v.tinf)
  | none =>
    let bit : Word := if s.me.cancelled then 1 else 0
    .next ((s.modMe (fun sl => { sl with cancelled := false })).putG d bit)

/-- The thread has a stopped command. -/
def State.hasStopped (s : State) : Bool := s.myCore.copy.cmds.any (fun c => c.thread = s.meRef && c.hasStopped)

/-- gres resumes the stopped command where it stopped (R204). -/
def execGres (s : State) : Result :=
  if !s.hasStopped then .next (s.trap 0x0A4 0 0)
  else
    let t := s.meRef
    .next ((s.modMyCore (fun k => { k with copy := { k.copy with
      cmds := k.copy.cmds.map (fun c => if c.thread = t && c.hasStopped then { c with stopped := none } else c) } })).post (4 * s.cycle + 2) 0 (.copyCommandStart s.cur.core))

/-- gcan ends the stopped command (R204). -/
def execGcan (s : State) : Result :=
  if !s.hasStopped then .next (s.trap 0x0A4 0 0)
  else .next ((s.cancelStopped s.meRef).modMe (fun sl => { sl with cancelled := true }))

/-! ### Sync words (R206) -/

/-- The sync word that gs names: its offset, or the trap. -/
def State.syncPlace (s : State) (gs : Word) (store : Bool) : TrapVal ⊕ Nat :=
  match s.classify s.cur.core gs with
  | .bad cause => .inl (trapAt cause gs)
  | .global => .inl (trapAt 0x063 gs)
  | .spad c off =>
    if c ≠ s.cur.core then .inl (trapAt 0x063 gs)
    else if off % 16 ≠ 0 then .inl (trapAt 0x061 gs)
    else match s.lockTrap s.meRef (.spad c) off 16 store gs with
      | some v => .inl v
      | none => .inr off

/-- swset arms a sync word (R205, R206). -/
def execSwset (a b : Fin 32) (s : State) : Result :=
  match s.syncPlace (s.gval a) true with
  | .inl v => .next (s.trapV v)
  | .inr off =>
    let w := s.myCore.syncWord off
    let target := wordBits (s.gval b) 55 0
    .next (s.spadWrite s.cur.core off (natBytes 16 (syncArrive (w / 2 ^ 56 * 2 ^ 56 + target) 0)))

/-- The generation of a sync word. -/
def Core.syncGen (k : Core) (off : Nat) : Nat := k.syncWord off / 2 ^ 112

/-- swwait parks while GEN = gg<15:0>; a change in its issue cycle counts as earlier, so it is judged at the end of the cycle (R206). -/
def execSwwait (d a b : Fin 32) (s : State) : Result :=
  match s.syncPlace (s.gval a) false with
  | .inl v => .next (s.trapV v)
  | .inr off =>
    let gen := s.myCore.syncGen off
    if gen ≠ wordBits (s.gval b) 15 0 then .next (s.putG d (BitVec.ofNat 64 gen))
    else .next ((s.wait (.syncWait off gen d)).postLimit s.cur.start .syncWordWaitLimit)

/-- A parked swwait reaches its limit (R206). -/
def execSyncWordWaitLimit (t : ThreadRef) (id : Nat) (s : State) : Result :=
  match s.waiting? t id with
  | none => .next s
  | some b =>
    match b.kind, b.cur.instr with
    | .syncWait _ _ _, .swwait _ a _ => .next (s.trapWaiting t b { cause := 0x104, tval := (b.cur.regs.getG a).val, tinf := 0 })
    | _, _ => .next s

/-- The words of swwait whose generation has changed are taken up again at the end of a cycle (R206). -/
def State.wakeSync (s : State) : State :=
  s.cores.foldl (fun s (c, k) => (List.range 16).foldl (fun s i =>
    match (k.slot i).block with
    | some b =>
      match b.kind with
      | .syncWait off gen _ =>
        if k.syncGen off ≠ gen then { s with resumes := s.resumes ++ [{ due := s.now, thread := s.refOf c i, id := b.id, cur := { b.cur with stage := 1 } }] } else s
      | _ => s
    | none => s) s) s

end Sys2Proof.Machine
end

