-- ==== Sys2Proof/Machine/Remote.lean ====
section
/-! DEFINITION. What crosses between cores: remote scratchpad requests (R254, R341, R414), waiting tagged operations (R117–R119), monitors (R134, R135), barriers (R131–R133) and mailboxes (R140). -/

namespace Sys2Proof.Machine

open Sys2Proof

/-! ### Requests at the target's FIFO (R254, R414) -/

/-- A request of a copy engine; its number is that of a block. -/
def fromEngine (r : RemoteReq) : Bool := r.thread.slot == 16

/-- A refused request: it is resent 64 cycles after its refusal is back, or its budget ends first (R119, R414). -/
def State.refuseRemote (s : State) (r : RemoteReq) : State :=
  let back := s.cycle + s.oneWay r.target r.thread.core
  let rank := senderRank r.thread.core r.thread.slot
  match r.op with
  | .message _ _ _ _ => s.sendAt 2 (cluOf r.target) (cluOf r.thread.core) back (senderRank r.target 16) (.messageReply r .fifoFull)
  | .tagged _ =>
    if r.issue + r.budget ≤ back + 64 then s.postAt (max back (r.issue + r.budget)) (2 ^ 61) (.taggedWaitLimit r.thread r.id)
    else s.postAt (back + 64) rank (.refusalResend (.remote r))
  | _ => s.postAt (back + 64) rank (.refusalResend (.remote r))

/-- A request reaches its target: the FIFO of 64 takes it, and the budget of a tagged one begins to run there (R119, R254). -/
def execRemoteRequestArrival (r : RemoteReq) (s : State) : Result :=
  if 64 ≤ (s.core r.target).fifo.length then .next (s.refuseRemote r)
  else
    let s := s.modCore r.target (fun k => { k with fifo := k.fifo ++ [r] })
    match r.op with
    | .tagged _ => .next (s.post (4 * (s.cycle + r.budget) + 3) 0 (.taggedBudgetExpiry r.target r.id))
    | _ => .next s

/-- A refused request is sent again (R414); a thread that is to stop, or has an interrupt to take, does that instead. -/
def execRefusalResend (r : Resend) (s : State) : Result :=
  match r with
  | .context c =>
    (match s.waiting? c.sender c.id with
      | none => .next s
      | some b =>
        match b.kind with
        | .context m d _ =>
          let t := c.sender
          let s := s.modSlot t.core t.slot (fun sl => { sl with block := some { b with kind := .context m d false } })
          .next (s.sendAt 4 (cluOf t.core) (cluOf c.target) (s.cycle + s.contextTravel t.core c.target) (senderRank t.core t.slot) (.contextArrival c))
        | _ => .next s)
  | .remote r =>
    let t := r.thread
    let send (s : State) (r : RemoteReq) : State :=
      s.sendAt (if r.op matches .message _ _ _ _ then 4 else 3) (cluOf t.core) (cluOf r.target) (s.cycle + s.oneWay t.core r.target) (senderRank t.core t.slot) (.remoteRequestArrival r)
    match r.op with
    | .message _ _ _ _ =>
      (match s.waiting? t r.id with
        | some b =>
          .next (send (s.modSlot t.core t.slot (fun sl => { sl with block := some { b with kind := .message r false } })) { r with budget := 1 })
        | none => .next s)
    | .tagged _ =>
      (match s.waiting? t r.id with
        | none => .next s
        | some b =>
          if (s.slot t.core t.slot).stopping then .next (s.beginExit t.core t.slot)
          else match s.takeInterrupt t.core t.slot b.cur.pc with
            | some s => .next s
            | none =>
              .next (send s { r with time := (s.core t.core).time, budget := r.issue + r.budget - s.cycle, issue := s.cycle }))
    | _ => .next (send s { r with time := (s.core t.core).time })

/-! ### The remote port (R254, R341) -/

/-- The target performs a request for the requester's context (R341). -/
def State.admitsReq (s : State) (r : RemoteReq) : Bool := r.thread.core == r.target || s.admitsCtx r.target r.ctx

/-- The mark of an access that the target's context forbids (R341). -/
def wrongContext : Mark := { cause := 0x062, info := 0 }

/-- A tagged request is performed at its word, in both cores of a mirrored pair: what it loaded, and the state after (R116, R267). -/
def State.performRemoteTag (s : State) (c : CoreKey) (off : Nat) (op : TagOp) (data ea : Word) (time : Nat) : (Word × Option Mark) × State :=
  let s := s.raiseTime c time
  let r := (s.pairOf c).foldr (fun d (_, s) => s.performTag d off op data ea) ((0, none), s)
  (r.1, s.unlogged c (fun _ => r.2))

/-- The reply of a tagged request (R117, R267). -/
def State.replyTag (s : State) (from_ : CoreKey) (t : ThreadRef) (id : Nat) (x : Word) (m : Option Mark) (time : Nat) : State :=
  s.sendAt 2 (cluOf from_) (cluOf t.core) (s.cycle + s.oneWay from_ t.core) (senderRank from_ 16) (.taggedReply t id x m time)

/-- A tagged operation that its target's context forbids (R341). -/
def State.denyTag (s : State) (c : CoreKey) (op : TagOp) (t : ThreadRef) (id : Nat) (ea : Word) : State :=
  if tagLoads op then s.replyTag c t id ea (some wrongContext) 0 else (s.drop c 1).replyTag c t id 0 none 0

/-- A tagged request at the port: performed, kept waiting in one of 32 entries, or refused (R117, R118). -/
def State.portTag (s : State) (r : RemoteReq) (op : TagOp) : State :=
  let c := r.target
  if !s.admitsReq r then s.denyTag c op r.thread r.id r.va
  else if s.tagReady c r.off op then
    let ((x, m), s) := s.performRemoteTag c r.off op (r.data.setWidth 64) r.va r.time
    let s := match r.bad, tagLoads op with
      | some src, false => (s.pairOf c).foldl (fun (s : State) d => s.spadPoisonAt d r.off 8 src) s
      | _, _ => s
    s.replyTag c r.thread r.id x m (s.core c).time
  else if 32 ≤ (s.core c).tagWait.countP (fun x => !x.local_) then s.refuseRemote r
  else
    let x : TagEntry := { id := r.id, off := r.off, va := r.va, op := op, data := r.data.setWidth 64, thread := r.thread, block := r.id, local_ := false
                          time := r.time, ctx := r.ctx }
    s.modCore c (fun k => { k with tagWait := k.tagWait ++ [x] })

/-- A load at the port: the reply fills the destination, and carries the target's time (R105, R267, R341). -/
def State.portLoad (s : State) (r : RemoteReq) (n : Nat) (ext : Ext) : State :=
  let k := s.core r.target
  let ok := s.admitsReq r
  let (x, m) := if ok then k.loadSpad r.off n ext r.va else (r.va.setWidth 512, some wrongContext)
  match r.dst with
  | none => s
  | some d =>
    s.sendAt 2 (cluOf r.target) (cluOf r.thread.core) (s.cycle + s.oneWay r.target r.thread.core) (completionRank r.issue r.word)
      (.longOperationCompletion { thread := r.thread, id := r.id, dst := d, va := r.va, val := x, mark := m, raise := if ok then k.time else 0, issue := r.issue, word := r.word })

/-- A store at the port; its acknowledgement returns also when it is discarded (R105, R267, R341). -/
def State.portStore (s : State) (r : RemoteReq) (n : Nat) : State :=
  let s := if s.admitsReq r then (s.raiseTime r.target r.time).spadDeliver r.target r.off (vBytes n r.data) r.bad else s.drop r.target 1
  s.sendAt 2 (cluOf r.target) (cluOf r.thread.core) (s.cycle + s.oneWay r.target r.thread.core) (senderRank r.target 16) (.storeAcknowledgement { agent := .thread r.thread, id := r.id, wts := 0, ctx := r.ctx, va := r.va })

/-- A monitor is armed on a block of the target's scratchpad: writes after this access latch it (R134). -/
def State.portArm (s : State) (r : RemoteReq) (m : Nat) : State :=
  let t := r.thread
  if !s.admitsReq r then s.replyTag r.target t r.id r.va (some wrongContext) 0
  else
    let s := s.modSlot t.core t.slot (fun sl =>
      if sl.gen = t.gen then sl.setMonitor m (some { at_ := .spad r.target (r.off / 64), va := r.va, from_ := s.cycle + 1, latched := false }) else sl)
    s.sendAt 2 (cluOf r.target) (cluOf t.core) (s.cycle + s.oneWay r.target t.core) (senderRank r.target 16) (.monitorArmAcknowledgement t r.id m 0)

/-- The block of another core's copy engine that a request stands for, with its command. -/
def State.engineBlock? (s : State) (r : RemoteReq) : Option (CopyCmd × CopyBlock) :=
  (s.core r.thread.core).copy.cmds.findSome? (fun x => (x.blocks.find? (fun b => b.num = r.id)).map (fun b => (x, b)))

/-- A block of another core's engine at the port: read or written here, or its command stops with 0x062 (R200, R203, R267, R341). -/
def State.portEngine (s : State) (r : RemoteReq) : State :=
  let c := r.thread.core
  match s.engineBlock? r with
  | none => s
  | some (x, b) =>
    let store : Bool := match r.op with
      | .store _ => true
      | _ => false
    match s.withholdBlock c x.id b.num with
    | some s => s
    | none =>
      if !s.admitsReq r then s.stopCmd c x { src := b.src, dst := b.dst, len := b.len, index := b.index, units := 0 } 0x062 store
      else if store then
        let s := (s.raiseTime r.target r.time).blockToSpad x b r.target r.off
        s.send 2 (cluOf r.target) (cluOf c) (4 * (s.cycle + s.oneWay r.target c) + 2) 0 (.copyBlockAcknowledgement c x.id b.num 0)
      else
        let k := s.core r.target
        (s.modBlock c x.id b.num (fun y => { y with data := k.spadVal r.off b.len, poison := k.spadPoisonIn r.off b.len, read := true })).sendAt 2 (cluOf r.target) (cluOf c)
          (s.cycle + s.oneWay r.target c) (senderRank c 16) (.copyBlockWrite c x.id b.num)

/-- The port performs a request. -/
def State.portRequest (s : State) (r : RemoteReq) : State :=
  if fromEngine r then s.portEngine r
  else match r.op with
  | .load n ext => s.portLoad r n ext
  | .store n => s.portStore r n
  | .tagged op => s.portTag r op
  | .arm m => s.portArm r m
  | .message _ _ _ _ =>
    if s.admitsReq r then s.post s.now 0 (.messageArrival r)
    else s.sendAt 2 (cluOf r.target) (cluOf r.thread.core) (s.cycle + s.oneWay r.target r.thread.core) (senderRank r.target 16) (.messageReply r .refusedListFull)

/-- What the remote port takes at once from its engine's queue: blocks that go the same way, as long as they are 64 bytes or fewer together (R254, log 140). -/
def State.portGroup (s : State) (c : CoreKey) : List (Nat × Nat × Bool) :=
  match (s.core c).copy.port with
  | [] => []
  | x :: rest =>
    let size (e : Nat × Nat × Bool) : Nat := ((s.block? c e.1 e.2.1).map CopyBlock.len).getD 0
    (rest.foldl (fun (acc : List (Nat × Nat × Bool) × Nat × Bool) e =>
      if acc.2.2 && e.1 = x.1 && e.2.2 = x.2.2 && acc.2.1 + size e ≤ 64 then (acc.1 ++ [e], acc.2.1 + size e, true) else (acc.1, acc.2.1, false))
      ([x], size x, true)).1

/-- The bytes of an engine's request. -/
def reqBytes (r : RemoteReq) : Nat :=
  match r.op with
  | .load n _ => n
  | .store n => n
  | _ => 64

/-- A request stores. -/
def reqStores (r : RemoteReq) : Bool :=
  match r.op with
  | .store _ => true
  | _ => false

/-- The same from the FIFO: one request, or neighbouring requests of one engine (log 140). -/
def fifoGroup : List RemoteReq → List RemoteReq
  | [] => []
  | x :: rest =>
    if !fromEngine x then [x]
    else (rest.foldl (fun (acc : List RemoteReq × Nat × Bool) r =>
      if acc.2.2 && r.thread == x.thread && reqStores r == reqStores x && acc.2.1 + reqBytes r ≤ 64 then (acc.1 ++ [r], acc.2.1 + reqBytes r, true) else (acc.1, acc.2.1, false))
      ([x], reqBytes x, true)).1

/-- The remote port serves its own engine. -/
def State.serveEngine (s : State) (c : CoreKey) : State :=
  let l := s.portGroup c
  l.foldl (fun s e => s.portBlock c e.1 e.2.1 e.2.2) (s.modCore c (fun k => { k with copy := { k.copy with port := k.copy.port.drop l.length } }))

/-- The remote port serves its FIFO. -/
def State.serveFifo (s : State) (c : CoreKey) : State :=
  let l := fifoGroup (s.core c).fifo
  l.foldl State.portRequest (s.modCore c (fun k => { k with fifo := k.fifo.drop l.length }))

/-- One access of the remote port: of the source that has something waiting, and in turn when both have (R254). An access from outside a mirrored pair waits for a checkpoint of the pair (R395). -/
def execRemotePortAccess (core : CoreKey) (s : State) : Result :=
  let k := s.core core
  let fifo (s : State) : Result := match s.primaryOf core with
    | some p => if k.fifo.isEmpty || s.pairStopped p then .next (s.serveFifo core) else .next (s.wantCheckpoint p)
    | none => .next (s.serveFifo core)
  match k.fifo, k.copy.port with
  | _, [] => fifo s
  | [], _ :: _ => .next (s.serveEngine core)
  | _ :: _, _ :: _ =>
    if k.servedFifo then .next ((s.modCore core (fun k => { k with servedFifo := false })).serveEngine core)
    else fifo (s.modCore core (fun k => { k with servedFifo := true }))

/-! ### Waiting tagged operations (R117–R119) -/

/-- A result in a g register ends its thread's wait; the thread is ready some cycles later. -/
def State.endWithG (s : State) (t : ThreadRef) (gd : Fin 32) (x : Word) (m : Option Mark) (after : Nat) : State :=
  (s.endWait t (fun sl => { sl with regs := sl.regs.put (.g gd) (x.setWidth 512) m, readyAt := max sl.readyAt (s.cycle + after) }))

/-- A tagged load that acts as an acquire (R113, R116). -/
def tagAcquires : Instr → Bool
  | .ldfe _ _ r e => r && e != .th
  | .ldff _ _ r e => r && e != .th
  | _ => false

/-- A tagged operation ends: the thread is ready in the cycle after its result, and an acquire then waits for what is outstanding (R113, R117). -/
def State.endTagged (s : State) (t : ThreadRef) (b : Block) (gd : Fin 32) (x : Word) (m : Option Mark) : State :=
  let s := s.endWithG t gd x m 1
  if tagAcquires b.cur.instr then s.modPair t.core t.slot (fun sl => { sl with hold := true }) else s

/-- The oldest waiting operation of a word whose condition holds is performed (R117, R118, R341). -/
def execTaggedOperationPerformed (core : CoreKey) (entry : Nat) (s : State) : Result :=
  match (s.core core).tagWait.find? (fun x => x.id = entry) with
  | none => .next s
  | some x =>
    if !s.tagReady core x.off x.op then .next s
    else
      let s := s.modCore core (fun k => { k with tagWait := k.tagWait.filter (fun y => y.id != entry) })
      if x.local_ then
        let ((v, m), s) := (s.pairOf core).foldr (fun d (_, s) => s.performTag d x.off x.op x.data x.va) (((0, none), s) : (Word × Option Mark) × State)
        match s.waiting? x.thread x.block with
        | some b =>
          (match b.kind with
            | .tagLocal _ gd => .next (s.endTagged x.thread b gd v m)
            | _ => .next s)
        | none => .next s
      else if x.thread.core ≠ core ∧ !s.admitsCtx core x.ctx then .next (s.denyTag core x.op x.thread x.id x.va)
      else
        let ((v, m), s) := s.performRemoteTag core x.off x.op x.data x.va x.time
        .next (s.replyTag core x.thread x.id v m (s.core core).time)

/-- The waiting operations of a core that are performed now: of each word the oldest whose condition holds. -/
def State.readyTags (s : State) (c : CoreKey) : List Nat :=
  let ready := (s.core c).tagWait.filter (fun x => s.tagReady c x.off x.op)
  (ready.foldl (fun l x => if l.any (fun y => y.off / 8 = x.off / 8) then l else l ++ [x]) []).map TagEntry.id

/-- The reply of a remote tagged operation reaches its thread (R117, R267); one that finds another occupant is dropped (R247). -/
def execTaggedReply (t : ThreadRef) (id : Nat) (val : Word) (mark : Option Mark) (time : Nat) (s : State) : Result :=
  let s := s.raiseTime t.core time
  match s.waiting? t id with
  | none => .next (s.drop t.core 1)
  | some b =>
    match b.kind with
    | .tagRemote gd => .next (s.endTagged t b gd val mark)
    | .monitorArm gd _ => .next (s.endWithG t gd val mark 0)
    | _ => .next (s.drop t.core 1)

/-- The address of a tagged operation. -/
def tagAddress : Instr → Option (Fin 32)
  | .ldfe _ n _ _ => some n | .ldff _ n _ _ => some n | .stfe _ n _ _ => some n | .stf _ n _ _ => some n | .ste _ n _ _ => some n
  | _ => none

/-- A tagged operation passes its limit where it waits: locally, in its release wait, or at the thread for a resend (R119). -/
def execTaggedWaitLimit (t : ThreadRef) (id : Nat) (s : State) : Result :=
  match s.waiting? t id with
  | none => .next s
  | some b =>
    match tagAddress b.cur.instr with
    | none => .next s
    | some n => .next ((s.withdraw t b).trapWaiting t b { cause := 0x101, tval := (b.cur.regs.getG n).val, tinf := 0 })

/-- A remote tagged request is cancelled at its target, and the cancel goes back (R119, R229). -/
def execTaggedBudgetExpiry (core : CoreKey) (entry : Nat) (s : State) : Result :=
  let k := s.core core
  let gone (t : ThreadRef) : Result :=
    let s := s.modCore core (fun k => { k with tagWait := k.tagWait.filter (fun x => x.id != entry), fifo := k.fifo.filter (fun r => r.id != entry) })
    .next (s.sendAt 2 (cluOf core) (cluOf t.core) (s.cycle + s.oneWay core t.core) (senderRank core 16) (.taggedCancelArrival t entry))
  match k.tagWait.find? (fun x => x.id = entry), k.fifo.find? (fun r => r.id = entry) with
  | some x, _ => gone x.thread
  | none, some r => gone r.thread
  | none, none => .next s

/-- A cancel reaches the thread: it stops with its launch, takes a pending interrupt, or traps in the next cycle (R119, R229). -/
def execTaggedCancelArrival (t : ThreadRef) (id : Nat) (s : State) : Result :=
  match s.waiting? t id with
  | none => .next s
  | some b =>
    if (s.slot t.core t.slot).stopping then .next (s.beginExit t.core t.slot)
    else match s.takeInterrupt t.core t.slot b.cur.pc with
      | some s => .next s
      | none => .next (s.postAt (s.cycle + 1) 0 (.taggedWaitLimit t id))

/-! ### Monitors (R134, R135) -/

/-- The acknowledgement of an arming: cr.time rises, gd receives the index (R134). -/
def execMonitorArmAcknowledgement (t : ThreadRef) (id : Nat) (monitor : Nat) (wts : Nat) (s : State) : Result :=
  match s.waiting? t id with
  | none => .next s
  | some b =>
    match b.kind with
    | .monitorArm gd _ => .next ((s.raiseTime t.core wts).endWithG t gd (BitVec.ofNat 64 monitor) none 0)
    | _ => .next s

/-- A monitor watches a block: the physical block of a global monitor, the block number of a scratchpad one. -/
def Monitor.watches (m : Monitor) (block : PhysAddr) : Bool :=
  match m.at_ with
  | .mem b => b == block
  | .spad _ b => b == block

/-- A notification latches its monitor, raises the time of the core for a global block, and lets a parked wait be judged at the end of the cycle (R134, R135, R267); one that finds no such monitor is dropped (R247). -/
def execMonitorLatch (t : ThreadRef) (monitor : Nat) (block : PhysAddr) (wts : Nat) (s : State) : Result :=
  let sl := s.slot t.core t.slot
  match sl.monitor monitor with
  | none => .next (s.drop t.core 1)
  | some m =>
    if !s.matches_ t ∨ !m.watches block then .next (s.drop t.core 1)
    else
      let s := match m.at_ with
        | .mem _ => s.raiseTime t.core wts
        | .spad _ _ => s
      let latch (sl : Slot) : Slot := if (sl.monitor monitor).any (fun x => x.watches block) then sl.setMonitor monitor (some { m with latched := true }) else sl
      let s := (s.modSlot t.core t.slot latch).modCopies t.core t.slot latch
      match sl.block with
      | some b =>
        (match b.kind with
          | .wait _ => .next (s.post (4 * s.cycle + 3) 0 (.waitTimeout t b.id))
          | _ => .next s)
      | none => .next s

/-- A wait is judged: a latch ends it, or cr.mlim cycles do (R135). -/
def execWaitTimeout (t : ThreadRef) (id : Nat) (s : State) : Result :=
  match s.waiting? t id with
  | none => .next s
  | some b =>
    match b.kind with
    | .wait gd =>
      let sl := s.slot t.core t.slot
      let ready (sl : Slot) : Slot := { sl with readyAt := max sl.readyAt (s.cycle + 1) }
      if sl.latches ≠ 0 then .next (s.endWait t (fun sl => (ready (sl.putG gd (BitVec.ofNat 64 sl.latches))).clearLatches))
      else if sl.mlim ≠ 0 ∧ b.since + sl.mlim.toNat ≤ s.cycle then .next (s.endWait t (fun sl => ready (sl.putG gd 16)))
      else if sl.mlim ≠ 0 ∧ b.since = s.cycle then .next (s.post (4 * (b.since + sl.mlim.toNat) + 3) 0 (.waitTimeout t id))
      else .next s
    | _ => .next s

/-! ### Barriers (R131–R133) -/

/-- An arrival adds its bytes and its time to the phase in progress (R131, R267). -/
def execBarrierArrival (b : BarRef) (bytes : Word) (time : Nat) (t : ThreadRef) (s : State) : Result :=
  let idx := (s.slot t.core t.slot).idx
  let s := s.modBarrier b (fun x => { x with arrived := idx :: x.arrived.filter (· != idx), time := max x.time time })
  .next (s.addPending b (bytes.setWidth 56).toInt)

/-- The parties of an instance: the threads that the launch placed in it (R131). -/
def Launch.parties (l : Launch) (b : BarRef) : Nat := (l.cores.countP (fun c => instanceOf b.scope c = b.inst)) * l.tpc

/-- The parties that have arrived or retired (R131). -/
def Launch.arrivals (l : Launch) (b : Barrier) : Nat :=
  (b.arrived ++ (l.retired.filter (fun e => instanceOf b.bar.scope e.1 = b.bar.inst)).map Prod.snd).eraseDups.length

/-- Cycles from the completing event to the release (R132, R383); the pod's links in nanoseconds (R1, R411). -/
def State.releaseLatency (s : State) (b : BarRef) : Nat :=
  match b.scope with
  | .th => 8 | .co => 8 | .qd => 10 | .cl => 24 | .di => 60 | .pk => 200
  | .pd =>
    let p := ((s.launch? b.launch).map (fun l => l.die / 4)).getD 0
    200 + s.nsCycles p (3529 * (s.pkg p).podDiam)

/-- A phase completes when every party has arrived and no byte is pending; the next phase begins at 0 (R131). -/
def execBarrierPhaseCompletion (b : BarRef) (s : State) : Result :=
  match s.launch? b.launch with
  | none => .next s
  | some l =>
    let x := s.barrier b
    if x.arrived = [] ∨ x.count ≠ 0 ∨ l.arrivals x < l.parties b then .next s
    else
      let s := s.modBarrier b (fun x => { x with phase := x.phase + 1, arrived := [], count := 0, time := 0 })
      .next (s.postAt (s.cycle + s.releaseLatency b) 0 (.barrierRelease b x.phase x.time))

/-- The threads that wait for a phase of an instance, by core and slot. -/
def State.barrierWaiters (s : State) (b : BarRef) (phase : Nat) : List (CoreKey × Nat) :=
  s.cores.flatMap (fun (c, k) => ((List.range 16).filter (fun i => ((k.slot i).block.any (fun x => x.kind = .barWait b phase)))).map (fun i => (c, i)))

/-- The release reaches the waiting threads: their cores' time rises to the phase time, and each acts as an acquire (R132, R267). -/
def execBarrierRelease (b : BarRef) (phase : Nat) (time : Nat) (s : State) : Result :=
  .next ((s.barrierWaiters b phase).foldl (fun s (c, i) =>
    let t := s.refOf c i
    ((s.raiseTime c time).endWait t (fun sl => { sl with hold := true, readyAt := max sl.readyAt s.cycle }))) s)

/-- A parked barrier wait reaches its limit: the wait has no effect, an arrival stands (R133). -/
def execBarrierWaitLimit (t : ThreadRef) (id : Nat) (s : State) : Result :=
  match s.waiting? t id with
  | none => .next s
  | some b =>
    match b.kind with
    | .barWait r _ => .next ((s.withdraw t b).trapWaiting t b { cause := 0x103, tval := 0, tinf := BitVec.ofNat 64 r.b })
    | _ => .next s

/-! ### Mailboxes (R138–R141) -/

/-- A message's answer goes back to its sender. -/
def State.answerMessage (s : State) (r : RemoteReq) (after : Nat) (a : MsgAnswer) : State :=
  s.sendAt 2 (cluOf r.target) (cluOf r.thread.core) (s.cycle + s.oneWay r.target r.thread.core + after) (senderRank r.target 16) (.messageReply r a)

/-- The threads that wait in mrecv for a mailbox take it up again in the cycle after the acceptance, the lowest slot first (R141, R388, log 137); one that has issued in this cycle looks at the rings at its end. -/
def State.wakeReceivers (s : State) (c : CoreKey) (mb : Nat) : State :=
  let mine (b : Block) : Bool := b.kind = .receive && b.since < s.cycle && (match b.cur.instr with
    | .mrecv _ _ x => (b.cur.regs.getG x).val.toNat == mb
    | _ => false)
  (List.range 16).foldl (fun s i => match (s.slot c i).block with
    | some b => if mine b then { s with resumes := s.resumes ++ [{ due := 4 * (s.cycle + 1), thread := s.refOf c i, id := b.id, cur := { b.cur with stage := 1 } }] } else s
    | none => s) s

/-- A ring takes a message: its payload goes into the scratchpad, its header is kept beside it (R138, R267). -/
def State.acceptMessage (s : State) (r : RemoteReq) (ring len : Nat) (payload : List Byte) : State :=
  let s := s.raiseTime r.target r.time
  let s := s.unlogged r.target (fun s => (s.pairOf r.target).foldl (fun (s : State) c =>
    let place := (s.core c).ringTail.toList.getD ring 0
    let s := s.spadWrite c ((s.core c).ringAt ring place) payload
    let s := match r.bad with
      | some src => s.spadPoisonAt c ((s.core c).ringAt ring place) len src
      | none => s
    s.modCore c (fun k => { k with
      rings := k.rings ++ [{ ring := ring, place := place, sender := r.thread, len := len }]
      ringTail := k.ringTail.setIfInBounds ring ((place + 1) % 2 ^ k.mboxDepth.toNat) })) s)
  match s.primaryOf r.target with
  | some p => s.modCore p (fun k => { k with mirror := k.mirror.map (fun m => { m with ckRings := k.rings }) })
  | none => s

/-- A message at its target: refused for good, accepted, refused and listed, or refused with the list full (R140). -/
def execMessageArrival (r : RemoteReq) (s : State) : Result :=
  match r.op with
  | .message mb pri len payload =>
    let k := s.core r.target
    let ring := 2 * mb + pri.toNat
    if !k.mboxEn then .next (s.answerMessage r 1 .disabled)
    else if k.rings.countP (fun m => m.ring = ring) < 2 ^ k.mboxDepth.toNat then
      .next (((s.acceptMessage r ring len payload).wakeReceivers r.target mb).answerMessage r (ceilDiv len 32) .accepted)
    else if k.waiters.length < 16 then
      .next ((s.modCore r.target (fun k => { k with waiters := k.waiters ++ [{ thread := r.thread, id := r.id, ring := ring }] })).answerMessage r 0 .refusedListed)
    else .next (s.answerMessage r 0 .refusedListFull)
  | _ => .next s

/-- The values of the limit trap of a waiting msend or mrecv (R156). -/
def mailboxOperand (c : Cur) : Word :=
  match c.instr with
  | .msend _ b => (c.regs.getG b).val
  | .mrecv _ _ b => (c.regs.getG b).val
  | _ => 0

/-- A refused sender: it stops with its launch, takes an interrupt, traps past its limit, or waits to resend or for a notice (R140, R229, R414). -/
def State.refusedMessage (s : State) (r : RemoteReq) (b : Block) (again : Option Nat) : State :=
  let t := r.thread
  if (s.slot t.core t.slot).stopping then s.beginExit t.core t.slot
  else match s.takeInterrupt t.core t.slot b.cur.pc with
    | some s => s
    | none =>
      if b.since + (s.slot t.core t.slot).wlim.toNat ≤ s.cycle then s.trapWaiting t b { cause := 0x122, tval := mailboxOperand b.cur, tinf := 0 }
      else
        let s := s.modSlot t.core t.slot (fun sl => { sl with block := some { b with kind := .message r true } })
        match again with
        | some p => s.postAt (s.cycle + p) (senderRank t.core t.slot) (.refusalResend (.remote r))
        | none => s

/-- The answer to a message reaches its sender (R140); a sender that had been refused is ready in the cycle after (R240); one that finds another occupant is dropped (R247). -/
def execMessageReply (r : RemoteReq) (answer : MsgAnswer) (s : State) : Result :=
  let t := r.thread
  match s.waiting? t r.id with
  | none => .next (s.drop t.core 1)
  | some b =>
    match answer with
    | .accepted => .next ((s.endWait t (fun sl => { sl with readyAt := max sl.readyAt (s.cycle + r.budget) })))
    | .disabled => .next (s.trapWaiting t b { cause := 0x124, tval := mailboxOperand b.cur, tinf := 0 })
    | .refusedListed => .next (s.refusedMessage r b none)
    | .refusedListFull => .next (s.refusedMessage r b (some 256))
    | .fifoFull => .next (s.refusedMessage r b (some 64))

/-- A notice reaches a refused sender, which resends in the next cycle (R140). -/
def execMailboxNoticeArrival (t : ThreadRef) (id : Nat) (s : State) : Result :=
  match s.waiting? t id with
  | none => .next (s.drop t.core 1)
  | some b =>
    match b.kind with
    | .message r true => .next (s.postAt (s.cycle + 1) (senderRank t.core t.slot) (.refusalResend (.remote r)))
    | _ => .next (s.drop t.core 1)

/-- A sender still refused, or a receiver still waiting, traps at its limit (R140, R141). -/
def execMailboxWaitLimit (t : ThreadRef) (id : Nat) (s : State) : Result :=
  match s.waiting? t id with
  | none => .next s
  | some b =>
    let hit : Bool := match b.kind with
      | .message _ refused => refused
      | .receive => true
      | _ => false
    if hit then .next (s.trapWaiting t b { cause := 0x122, tval := mailboxOperand b.cur, tinf := 0 }) else .next s

end Sys2Proof.Machine
end

