-- ==== Sys2Proof/Machine/Versions.lean ====
section
/-! DEFINITION. The snapshot registry and the floor (R148, R364, R365), the version pool's collector (R362, R363), commits (R153, R369), publishes (R128, R373), shootdowns (R348, R349) and the writes of cr.mbox and cr.vpool (R138, R362). -/

namespace Sys2Proof.Machine

open Sys2Proof

/-! ### The registry (R148, R150, R364) -/

/-- The registry of a package takes or releases an entry and answers; a new thread-level entry replaces the one that its thread holds, also where that makes its room (R148, log 135). -/
def execRegistryRequest (pkg : PkgKey) (r : RegistryReq) (s : State) : Result :=
  let ask (t : ThreadRef) (id time : Nat) (txb : Bool) (freed : State) (owner : RegOwner) : Result :=
    let ok : Bool := (freed.pkg pkg).registry.length < 4096
    let s := if ok then freed.modPkg pkg (fun p => { p with registry := p.registry ++ [{ time := time, owner := owner }] }) else s
    let lat := s.registryLatency (cluOf t.core)
    .next (s.sendAt 2 (pkg * 96) (cluOf t.core) (s.cycle + (lat - lat / 2)) 0 (.registryAnswer t id txb time ok))
  match r with
  | .snap t id time => ask t id time false (s.releaseSnapshot t) (.thread t)
  | .txb t id time => ask t id time true s (.txn t)
  | .release time => .next (s.modPkg pkg (fun p => { p with registry := p.registry.eraseP (fun e => e.time = time) }))

/-- A thread that the registry has answered (R148, R150, R155). -/
def Slot.registered (sl : Slot) (txb : Bool) (time : Nat) : Slot :=
  if txb then
    { sl with snap := time, snapThread := false, st := { sl.st with tx := true }
              tx := some { time := time, savedSnap := sl.snap, sectors := [], failed := false, discards := false, votes := [], waiting := 0, commit := 0 } }
  else { sl with snap := time, snapThread := true }

/-- The answer reaches the thread: cr.snap and gd (R148, R150). -/
def execRegistryAnswer (t : ThreadRef) (id : Nat) (txb : Bool) (time : Nat) (ok : Bool) (s : State) : Result :=
  match s.waiting? t id with
  | none => .next s
  | some b =>
    match b.kind with
    | .registry gd =>
      .next ((s.endWait t (fun sl =>
        let sl := if ok then sl.registered txb time else sl
        { sl.putG gd (if ok then BitVec.ofNat 64 time else 0) with readyAt := max sl.readyAt s.cycle })))
    | _ => .next s

/-! ### The floor (R365) -/

/-- The times of the requests on their way to a package's registry: their entries stand from their issue (R148, R365, log 136). -/
def State.requested (s : State) (pkg : PkgKey) : List Nat :=
  s.agenda.filterMap (fun p => match p.ev with
    | .registryRequest q (.snap _ _ time) => if q = pkg then some time else none
    | .registryRequest q (.txb _ _ time) => if q = pkg then some time else none
    | _ => none)

/-- The least time of the cores and launch units of a package and of its registry's entries. -/
def State.floorOf (s : State) (pkg : PkgKey) : Nat :=
  let cores := (s.cores.filter (fun e => pkgOf e.1 = pkg)).map (fun e => e.2.time)
  let rest := if cores.length < 1536 then [(getKey s.ticks pkg).getD 0] else []
  let dies := (List.range 4).map (fun i => (s.die (pkg * 4 + i)).time)
  (minOf ((s.pkg pkg).registry.map RegEntry.time ++ s.requested pkg ++ cores ++ rest ++ dies)).getD 0

/-- The registry samples a floor, which every home applies 512 cycles later (R365). -/
def execFloorSample (pkg : PkgKey) (s : State) : Result := .next (s.postAt (s.cycle + 512) 0 (.floorApply pkg (s.floorOf pkg)))

/-- Every home of the package applies a floor, which never decreases (R365). -/
def execFloorApply (pkg : PkgKey) (floor : Nat) (s : State) : Result :=
  .next ((List.range 96).foldl (fun s i => s.modClu (pkg * 96 + i) (fun k => { k with floor := max k.floor floor })) s)

/-! ### The pool (R362, R363) -/

/-- The collector examines one entry: if it is dead, it goes with every older one of its chain (R363). -/
def execCollectorSweep (cluster : ClusterKey) (s : State) : Result :=
  let k := s.clu cluster
  let size := s.poolSize cluster
  let s := match getKey k.poolUsed k.sweep with
    | none => s
    | some sector =>
      let j := (s.sector sector).chain.findIdx (· = k.sweep)
      if s.deadAt cluster sector j then s.cutChain cluster sector j else s
  .next (s.modClu cluster (fun x => { x with sweep := (k.sweep + 1) % max 1 size }))

/-- A write of cr.vpool: ignored while an entry is occupied or beyond the vault; else the pool is placed and its sweep starts over (R362, R363). -/
def execVpoolWrite (cluster : ClusterKey) (val : Word) (s : State) : Result :=
  if !(s.clu cluster).poolUsed.isEmpty ∨ 43520 < wordBits val 15 0 + wordBits val 31 16 then .next s
  else .next (s.modClu cluster (fun k => { k with poolBase := val.setWidth 16, poolLen := (val >>> 16).setWidth 16, sweep := 0 }))

/-- A write of cr.mbox: ignored when the rings would not fit; else every queued message is dropped and counted, and its entry is free for a sender that waits (R138, R140). -/
def execMboxWrite (core : CoreKey) (val : Word) (s : State) : Result :=
  let depth := min 4 (wordBits val 12 10)
  if 262144 < wordBits val 9 0 * 256 + 8 * 2 ^ depth * 256 then .next s
  else
    let gone := (s.core core).rings
    let s := (s.pairOf core).foldl (fun s c => s.modCore c (fun k => { k with
      mboxBase := val.setWidth 10, mboxDepth := BitVec.ofNat 3 depth, mboxEn := val.getLsbD 16, rings := [], ringTail := Vector.replicate 8 0 })) s
    let s := if gone.isEmpty then s else s.drop core gone.length
    .next (gone.foldl (fun s m => s.noticeWaiter core m.ring) s)

/-! ### Commits (R153, R369) -/

/-- A sector may not be locked by a transaction of time T: another holds it, or a newer version stands (R153). -/
def State.conflicts (s : State) (time : Nat) (pa : PhysAddr) : Bool := (s.sector pa).lock.isSome || time < (s.sector pa).wts

/-- Lmax and Smax of a transaction (R153). -/
def State.commitLatency (s : State) (clu : ClusterKey) (tx : Tx) : Nat × Nat :=
  (maxOf (tx.sectors.map (fun x => s.accessLatency clu x.home x.sector)), maxOf (tx.homes.map (fun h => tx.sectors.countP (fun x => x.home = h))))

/-- A home locks the sectors that it can and votes (R153, R369); the last vote lets the core decide. -/
def execTransactionPrepare (t : ThreadRef) (id : Nat) (home : ClusterKey) (s : State) : Result :=
  match s.waiting? t id, (s.slot t.core t.slot).tx with
  | some b, some tx =>
    let mine := (tx.sectors.filter (fun x => x.home = home)).map TxSector.sector
    let free := mine.filter (fun p => !s.conflicts tx.time p)
    let vote : TxVote :=
      { home := home, abort := free.length < mine.length, rts := maxOf (mine.map (fun p => (s.sector p).rts))
        wts := maxOf (mine.map (fun p => (s.sector p).wts)), locked := free }
    let s := free.foldl (fun s p => s.modSector p (fun x => { x with lock := some t })) s
    let s := s.modSlot t.core t.slot (fun sl => { sl with tx := some { tx with votes := vote :: tx.votes, waiting := tx.waiting - 1 } })
    if tx.waiting ≤ 1 then .next (s.postAt (max s.cycle (b.since + (s.commitLatency (cluOf t.core) tx).1)) (senderRank t.core t.slot) (.transactionVotesComplete t id))
    else .next s
  | _, _ => .next s

/-- Every home has voted: the core sends the commit with C, or, on a conflict, 0 for an unlock; the sectors of one home go one a cycle (R153, R369). -/
def execTransactionVotesComplete (t : ThreadRef) (id : Nat) (s : State) : Result :=
  match s.waiting? t id, (s.slot t.core t.slot).tx with
  | some _, some tx =>
    let clu := cluOf t.core
    let (lmax, smax) := s.commitLatency clu tx
    let abort := tx.votes.any TxVote.abort
    let c := if abort then 0
      else 1 + max (max tx.time (s.core t.core).time) (maxOf (tx.votes.flatMap (fun v => [v.rts, v.wts])))
    let s := s.modSlot t.core t.slot (fun sl => { sl with tx := some { tx with commit := c } })
    let s := tx.votes.foldl (fun s v =>
      let what := if abort then v.locked else (tx.sectors.filter (fun x => x.home = v.home)).map TxSector.sector
      (numbered what).foldl (fun s (j, p) =>
        s.sendAt 3 clu v.home (s.cycle + s.homeLatency clu v.home / 2 + j) (senderRank t.core t.slot) (.transactionCommitApply t id p c)) s) s
    .next (s.postAt (s.cycle + lmax + smax) 0 (.commitAcknowledgement t id c))
  | _, _ => .next s

/-- A home applies a committed sector with wts C and unlocks it; C = 0 only unlocks it (R153, R369, R372). -/
def execTransactionCommitApply (t : ThreadRef) (id : Nat) (sector : PhysAddr) (wts : Nat) (s : State) : Result :=
  match s.waiting? t id, (s.slot t.core t.slot).tx with
  | some _, some tx =>
    let s := match tx.sectors.find? (fun x => x.sector = sector) with
      | some x => if wts = 0 then s else (s.writeMasked x.home sector x.data x.mask wts x.code).notePhase (.thread t) wts
      | none => s
    .next (s.modSector sector (fun x => { x with lock := if x.lock = some t then none else x.lock }))
  | _, _ => .next s

/-- The acknowledgements of a commit, or of its unlocks, reach the core: cr.time rises to C, gd receives 0 or 1, and the transaction ends (R153, R370). -/
def execCommitAcknowledgement (t : ThreadRef) (id : Nat) (wts : Nat) (s : State) : Result :=
  match s.waiting? t id with
  | none => .next s
  | some b =>
    match b.kind with
    | .txc gd =>
      let s := (s.raiseTime t.core wts).endTx t
      .next ((s.endWait t (fun sl => { sl.putG gd (if wts = 0 then 1 else 0) with readyAt := max sl.readyAt s.cycle })))
    | _ => .next s

/-! ### Publishes (R128, R373) -/

/-- A line is marked Published and its sectors' rts rise to the publish time, which by then exceeds every lease and version of the line; a locked sector makes the mark wait (R128, R277, R371–R373). -/
def execPublishMark (m : MarkMsg) (time : Nat) (s : State) : Result :=
  let t := m.thread
  let parts := (List.range 4).map (fun i => m.line + 64 * i)
  if parts.any (fun p => (s.sector p).lock.isSome) then .next (s.again (.publishMark m time))
  else
    let p := s.publishTime (time - 1) [m.line]
    let s := parts.foldl (fun s p' => s.modSector p' (fun x => { x with rts := max x.rts p })) s
    let s := { s with lines := setKey s.lines m.line .published }
    match s.waiting? t m.id with
    | none => .next s
    | some _ => .next (s.modPair t.core t.slot (fun sl => { sl with block := sl.block.map (fun b => match b.kind with
        | .cpub ls q => { b with kind := .cpub ls (max q p) }
        | _ => b) }))

/-- The cores of a scope instance (R64): package p of the pod has cores 1536 p to 1536 p + 1535. -/
def State.coresIn (s : State) (sc : Scope) (c : CoreKey) : List CoreKey :=
  let block (n : Nat) : List CoreKey := (List.range n).map (fun i => c / n * n + i)
  match sc with
  | .th => [c] | .co => [c] | .qd => block 4 | .cl => block 16 | .di => block 384 | .pk => block 1536
  | .pd => (List.range (((s.pkg (pkgOf c)).podN + 1) * 1536)).map (fun i => 1536 * s.pod0 (pkgOf c) + i)

/-- A mark of a publish has yet to be made. -/
def State.marksDue (s : State) (t : ThreadRef) (id : Nat) : Bool :=
  s.agenda.any (fun p => match p.ev with
    | .publishMark m _ => m.thread == t && m.id == id
    | _ => false)

/-- The publish time, as the marks have left it, reaches the lines and the cores of the scope, then the thread goes on (R128, R277, R374). -/
def execCpubTimeBroadcast (t : ThreadRef) (id : Nat) (scope : Scope) (time : Nat) (s : State) : Result :=
  if s.marksDue t id then .next (s.postAt (s.cycle + 1) (2 ^ 60) (.cpubTimeBroadcast t id scope time))
  else
    let (lines, p) : List PhysAddr × Nat := match (s.waiting? t id).map Block.kind with
      | some (.cpub ls q) => (ls, max time q)
      | _ => ([], time)
    let s := lines.foldl (fun s l => (List.range 4).foldl (fun s i => s.modSector (l + 64 * i) (fun x => { x with rts := max x.rts p })) s) s
    let s := (s.coresIn scope t.core).foldl (fun s c => s.raiseTime c p) s
    match s.waiting? t id with
    | none => .next s
    | some _ => .next (((s.raiseTime t.core p).endWait t (fun sl => { sl with readyAt := max sl.readyAt s.cycle })))

/-! ### Shootdowns (R348, R349) -/

/-- Which translations a shootdown removes. -/
inductive ShootKind where
  | context (ctx : Nat)
  | page (ctx : Nat) (va : Nat)
  | all
  deriving DecidableEq, Repr

/-- A translation is removed. -/
def ShootKind.hits (k : ShootKind) (e : TlbEntry) : Bool :=
  match k with
  | .context c => e.ctx == c
  | .page c va => e.maps c va
  | .all => true

/-- An address of a context was translated by a removed entry: one that was held, or the page that the write names. -/
def ShootKind.covers (k : ShootKind) (gone : List TlbEntry) (ctx : Nat) (va : Word) : Bool :=
  match k with
  | .context c => ctx == c
  | .page c p => gone.any (fun e => e.maps ctx va.toNat) || (ctx == c && va.toNat / 2 ^ 16 == p / 2 ^ 16)
  | .all => true

/-- The access that an event stands for. -/
def accessOf : Instr → Option Access
  | .clusterCacheAccess a => some a | .homeLoad a => some a | .homeStore a => some a | .atomicUnitOperation a => some a
  | .reductionApply a => some a | .ordsetDeclaration a => some a | .sliceOrderedMerge a => some a
  | _ => none

/-- The operation that an acknowledgement ends. -/
def ackOf : Instr → Option Nat
  | .storeAcknowledgement k => some k.id | .copyBlockAcknowledgement _ _ b _ => some b | .memoryPortReply _ _ seq _ _ _ => some seq
  | _ => none

/-- An access that counts once acknowledged (R349). -/
def countsAck : GlobalOp → Bool
  | .store => true | .red _ => true | .redo _ => true
  | _ => false

/-- The clusters whose cluster TLB, walker and rooks a shootdown reaches (R349). -/
def State.clustersIn (s : State) (sc : Scope) (c : CoreKey) : List ClusterKey := ((s.coresIn sc c).map cluOf).eraseDups

/-- A core's transactions whose buffered stores used a removed entry fail (R368). -/
def Core.failTx (k : Core) (kind : ShootKind) (gone : List TlbEntry) : Core :=
  { k with slots := k.slots.map (fun sl => { sl with tx := sl.tx.map (fun x =>
      if x.sectors.any (fun y => y.vas.any (kind.covers gone sl.ctx)) then { x with failed := true } else x) }) }

/-- Removed translations leave a core: its TLB, the blocks that its copy engine has not sent, its transactions. -/
def Core.shoot (k : Core) (kind : ShootKind) (gone : List TlbEntry) : Core :=
  let k := k.failTx kind gone
  { k with
    tlb := k.tlb.filter (fun e => !kind.hits e)
    copy := { k.copy with cmds := k.copy.cmds.map (fun c => { c with blocks := c.blocks.map (fun b =>
      if !b.asked && !b.sent && b.to_.any kind.hits then { b with to_ := none } else b) }) } }

/-- Removed translations leave a cluster: its TLB, its walker, its rooks' ports. -/
def Cluster.shoot (k : Cluster) (kind : ShootKind) : Cluster :=
  { k with
    tlb := k.tlb.filter (fun e => !kind.hits e)
    walks := k.walks.map (fun w => { w with stale := true })
    rooks := k.rooks.map (fun r => { r with ports := r.ports.map (fun p => { p with xlat := p.xlat.filter (fun e => !kind.hits e) }) }) }

/-- What of a core a shootdown waits for beyond the accesses under way: blocks that its engine will write, commits (R349). -/
def Core.shootWaits (k : Core) (kind : ShootKind) (gone : List TlbEntry) : List Nat :=
  (k.copy.cmds.flatMap (fun c => (c.blocks.filter (fun b => (b.asked || b.sent) && b.to_.any kind.hits)).map CopyBlock.num))
    ++ ((List.range 16).filterMap (fun i =>
      let sl := k.slot i
      match sl.block, sl.tx with
      | some b, some x => if x.sectors.any (fun y => y.vas.any (kind.covers gone sl.ctx)) then some b.id else none
      | _, _ => none))
    ++ (match k.mirror with
      | some m => (m.store.filter (fun h => kind.covers gone h.access.ctx h.access.va)).map (fun h => h.access.id)
      | none => [])

/-- An agent's accesses lie within a shootdown's reach: threads and engines of its cores, ports and drains of its clusters. -/
def inReach (cores : List CoreKey) (clus : List ClusterKey) : Agent → Bool
  | .thread t => cores.contains t.core
  | .engine c _ _ => cores.contains c
  | .port r _ _ => clus.contains (r / 4)
  | .drain r _ => clus.contains (r / 4)
  | .launchUnit _ => false
  | .host _ => false

/-- Stores of the clusters' memory ports that have been performed and whose acknowledgements are under way, translated by removed entries (R349). -/
def State.portStores (s : State) (clus : List ClusterKey) (kind : ShootKind) (gone : List TlbEntry) : List (Nat × Nat × Nat) :=
  s.agenda.filterMap (fun p => match p.ev with
    | .memoryPortReply r q seq _ _ _ =>
      if clus.contains (r / 4) && ((s.rook r).port q).busy.any (fun b => b.seq = seq && b.store && kind.covers gone (((s.rook r).cfg.map RookCfg.ctx).getD 0) b.va)
      then some (r, q, seq) else none
    | _ => none)

/-- A shootdown reaches every holder and notes the accesses that it waits for (R349). -/
def State.shootdown (s : State) (t : ThreadRef) (id : Nat) (sc : Scope) (kind : ShootKind) : State :=
  let cores := s.coresIn sc t.core
  let clus := s.clustersIn sc t.core
  let gone := (s.cores.filter (fun e => cores.contains e.1)).flatMap (fun e => e.2.tlb.filter kind.hits)
    ++ (s.clusters.filter (fun e => clus.contains e.1)).flatMap (fun e =>
      e.2.tlb.filter kind.hits ++ e.2.rooks.toList.flatMap (fun r => (r.ports.toList.filterMap MemPort.xlat).filter kind.hits))
  let under := (s.agenda.filterMap (fun p => accessOf p.ev)).filter (fun a => inReach cores clus a.agent && kind.covers gone a.ctx a.va)
  let acks := s.agenda.filterMap (fun p => match p.ev with
    | .storeAcknowledgement k => if inReach cores clus k.agent && kind.covers gone k.ctx k.va then some k.id else none
    | _ => none)
  let extra := acks ++ (s.cores.filter (fun e => cores.contains e.1)).flatMap (fun e => e.2.shootWaits kind gone)
  let s : State := { s with
    cores := s.cores.map (fun e => (e.1, if cores.contains e.1 then Core.shoot e.2 kind gone else e.2))
    clusters := s.clusters.map (fun e => (e.1, if clus.contains e.1 then Cluster.shoot e.2 kind else e.2))
    shootdowns := s.shootdowns ++ [{ thread := t, id := id, loads := (under.filter (fun a => !countsAck a.op)).map Access.id
                                     stores := (under.filter (fun a => countsAck a.op)).map Access.id ++ extra
                                     ports := s.portStores clus kind gone }] }
  s.postAt (s.cycle + 30 + 2 * s.broadcast t.core sc) 0 (.shootdownCompletion t id)

/-- tlbi, KIND 0: every entry of the writer's context (R348). -/
def execTlbiContext (t : ThreadRef) (id : Nat) (scope : Scope) (s : State) : Result :=
  .next (s.shootdown t id scope (.context (s.slot t.core t.slot).ctx))

/-- tlbi, KIND 1: the page that holds a virtual address (R348). -/
def execTlbiPage (t : ThreadRef) (id : Nat) (scope : Scope) (va : Word) (s : State) : Result :=
  .next (s.shootdown t id scope (.page (s.slot t.core t.slot).ctx va.toNat))

/-- tlbi, KIND 2: every entry of every context (R348). -/
def execTlbiAll (t : ThreadRef) (id : Nat) (scope : Scope) (s : State) : Result := .next (s.shootdown t id scope .all)

/-- An access that a shootdown waits for is not over. -/
def State.shootdownLive (s : State) (d : Shootdown) : Bool :=
  s.agenda.any (fun p => (match accessOf p.ev with
    | some a => d.loads.contains a.id || d.stores.contains a.id
    | none => false) || (match ackOf p.ev with
    | some n => d.stores.contains n
    | none => false))
  || d.ports.any (fun (r, q, seq) => ((s.rook r).port q).busy.any (fun b => b.seq = seq))
  || s.cores.any (fun (_, k) =>
    k.copy.cmds.any (fun c => c.blocks.any (fun b => d.stores.contains b.num))
    || (List.range 16).any (fun i => (k.slot i).block.any (fun b => d.stores.contains b.id))
    || k.mirror.any (fun m => m.store.any (fun h => d.stores.contains h.access.id)))

/-- The shootdown completes once every access that used a removed entry is over (R349). -/
def execShootdownCompletion (t : ThreadRef) (id : Nat) (s : State) : Result :=
  match s.shootdowns.find? (fun d => d.thread = t && d.id = id) with
  | none => .next s
  | some d =>
    if s.shootdownLive d then .next (s.postAt (s.cycle + 1) 0 (.shootdownCompletion t id))
    else
      let s := { s with shootdowns := s.shootdowns.filter (fun x => !(x.thread = t && x.id = id)) }
      match s.waiting? t id with
      | none => .next s
      | some _ => .next (s.endWait t (fun sl => { sl with readyAt := max sl.readyAt s.cycle }))

end Sys2Proof.Machine
end

