-- ==== Sys2Proof/Machine/Image.lean ====
section
/-! DEFINITION. Accesses that units make in a context with supervisor privilege (R418), configuration images and what they say (R285, R296–R299), function maps (R300) and image caches (R301). -/

namespace Sys2Proof.Machine

open Sys2Proof

/-! ### Accesses of units in a context (R418) -/

/-- What a walk of a unit answers: the leaf; that no walk succeeds; a malformed entry with its address; or that an entry's sector is locked, so that the read waits (R279). -/
inductive UnitWalk where
  | leaf (e : TlbEntry)
  | none
  | malformed (pa : PhysAddr) (entry : Word)
  | locked
  deriving DecidableEq, Repr

/-- A read with a given time waits for a sector that a commit has locked (R279). -/
def State.unitLocked (s : State) (t : Nat) (pa : PhysAddr) : Bool := (s.sector pa).lock.isSome && (s.sector pa).rts < t

/-- A walk of the page tables as they stand at this moment, from a level downward (R342, R344). -/
def State.walkFrom (s : State) (p : PkgKey) (ctx t : Nat) (va : Word) (level : Nat) (table : PhysAddr) : Nat → UnitWalk
  | 0 => .none
  | n + 1 =>
    let at_ := pteAddr table va.toNat level
    let x : Word := BitVec.ofNat 64 (bytesNat (Memory.getN s.mem at_ 8))
    if s.unitLocked t at_ then .locked
    else match readPte (s.pod0 p) (s.pkg p).podN p ctx va.toNat level x with
    | .table next => s.walkFrom p ctx t va (level + 1) next n
    | .leaf e => .leaf e
    | .invalid => .none
    | .malformed => .malformed at_ x

/-- A unit's walk for an address of a context, with a time. -/
def State.unitWalk (s : State) (p : PkgKey) (ctx t : Nat) (va : Word) : UnitWalk :=
  match getKey (s.pkg p).ctxs ctx with
  | none => .none
  | some d => s.walkFrom p ctx t va 1 d.root 3

/-- The leaf that a context's tables hold for an address. -/
def State.leafOf (s : State) (p : PkgKey) (ctx : Nat) (va : Word) : Option TlbEntry :=
  match s.unitWalk p ctx 0 va with
  | .leaf e => some e
  | _ => none

/-- A unit's walk that met a malformed entry is logged with the entry's address (R344, R393). -/
def State.logWalk (s : State) (k : ClusterKey) (ctx : Nat) (va : Word) : State :=
  match (if wordBits va 63 55 = 0 then s.unitWalk (pkgOfClu k) ctx 0 va else .none) with
  | .malformed pa x => s.logError (dieOfClu k) (LogEvent.ofClu 9 0x081 0 k (BitVec.ofNat 64 (pa % 2 ^ 42)) x)
  | _ => s

/-- A unit's translation of an address. -/
inductive UnitXlat where
  | entry (e : TlbEntry)
  /-- SUB 1 or 2, as R290 and R300 number the failures -/
  | fail (sub : Nat)
  | locked
  deriving DecidableEq, Repr

/-- A unit's translation, with the permission that its access needs (R100, R102, R418). -/
def State.unitXlat (s : State) (p : PkgKey) (ctx t : Nat) (va : Word) (ok : TlbEntry → Bool) : UnitXlat :=
  if va.getLsbD 63 then .fail 2
  else if wordBits va 62 55 ≠ 0 then .fail 1
  else match s.unitWalk p ctx t va with
    | .leaf e => if ok e then .entry e else .fail 2
    | .locked => .locked
    | _ => .fail 1

/-- What a unit reads: bytes; the failure with its address (SUB 4: a poisoned sector); or that it must wait for a lock. -/
inductive UnitRead where
  | ok (bs : List Byte)
  | fail (sub : Nat) (addr : Word)
  | wait
  deriving DecidableEq, Repr

/-- The pieces of a range that lie in one sector each: address and length. -/
def sectorPieces (va : Word) (n : Nat) : List (Word × Nat) :=
  (List.range ((va.toNat % 64 + n + 63) / 64)).map (fun i =>
    let a := if i = 0 then va.toNat else va.toNat / 64 * 64 + 64 * i
    (BitVec.ofNat 64 a, min (64 - a % 64) (va.toNat + n - a)))

/-- A unit reads n bytes in a context with supervisor privilege and a time: R is needed, U is not (R279, R418). -/
def State.unitRead (s : State) (p : PkgKey) (ctx t : Nat) (va : Word) (n : Nat) : UnitRead :=
  (sectorPieces va n).foldl (fun r (a, k) =>
    match r with
    | .ok bs =>
      (match s.unitXlat p ctx t a (fun e => e.r) with
      | .fail sub => .fail sub a
      | .locked => .wait
      | .entry e =>
        let pa := e.phys a.toNat
        if s.unitLocked t pa then .wait
        else if (s.sector pa).poison.isSome then .fail 4 a else .ok (bs ++ Memory.getN s.mem pa k))
    | r => r) (.ok [])

/-- Where a unit's write of n bytes in one context goes: each sector's piece with its leaf; none when one of them faults (R418). -/
def State.unitTargets (s : State) (p : PkgKey) (ctx : Nat) (va : Word) (n : Nat) : Option (List (TlbEntry × PhysAddr × Nat)) :=
  (sectorPieces va n).foldr (fun (a, k) r =>
    match r, s.unitXlat p ctx 0 a (fun e => e.w) with
    | some l, .entry e => some ((e, e.phys a.toNat, k) :: l)
    | _, _ => none) (some [])

/-- A unit of a cluster writes bytes in a context with logical time ts: one store for each sector, which takes its turn at its home; some of the words may be poisoned, by offset; none when the write faults (R257, R279, R418). -/
def State.ctxWrite (s : State) (ag : Agent) (src : ClusterKey) (ctx : Nat) (va : Word) (bs : List Byte) (ts : Nat) (poison : List (Nat × Nat)) : Option State :=
  (s.unitTargets (pkgOfClu src) ctx va bs.length).map (fun l =>
    (l.foldl (fun (acc : Nat × State) (e, pa, n) =>
      let bad := (poison.find? (fun x => acc.1 ≤ 8 * x.1 && 8 * x.1 < acc.1 + n)).map Prod.snd
      (acc.1 + n, acc.2.post s.now (agentRank ag) (.homeStore (acc.2.unitStore ag src e.home pa ((bs.drop acc.1).take n) ts e.v e.code bad)))) (0, s)).2)

/-! ### The image (R296–R298) -/

/-- The doubleword at an offset of an image. -/
def imgDw (img : List Word) (off : Nat) : Word := img.getD (off / 8) 0

/-- MODE: 0 server, 1 stream, 2 drain (R297). -/
def imgMode (img : List Word) : Nat := wordBits (imgDw img 0) 17 16
/-- PHASE: census (R297). -/
def imgCensus (img : List Word) : Bool := (imgDw img 0).getLsbD 18
/-- SIZE in bytes (R297). -/
def imgSize (img : List Word) : Nat := wordBits (imgDw img 0) 15 0
/-- HANG in cycles: 0 disables, 1–1,023 act as 1,024 (R297). -/
def imgHang (img : List Word) : Nat :=
  let n := wordBits (imgDw img 8) 31 0
  if n = 0 then 0 else max n 1024
/-- MAP (R297). -/
def imgMap (img : List Word) : Word := imgDw img 16
/-- The count n of a cell (R283, R296). -/
def imgCount (img : List Word) (cell : Nat) : Nat := wordBits (imgDw img (0x2040 + 8 * cell)) 4 0
/-- Doubleword j of edge block b (R298). -/
def imgBlock (img : List Word) (b j : Nat) : Word := imgDw img (0x2240 + 64 * b + 8 * j)

/-- A cell instruction (R285); directions are 0 N, 1 E, 2 S, 3 W. -/
structure CellInstr where
  op : Nat
  sa : Nat
  sb : Nat
  sc : Nat
  dout : List Nat
  cout : List Nat
  /-- control input direction of cbr and steer -/
  cin : Nat
  lx : Nat
  lw : Bool
  tgt : Nat
  imm : Word
  deriving DecidableEq, Repr

/-- The fields of an instruction word (R285). -/
def cellInstr (w : Word) : CellInstr :=
  { op := wordBits w 63 58, sa := wordBits w 57 55, sb := wordBits w 54 52, sc := wordBits w 51 49
    dout := (List.range 4).filter (fun d => w.getLsbD (48 - d)), cout := (List.range 4).filter (fun d => w.getLsbD (44 - d))
    cin := wordBits w 42 41, lx := wordBits w 40 39, lw := w.getLsbD 38, tgt := wordBits w 37 34
    imm := (w.setWidth 32).signExtend 64 }

/-- Instruction i of a cell. -/
def imgInstr (img : List Word) (cell i : Nat) : CellInstr := cellInstr (imgDw img (0x40 + 128 * cell + 8 * i))

/-- A compare, whose result bit also goes out as control tokens (R286). -/
def CellInstr.isCompare (c : CellInstr) : Bool := c.op = 0x0D || c.op = 0x0E || c.op = 0x0F || c.op = 0x16
/-- An operation that consumes a control token (R286). -/
def CellInstr.isControl (c : CellInstr) : Bool := c.op = 0x17 || c.op = 0x18
/-- The directions whose data queues the instruction reads: those that its source fields name (log 40). -/
def CellInstr.reads (c : CellInstr) : List Nat :=
  (([c.sa, c.sb, c.sc].filter (fun x => 1 ≤ x && x ≤ 4)).map (· - 1)).eraseDups
/-- The directions of its data outputs; cbr has none (R286). -/
def CellInstr.writes (c : CellInstr) : List Nat := if c.op = 0x17 then [] else c.dout
/-- The directions of its control outputs. -/
def CellInstr.controls (c : CellInstr) : List Nat := if c.isCompare then c.cout else []

/-- The cell next to a cell in a direction (R281). -/
def neighbour (cell d : Nat) : Option Nat :=
  if d = 0 then (if cell < 8 then none else some (cell - 8))
  else if d = 1 then (if cell % 8 = 7 then none else some (cell + 1))
  else if d = 2 then (if 56 ≤ cell then none else some (cell + 8))
  else if cell % 8 = 0 then none else some (cell - 1)

/-- Units beside the cells, numbered from 64: 64–67 memory ports, 68–69 counter chains, 70–71 reduction units, 72–75 special-function units, 76 butterfly, 77 argument port, 78 result port, 80 + c link channel c (R281). -/
def edgeUnit (cell d : Nat) : Option Nat :=
  if d = 0 ∧ cell < 8 then some (64 + cell)
  else if d = 1 ∧ cell % 8 = 7 then (if cell = 7 then some 78 else some (80 + cell / 8))
  else if d = 2 ∧ 56 ≤ cell then (if cell ≤ 60 then some (72 + (cell - 56)) else none)
  else if d = 3 ∧ cell % 8 = 0 then some 77
  else none

/-- KIND of memory port p: 0 unused, 1 load, 2 store, 3 store-ack (R298). -/
def portKind (img : List Word) (p : Nat) : Nat := wordBits (imgBlock img p 0) 1 0
/-- MODE AG of memory port p (R298). -/
def portAg (img : List Word) (p : Nat) : Bool := (imgBlock img p 0).getLsbD 2
/-- The access size of memory port p (R289). -/
def portSize (img : List Word) (p : Nat) : Nat := 2 ^ wordBits (imgBlock img p 0) 5 3
/-- STAGE of memory port p (R298). -/
def portStage (img : List Word) (p : Nat) : Nat := wordBits (imgBlock img p 0) 15 8
/-- The coding of a link channel: 0 unused, 1 inbound, 2 outbound (R298). -/
def linkDir (img : List Word) (c : Nat) : Nat := wordBits (imgBlock img 13 0) (8 * c + 7) (8 * c)

/-- An edge unit is enabled for a cell's reading or writing (R299, log 41). -/
def unitEnabled (img : List Word) (unit : Nat) (write : Bool) : Bool :=
  if unit < 68 then portKind img (unit - 64) != 0
  else if unit < 70 then (imgBlock img (unit - 64) 0).getLsbD 63
  else if unit < 72 then wordBits (imgBlock img (unit - 64) 0) 5 4 != 0
  else if unit < 76 then (imgBlock img (unit - 64) 0).getLsbD 7
  else if unit = 76 then (imgBlock img 12 0).getLsbD 9 && imgMode img != 2
  else if unit = 77 then !write && imgMode img = 0
  else if unit = 78 then write && imgMode img = 0
  else linkDir img (unit - 80) = (if write then 2 else 1)

/-- The bits of an edge block's doubleword that a field may set (R298). -/
def blockMask (b j : Nat) : Word :=
  if b < 4 then (if j = 0 then 0xFF3F else 0xFFFFFFFFFFFFFFFF)
  else if b < 6 then (if j = 0 then 0x800000000000FFFF else if j < 3 then 0xFFFF else if j = 3 then 0x1F else 0)
  else if b < 8 then (if j = 0 then 0x37 else 0)
  else if b < 12 then (if j = 0 then 0x87 else 0)
  else if b = 12 then (if j = 0 then 0x3FF else if j < 6 then 0xFFFFFFFFFFFFFFFF else 0)
  else if j = 0 then 0xFFFFFFFFFFFFFF00 else 0

/-- The fields of an edge block hold stated values (R298). -/
def blockFieldsOk (img : List Word) (b : Nat) : Bool :=
  let x := imgBlock img b 0
  if b < 4 then wordBits x 5 3 ≤ 3
  else if b < 6 then !x.getLsbD 63 || (1 ≤ (imgBlock img b 3).toNat && (imgBlock img b 3).toNat ≤ 16)
  else if b < 8 then wordBits x 2 0 ≤ 5 && wordBits x 5 4 ≤ 2
  else if b < 12 then wordBits x 2 0 ≤ 5
  else if b = 12 then wordBits x 2 0 ≤ 6 && wordBits x 8 6 ≤ 5
  else (List.range 7).all (fun c => linkDir img (c + 1) ≤ 2)

/-- A cell's use of a direction for data: a neighbour or an enabled unit stands there (R299). -/
def dirOk (img : List Word) (cell d : Nat) (write : Bool) : Bool :=
  (neighbour cell d).isSome || (edgeUnit cell d).any (fun u => unitEnabled img u write)

/-- A cell instruction that R299 accepts. -/
def cellInstrOk (img : List Word) (cell i : Nat) : Bool :=
  let w := imgDw img (0x40 + 128 * cell + 8 * i)
  let c := cellInstr w
  1 ≤ c.op && c.op ≤ 0x1B && c.sa != 7 && c.sb != 7 && c.sc != 7 && wordBits w 33 32 = 0
    && (!c.isControl || wordBits w 44 43 = 0)
    && c.reads.all (fun d => dirOk img cell d false)
    && c.writes.all (fun d => dirOk img cell d true)
    && c.controls.all (fun d => (neighbour cell d).isSome)
    && (!c.isControl || (neighbour cell c.cin).isSome)

/-- The fabric accepts the image (R299). -/
def imageOk (img : List Word) : Bool :=
  let h := imgDw img 0
  9664 ≤ imgSize img && imgSize img ≤ 24576 && imgMode img ≤ 2
    && wordBits h 31 19 = 0 && 1 ≤ wordBits h 40 32 && wordBits h 40 32 ≤ 256 && wordBits h 63 41 = 0
    && wordBits (imgDw img 8) 63 32 = 0
    && wordBits (imgMap img) 5 0 = 0 && wordBits (imgMap img) 63 55 = 0
    && (List.range 5).all (fun j => imgDw img (24 + 8 * j) = 0)
    && (List.range 64).all (fun c => (imgDw img (0x2040 + 8 * c)).toNat ≤ 16)
    && (List.range 14).all (fun b => blockFieldsOk img b && (List.range 8).all (fun j => imgBlock img b j &&& ~~~(blockMask b j) = 0))
    && (List.range 64).all (fun c => (List.range (imgCount img c)).all (fun i => cellInstrOk img c i))

/-! ### Function maps and image caches (R300, R301) -/

/-- The address of a function's map entry in a context (R300). -/
def State.mapEntry (s : State) (p : PkgKey) (ctx fid : Nat) : Word :=
  ((getKey (s.pkg p).ctxs ctx).map CtxDesc.fmap).getD 0 + BitVec.ofNat 64 (16 * fid)

/-- What a context's function map and memory hold for a function (R299, R300). -/
inductive ImageFound where
  /-- the image, with the latency of its first sector from the cluster -/
  | image (img : List Word) (lat : Nat)
  /-- V = 0, or the entry cannot be read: the failure that answers the request -/
  | unmapped (f : FaultRec)
  /-- the image cannot be read or breaks R299: the failure, the latency, and SIZE as far as it was read -/
  | refused (f : FaultRec) (lat size : Nat)
  deriving DecidableEq, Repr

/-- The answer for a function that is not mapped (R302). -/
def notMapped : FaultRec := { sub := 5, stage := 0, addr := 0 }

/-- The latency of a sector of a context from a cluster (R261); of an address that is not mapped, that of the cluster's own home (log 141). -/
def State.sectorLatency (s : State) (clu : ClusterKey) (ctx : Nat) (va : Word) : Nat :=
  match s.leafOf (pkgOfClu clu) ctx va with
  | some e => s.accessLatency clu e.home (e.phys va.toNat)
  | none => s.homeLatency clu clu

/-- Read a function's map entry and image (R300, R418); the fabric's reads carry no time, so a lock does not hold them (log 141). -/
def State.findImage (s : State) (clu : ClusterKey) (ctx fid : Nat) : ImageFound :=
  let p := pkgOfClu clu
  match s.unitRead p ctx 0 (s.mapEntry p ctx fid) 16 with
  | .wait => .unmapped notMapped
  | .fail sub a => .unmapped { sub := sub, stage := 0, addr := a }
  | .ok bs =>
    let x := (bytesWords bs).getD 0 0
    if !x.getLsbD 63 then .unmapped notMapped
    else
      let a := x &&& 0x7FFFFFFFFFFFFFFF
      let lat := s.sectorLatency clu ctx a
      match s.unitRead p ctx 0 a 64 with
      | .wait => .refused notMapped lat 0
      | .fail sub b => .refused { sub := sub, stage := 0, addr := b } lat 0
      | .ok h =>
        let size := wordBits ((bytesWords h).getD 0 0) 15 0
        match s.unitRead p ctx 0 a (max 64 size) with
        | .wait => .refused notMapped lat size
        | .fail sub b => .refused { sub := sub, stage := 0, addr := b } lat size
        | .ok bs =>
          let img := bytesWords bs
          if imageOk img then .image img lat else .refused notMapped lat size

/-- A fabric's read that failed: a malformed page-table entry in its way is logged (R344). -/
def State.logImage (s : State) (clu : ClusterKey) (ctx : Nat) : ImageFound → State
  | .image _ _ => s
  | .unmapped f => if f.sub = 1 then s.logWalk clu ctx f.addr else s
  | .refused f _ _ => if f.sub = 1 then s.logWalk clu ctx f.addr else s

/-- The image of a function in a cluster's image cache (R301). -/
def Cluster.cached (k : Cluster) (ctx fid : Nat) : Option (List Word) :=
  (k.images.find? (fun e => e.ctx = ctx && e.fid = fid)).map ImgEntry.img

/-- An image enters the image cache, which holds 16 and replaces the least recently used (R301). -/
def Cluster.cacheImage (k : Cluster) (ctx fid : Nat) (img : List Word) (now : Nat) : Cluster :=
  let l := k.images.filter (fun e => !(e.ctx = ctx && e.fid = fid))
  { k with images := { ctx := ctx, fid := fid, img := img, used := now } :: evictLru ImgEntry.used 16 l }

/-- A context's images leave a cluster's image cache (R301). -/
def execImageCacheInvalidation (cluster : ClusterKey) (ctx : Nat) (s : State) : Result :=
  .next (s.modClu cluster (fun k => { k with images := k.images.filter (fun e => e.ctx != ctx) }))

/-- A cfgld whose next bytes are there: the map entry, then the image's header, then the whole image, checked as it arrives; its answer, or what it waits for next (R211). -/
def State.fetchStep (s : State) (clu : ClusterKey) (f : ImgFetch) : State :=
  let p := pkgOfClu clu
  let ends (s : State) (code : Nat) : State :=
    s.post s.now (completionRank f.answer.issue f.answer.word) (.longOperationCompletion { f.answer with val := BitVec.ofNat 512 code })
  let goOn (s : State) (f : ImgFetch) : State := s.modClu clu (fun k => { k with imgFetches := k.imgFetches ++ [f] })
  match f.addr, f.size with
  | none, _ =>
    (match s.unitRead p f.ctx 0 (s.mapEntry p f.ctx f.fid) 16 with
    | .ok bs =>
      let x := (bytesWords bs).getD 0 0
      let a := x &&& 0x7FFFFFFFFFFFFFFF
      if x.getLsbD 63 then goOn s { f with addr := some a, at_ := s.cycle + s.sectorLatency clu f.ctx a } else ends s 1
    | .fail sub a => ends (if sub = 1 then s.logWalk clu f.ctx a else s) 1
    | .wait => ends s 1)
  | some a, none =>
    (match s.unitRead p f.ctx 0 a 64 with
    | .ok bs =>
      let n := wordBits ((bytesWords bs).getD 0 0) 15 0
      if n = 0 then ends s 1 else goOn s { f with size := some n, at_ := s.cycle + ceilDiv n 64 }
    | .fail sub b => ends (if sub = 1 then s.logWalk clu f.ctx b else s) 1
    | .wait => ends s 1)
  | some a, some n =>
    (match s.unitRead p f.ctx 0 a (max 64 n) with
    | .ok bs =>
      let img := bytesWords bs
      if imageOk img then ends (s.modClu clu (fun k => k.cacheImage f.ctx f.fid img s.cycle)) 0 else ends s 1
    | .fail sub b => ends (if sub = 1 then s.logWalk clu f.ctx b else s) 1
    | .wait => ends s 1)

/-- Every cfgld whose next bytes are there in this cycle (R211). -/
def State.imageFetches (s : State) : State :=
  s.clusters.foldl (fun s (c, k) =>
    (k.imgFetches.filter (fun f => f.at_ ≤ s.cycle)).foldl (fun s f => s.fetchStep c f)
      (if k.imgFetches.isEmpty then s else s.modClu c (fun k => { k with imgFetches := k.imgFetches.filter (fun f => s.cycle < f.at_) }))) s

/-- cfgld: gd is Pending; an image in the cache answers 0 after 8 cycles, any other is read, its map entry first (R211). -/
def execCfgld (d a : Fin 32) (s : State) : Result :=
  let fid := (s.gval a).toNat % 1024
  let clu := s.myClu
  if ((s.clu clu).cached s.me.ctx fid).isSome then .next (s.startLongOf .long 8 (.g d) 0)
  else
    let lm := s.sectorLatency clu s.me.ctx (s.mapEntry (pkgOfClu clu) s.me.ctx fid)
    let (id, s) := s.begin_ .long 0 0
    let s := s.modMe (fun sl => { sl with regs := sl.regs.retag .pending (.g d) })
    let c : Completion :=
      { thread := s.meRef, id := id, dst := .g d, va := 0, val := 0, mark := none, raise := 0, issue := s.cycle, word := s.cur.word }
    .next (s.modClu clu (fun k => { k with imgFetches := k.imgFetches ++ [{ answer := c, ctx := s.me.ctx, fid := fid, addr := none, size := none, at_ := s.cycle + lm }] }))

end Sys2Proof.Machine
end

