-- ==== Sys2Proof/Machine/Rook.lean ====
section
/-! DEFINITION. The inside of a rook: tokens and queues (R281–R284), cells (R284–R287), counter chains, reduction and special-function units, the butterfly and converter (R292–R295), link channels (R306, R381), memory ports (R289–R291) and the packets of server mode (R288, R302). -/

namespace Sys2Proof.Machine

open Sys2Proof

/-! ### Parts of a rook -/

/-- The image of a rook; empty when it is not configured. -/
def Rook.img (r : Rook) : List Word := (r.cfg.map RookCfg.img).getD []

/-- The rook is configured and works; one of a stream graph from the start of its graph to the end of its phase (R301, R306, R309). -/
def Rook.live (r : Rook) : Bool := r.cfg.isSome && r.load.isNone && !r.frozen && (r.reserved.isNone || r.running)

/-- A cell. -/
def Rook.cell (r : Rook) (i : Nat) : CellState := (r.cells[i]?).getD CellState.init
/-- The rook with a cell changed. -/
def Rook.modCell (r : Rook) (i : Nat) (f : CellState → CellState) : Rook := { r with cells := r.cells.setIfInBounds i (f (r.cell i)) }
/-- A data queue of a cell. -/
def CellState.queue (c : CellState) (d : Nat) : List Token := (c.dq[d]?).getD []
/-- A control queue of a cell. -/
def CellState.ctl (c : CellState) (d : Nat) : List Bool := (c.cq[d]?).getD []
/-- A local register of a cell. -/
def CellState.local_ (c : CellState) (i : Nat) : Local := (c.l[i]?).getD { val := 0, poison := false, side := 0 }
/-- The rook with a memory port changed. -/
def Rook.modPort (r : Rook) (p : Nat) (f : MemPort → MemPort) : Rook := { r with ports := r.ports.setIfInBounds p (f (r.port p)) }
/-- A counter chain. -/
def Rook.chain (r : Rook) (k : Nat) : Chain := (r.chains[k]?).getD { i0 := 0, i1 := 0, i2 := 0, next := 0, marks := [], runs := 0, exhausted := false }
/-- The rook with a counter chain changed. -/
def Rook.modChain (r : Rook) (k : Nat) (f : Chain → Chain) : Rook := { r with chains := r.chains.setIfInBounds k (f (r.chain k)) }
/-- A reduction unit. -/
def Rook.red (r : Rook) (k : Nat) : RedUnit := (r.reds[k]?).getD { acc := none, poison := none, pkt := none, inq := [], outq := [] }
/-- The rook with a reduction unit changed. -/
def Rook.modRed (r : Rook) (k : Nat) (f : RedUnit → RedUnit) : Rook := { r with reds := r.reds.setIfInBounds k (f (r.red k)) }
/-- The input of a special-function unit. -/
def Rook.sfuIn (r : Rook) (k : Nat) : List Token := ((r.sfus[k]?).map Sfu.inq).getD []
/-- The rook with the input of a special-function unit changed. -/
def Rook.modSfu (r : Rook) (k : Nat) (f : List Token → List Token) : Rook := { r with sfus := r.sfus.setIfInBounds k { inq := f (r.sfuIn k) } }
/-- Link channel c, from 1 to 7. -/
def Rook.link (r : Rook) (c : Nat) : Link := (r.links[c - 1]?).getD { credit := 0, inbuf := [], peer := none, ended := false }
/-- The rook with a link channel changed. -/
def Rook.modLink (r : Rook) (c : Nat) (f : Link → Link) : Rook := { r with links := r.links.setIfInBounds (c - 1) (f (r.link c)) }

/-- A unit has saved its state for a SNAP snapshot and acts no more (R311). -/
def Rook.saved (r : Rook) (unit : Nat) : Bool := r.snap.any (fun x => x.saved.contains unit)
/-- SNAP has reached an input of a unit. -/
def Rook.snapped (r : Rook) (unit : Nat) : Bool := r.snap.any (fun x => x.arrived.any (fun e => e.1 = unit))

/-- Sources may act: always in server mode, between start and swap in stream mode (R306, R308). -/
def Rook.sourcesRun (r : Rook) : Bool := imgMode r.img = 0 || (imgMode r.img = 1 && r.running && !r.exhausted)

/-- A stream phase that ends by END tokens (R307). -/
def Rook.endMode (r : Rook) : Bool := imgMode r.img = 1 && !imgCensus r.img

/-- The packet of a token made without a data token: the one accepted last, or the first one to come (R302). -/
def Rook.sourcePkt (r : Rook) : Option Nat := if imgMode r.img = 0 then some (r.lastPkt.getD 0) else none

/-! ### Tokens -/

/-- A data token. -/
def dataToken (v : Word) (pkt : Option Nat) : Token := { val := v, kind := 0, poison := false, side := 0, pkt := pkt }
/-- A marker. -/
def markerToken (kind : Nat) (pkt : Option Nat) : Token := { val := 0, kind := kind, poison := false, side := 0, pkt := pkt }
/-- SUB and STAGE as a side field (R282). -/
def faultSide (f : FaultRec) : BitVec 16 := BitVec.ofNat 16 (f.stage + 256 * f.sub)
/-- A poisoned token that carries a fault (R282, R290). -/
def faultToken (f : FaultRec) (pkt : Option Nat) : Token := { val := f.addr, kind := 0, poison := true, side := faultSide f, pkt := pkt }
/-- The fault that a poisoned token carries. -/
def tokenFault (t : Token) : FaultRec := { sub := t.side.toNat / 256, stage := t.side.toNat % 256, addr := t.val }

/-! ### Queues between cells and units -/

/-- A unit that has saved its state records what arrives on an input until SNAP does: it takes every token there (R311). -/
def Rook.records (r : Rook) (u d : Nat) : Bool := r.snap.any (fun x => x.saved.contains u && !x.arrived.contains (u, d))

/-- A unit's input held fewer than 2 tokens at the start of the cycle: those that it has taken since count (R284). -/
def Rook.unitRoom (r : Rook) (u : Nat) : Bool :=
  if r.records u 0 then true
  else if u < 68 then (r.port (u - 64)).inq.length + r.took.count u < 2
  else if u < 70 then false
  else if u < 72 then (r.red (u - 70)).inq.length + r.took.count u < 2
  else if u < 76 then (r.sfuIn (u - 72)).length + r.took.count u < 2
  else if u = 76 then r.butterfly.inq.length + r.took.count u < 2
  else if u = 78 then r.resq.length < 2
  else if 80 < u then 0 < (r.link (u - 80)).credit && (r.link (u - 80)).peer.isSome
  else false

/-- The queue that a cell writes in a direction has room (R284). -/
def Rook.room (r : Rook) (cell d : Nat) : Bool :=
  match neighbour cell d with
  | some n => r.records n ((d + 2) % 4) || ((r.cell n).queue ((d + 2) % 4)).length < 2
  | none => (edgeUnit cell d).any r.unitRoom

/-- The control queue that a cell writes in a direction has room. -/
def Rook.ctlRoom (r : Rook) (cell d : Nat) : Bool :=
  (neighbour cell d).any (fun n => ((r.cell n).ctl ((d + 2) % 4)).length < 2)

/-- The cell and direction at which a unit emits (R281). -/
def emitsAt (u : Nat) : Nat × Nat :=
  if u < 72 then (u - 64, 0) else if u < 77 then (u - 72 + 56, 2) else (8 * (u - 80) + 7, 1)

/-- The queue that a unit emits into has room. -/
def Rook.emitRoom (r : Rook) (u : Nat) : Bool :=
  r.records (emitsAt u).1 (emitsAt u).2 || ((r.cell (emitsAt u).1).queue (emitsAt u).2).length < 2

/-- A token enters a queue: a cell's data queue, or the input of a unit. -/
def Rook.push (r : Rook) (u d : Nat) (t : Token) : Rook :=
  if u < 64 then r.modCell u (fun c => { c with dq := c.dq.setIfInBounds d (c.queue d ++ [t]) })
  else if u < 68 then r.modPort (u - 64) (fun p => { p with inq := p.inq ++ [t] })
  else if u < 72 then r.modRed (u - 70) (fun x => { x with inq := x.inq ++ [t] })
  else if u < 76 then r.modSfu (u - 72) (fun l => l ++ [t])
  else if u = 76 then { r with butterfly := { r.butterfly with inq := r.butterfly.inq ++ [t] } }
  else if u = 78 then { r with resq := r.resq ++ [t] }
  else r

/-- A unit's output enters the queue of its cell, where the cell may consume it in this cycle (R303, R415). -/
def Rook.emit (r : Rook) (u : Nat) (t : Token) : Rook := r.push (emitsAt u).1 (emitsAt u).2 t

/-- A control token enters a cell's queue. -/
def Rook.pushCtl (r : Rook) (cell d : Nat) (b : Bool) : Rook :=
  r.modCell cell (fun c => { c with cq := c.cq.setIfInBounds d (c.ctl d ++ [b]) })

/-- The cycles that a token or credit takes between two rooks (R381). -/
def State.linkDelay (s : State) (a b : RookKey) : Nat := s.oneWayClu (a / 4) (b / 4)

/-- A token leaves by an outbound link channel (R306, R381). -/
def State.sendLink (s : State) (rook c : Nat) (t : Token) : State :=
  match ((s.rook rook).link c).peer with
  | none => s
  | some (r, c') =>
    let s := s.modRook rook (fun x => x.modLink c (fun l => { l with credit := l.credit - 1, ended := l.ended || t.kind = 3 }))
    s.sendAt (5 + c % 3) (rook / 4) (r / 4) (s.cycle + s.linkDelay rook r) 0 (.linkTokenArrival r c' t)

/-- A cell's output leaves in a direction; it stands in its queue from the next cycle (R284). -/
def State.emitCell (s : State) (rook cell d : Nat) (t : Token) : State :=
  match neighbour cell d with
  | some n => s.modRook rook (fun r => { r with staged := r.staged ++ [(n, (d + 2) % 4, t)] })
  | none =>
    match edgeUnit cell d with
    | some u => if 80 < u then s.sendLink rook (u - 80) t else s.modRook rook (fun r => { r with staged := r.staged ++ [(u, 0, t)] })
    | none => s

/-- A cell's control output leaves in a direction. -/
def State.emitCtl (s : State) (rook cell d : Nat) (b : Bool) : State :=
  match neighbour cell d with
  | some n => s.modRook rook (fun r => { r with stagedC := r.stagedC ++ [(n, (d + 2) % 4, b)] })
  | none => s

/-- A cell consumes the head of a data queue; one that came by a link returns its credit (R381). -/
def State.consume (s : State) (rook cell d : Nat) : State :=
  let s := s.modRook rook (fun r => r.modCell cell (fun c => { c with dq := c.dq.setIfInBounds d (c.queue d).tail }))
  match (if d = 1 && cell % 8 = 7 && 8 ≤ cell then ((s.rook rook).link (cell / 8)).peer else none) with
  | some (r, c) => s.sendAt 2 (rook / 4) (r / 4) (s.cycle + s.linkDelay rook r) 0 (.linkCreditReturn r c)
  | none => s

/-- Staged tokens enter their queues at the end of the cycle, and the places of tokens taken in it are free (R284). -/
def Rook.commit (r : Rook) : Rook :=
  let r' := r.staged.foldl (fun r (u, d, t) => r.push u d t) { r with staged := [], took := [] }
  r.stagedC.foldl (fun r (c, d, b) => r.pushCtl c d b) { r' with stagedC := [] }

/-! ### Cells (R284–R287) -/

/-- What a cell does in a cycle. -/
inductive CellAct where
  | idle | fire | marker
  /-- END stands everywhere: it is forwarded and the cell stops (R307) -/
  | finish
  deriving DecidableEq, Repr

/-- The instructions of a cell. -/
def cellInstrs (img : List Word) (cell : Nat) : List CellInstr := (List.range (imgCount img cell)).map (imgInstr img cell)

/-- The heads of a cell's data queues in some directions; none when one is empty. -/
def CellState.heads (c : CellState) (ds : List Nat) : Option (List Token) :=
  ds.foldr (fun d r => match (c.queue d).head?, r with
    | some t, some l => some (t :: l)
    | _, _ => none) (some [])

/-- What a cell does with the queues as they stand (R284, R287, R307). -/
def Rook.cellAct (r : Rook) (cell : Nat) : CellAct :=
  let img := r.img
  let c := r.cell cell
  if !r.live || imgCount img cell = 0 || imgMode img = 2 || c.ended || r.saved cell then .idle
  else
    let is := cellInstrs img cell
    let reads := (is.flatMap CellInstr.reads).eraseDups
    let atEnd : Bool := r.endMode && (if reads.isEmpty then r.exhausted else (c.heads reads).any (fun l => l.all (fun t => t.kind = 3)))
    if atEnd then (if (is.flatMap CellInstr.writes).all (r.room cell) then .finish else .idle)
    else
      let i := imgInstr img cell c.pc
      match c.heads i.reads with
      | none => .idle
      | some hs =>
        let out : Bool := i.writes.all (r.room cell)
        if !hs.isEmpty && [1, 2, 4].any (fun k => hs.all (fun t => t.kind = k)) then (if out then .marker else .idle)
        else if hs.all (fun t => t.kind = 0) && out && i.controls.all (r.ctlRoom cell)
            && (!i.isControl || !(c.ctl i.cin).isEmpty) && (!hs.isEmpty || i.isControl || r.sourcesRun) then .fire
        else .idle

/-- What an operation makes of its operands and its control input: a value, a control token, a branch, a fence marker (R286). -/
structure CellOut where
  val : Option Word
  ctl : Option Bool
  jump : Bool
  fence : Bool

/-- An operation with a value alone. -/
def cellValue (x : Word) : CellOut := { val := some x, ctl := none, jump := false, fence := false }
/-- A compare (R286). -/
def cellBit (b : Bool) : CellOut := { val := some (if b then 1 else 0), ctl := some b, jump := false, fence := false }
/-- A binary32 result, zero-extended (R286). -/
def cell32 (x : Nat) : CellOut := cellValue (BitVec.ofNat 64 x)

/-- The value and poison record of a source field: nothing, a queue's head, IMM, or a local register (R285, R286). -/
def sourceOf (c : CellState) (i : CellInstr) (code : Nat) : Option (Word × Option (BitVec 16 × Word)) :=
  if code = 0 then none
  else if code = 5 then some (i.imm, none)
  else if code = 6 then some ((c.local_ i.lx).val, if (c.local_ i.lx).poison then some ((c.local_ i.lx).side, (c.local_ i.lx).val) else none)
  else ((c.queue (code - 1)).head?).map (fun t => (t.val, if t.poison then some (t.side, t.val) else none))

/-- The packet of the first data token that an instruction consumes (R302). -/
def Rook.firstPkt (r : Rook) (c : CellState) (i : CellInstr) : Option Nat :=
  match [i.sa, i.sb, i.sc].findSome? (fun x => if 1 ≤ x && x ≤ 4 then (c.queue (x - 1)).head? else none) with
  | some t => t.pkt
  | none => r.sourcePkt

/-- The next PC of a cell (R284, R286). -/
def nextCellPc (n : Nat) (i : CellInstr) (pc : Nat) (jump : Bool) : Nat :=
  if jump then i.tgt else if pc + 1 = n then 0 else (pc + 1) % 16

/-- A cell fires the instruction of one operation: inputs are consumed, outputs leave, PC moves on (R284–R286). An operand that no source gives is a free value (log 43). -/
def fireCell (op : Nat) (g : Word → Word → Word → Bool → CellOut) (rook : RookKey) (cell : Fin 64) (s : State) : Result :=
  let r := s.rook rook
  let c := r.cell cell
  let i := imgInstr r.img cell c.pc
  if r.cellAct cell ≠ .fire ∨ i.op ≠ op then .next s
  else
    let src (code k : Nat) : Word × Option (BitVec 16 × Word) := (sourceOf c i code).getD (BitVec.ofNat 64 (Config.freeNat (s.free + k)), none)
    let a := src i.sa 0
    let b := src i.sb 1
    let z := src i.sc 2
    let ctl : Bool := (c.ctl i.cin).headD false
    let bad := [a.2, b.2, z.2].findSome? id
    let out := g a.1 b.1 z.1 ctl
    let pkt := r.firstPkt c i
    let s : State := { s with free := s.free + 3 }
    let s := i.reads.foldl (fun s d => s.consume rook cell d) s
    let s := if i.isControl then s.modRook rook (fun r => r.modCell cell (fun c => { c with cq := c.cq.setIfInBounds i.cin (c.ctl i.cin).tail })) else s
    let tok : Option Token :=
      if out.fence then some (markerToken 4 pkt)
      else out.val.map (fun v => match bad with
        | some (side, addr) => { val := addr, kind := 0, poison := true, side := side, pkt := pkt }
        | none => dataToken v pkt)
    let s := match tok with
      | some t => i.writes.foldl (fun (s : State) d => s.emitCell rook cell d t) s
      | none => s
    let s := match out.ctl with
      | some x => i.controls.foldl (fun (s : State) d => s.emitCtl rook cell d (x && bad.isNone)) s
      | none => s
    .next (s.modRook rook (fun r => { r.modCell cell (fun c =>
      let c := match tok with
        | some t => if i.lw && !out.fence then { c with l := c.l.setIfInBounds i.lx { val := t.val, poison := t.poison, side := t.side } } else c
        | none => c
      { c with pc := nextCellPc (imgCount r.img cell) i c.pc out.jump }) with lastFire := s.cycle }))

/-- An operation of two or three operands with a value. -/
def cellOp (op : Nat) (g : Word → Word → Word → CellOut) (rook : RookKey) (cell : Fin 64) (s : State) : Result :=
  fireCell op (fun a b c _ => g a b c) rook cell s

/-- The binary32 in the low half of an operand. -/
def cellFp (x : Word) : FpVal := f32.read false (x.toNat % 2 ^ 32)

/-- pass (R286). -/
def execCellPass (rook : RookKey) (cell : Fin 64) (s : State) : Result := cellOp 0x01 (fun a _ _ => cellValue a) rook cell s
/-- add (R286). -/
def execCellAdd (rook : RookKey) (cell : Fin 64) (s : State) : Result := cellOp 0x02 (fun a b _ => cellValue (a + b)) rook cell s
/-- sub (R286). -/
def execCellSub (rook : RookKey) (cell : Fin 64) (s : State) : Result := cellOp 0x03 (fun a b _ => cellValue (a - b)) rook cell s
/-- mul (R286). -/
def execCellMul (rook : RookKey) (cell : Fin 64) (s : State) : Result := cellOp 0x04 (fun a b _ => cellValue (a * b)) rook cell s
/-- and (R286). -/
def execCellAnd (rook : RookKey) (cell : Fin 64) (s : State) : Result := cellOp 0x05 (fun a b _ => cellValue (a &&& b)) rook cell s
/-- or (R286). -/
def execCellOr (rook : RookKey) (cell : Fin 64) (s : State) : Result := cellOp 0x06 (fun a b _ => cellValue (a ||| b)) rook cell s
/-- xor (R286). -/
def execCellXor (rook : RookKey) (cell : Fin 64) (s : State) : Result := cellOp 0x07 (fun a b _ => cellValue (a ^^^ b)) rook cell s
/-- shl (R286). -/
def execCellShl (rook : RookKey) (cell : Fin 64) (s : State) : Result := cellOp 0x08 (fun a b _ => cellValue (a <<< (b.toNat % 64))) rook cell s
/-- shr (R286). -/
def execCellShr (rook : RookKey) (cell : Fin 64) (s : State) : Result := cellOp 0x09 (fun a b _ => cellValue (a >>> (b.toNat % 64))) rook cell s
/-- sra (R286). -/
def execCellSra (rook : RookKey) (cell : Fin 64) (s : State) : Result := cellOp 0x0A (fun a b _ => cellValue (a.sshiftRight (b.toNat % 64))) rook cell s
/-- min, signed (R286). -/
def execCellMin (rook : RookKey) (cell : Fin 64) (s : State) : Result := cellOp 0x0B (fun a b _ => cellValue (if b.slt a then b else a)) rook cell s
/-- max, signed (R286). -/
def execCellMax (rook : RookKey) (cell : Fin 64) (s : State) : Result := cellOp 0x0C (fun a b _ => cellValue (if a.slt b then b else a)) rook cell s
/-- seq (R286). -/
def execCellSeq (rook : RookKey) (cell : Fin 64) (s : State) : Result := cellOp 0x0D (fun a b _ => cellBit (a == b)) rook cell s
/-- slt (R286). -/
def execCellSlt (rook : RookKey) (cell : Fin 64) (s : State) : Result := cellOp 0x0E (fun a b _ => cellBit (a.slt b)) rook cell s
/-- sltu (R286). -/
def execCellSltu (rook : RookKey) (cell : Fin 64) (s : State) : Result := cellOp 0x0F (fun a b _ => cellBit (a.ult b)) rook cell s
/-- sel (R286). -/
def execCellSel (rook : RookKey) (cell : Fin 64) (s : State) : Result := cellOp 0x10 (fun a b c => cellValue (if c != 0 then a else b)) rook cell s
/-- fadd.s (R286). -/
def execCellFaddS (rook : RookKey) (cell : Fin 64) (s : State) : Result :=
  cellOp 0x11 (fun a b _ => cell32 (f32.addVal .rne false (cellFp a) (cellFp b)).1) rook cell s
/-- fmul.s (R286). -/
def execCellFmulS (rook : RookKey) (cell : Fin 64) (s : State) : Result :=
  cellOp 0x12 (fun a b _ => cell32 (f32.mul .rne false (cellFp a) (cellFp b)).1) rook cell s
/-- fma.s (R286). -/
def execCellFmaS (rook : RookKey) (cell : Fin 64) (s : State) : Result :=
  cellOp 0x13 (fun a b c => cell32 (f32.fma .rne false (cellFp a) (cellFp b) (cellFp c)).1) rook cell s
/-- fmax.s (R85, R286). -/
def execCellFmaxS (rook : RookKey) (cell : Fin 64) (s : State) : Result :=
  cellOp 0x14 (fun a b _ => cell32 (f32.minmax true false a.toNat b.toNat).1) rook cell s
/-- fmin.s (R85, R286). -/
def execCellFminS (rook : RookKey) (cell : Fin 64) (s : State) : Result :=
  cellOp 0x15 (fun a b _ => cell32 (f32.minmax false false a.toNat b.toNat).1) rook cell s
/-- flt.s (R86, R286). -/
def execCellFltS (rook : RookKey) (cell : Fin 64) (s : State) : Result :=
  cellOp 0x16 (fun a b _ => cellBit (f32.cmp .lt false a.toNat b.toNat).1) rook cell s
/-- cbr (R286). -/
def execCellCbr (rook : RookKey) (cell : Fin 64) (s : State) : Result :=
  fireCell 0x17 (fun _ _ _ x => { val := none, ctl := none, jump := x, fence := false }) rook cell s
/-- steer (R286). -/
def execCellSteer (rook : RookKey) (cell : Fin 64) (s : State) : Result :=
  fireCell 0x18 (fun a _ _ x => { val := if x then some a else none, ctl := none, jump := false, fence := false }) rook cell s
/-- cvt.s.w (R286). -/
def execCellCvtSW (rook : RookKey) (cell : Fin 64) (s : State) : Result :=
  cellOp 0x19 (fun a _ _ => cell32 (intToFp f32 .rne (a.setWidth 32).toInt).1) rook cell s
/-- cvt.w.s (R286). -/
def execCellCvtWS (rook : RookKey) (cell : Fin 64) (s : State) : Result :=
  cellOp 0x1A (fun a _ _ => cellValue (BitVec.ofInt 64 (fpToInt f32 .rne false (-2147483648) 2147483647 (a.toNat % 2 ^ 32)).1)) rook cell s
/-- fnc (R286). -/
def execCellFnc (rook : RookKey) (cell : Fin 64) (s : State) : Result :=
  fireCell 0x1B (fun _ _ _ _ => { val := none, ctl := none, jump := false, fence := true }) rook cell s

/-- A marker passes an instruction whose inputs all hold it, or END passes the whole cell, which then stops (R287, R307). -/
def execMarkerPass (rook : RookKey) (cell : Fin 64) (s : State) : Result :=
  let r := s.rook rook
  let c := r.cell cell
  let pass (s : State) (reads writes : List Nat) (kind : Nat) : State :=
    let pkt := match reads.findSome? (fun d => (c.queue d).head?) with
      | some t => t.pkt
      | none => r.sourcePkt
    let s := reads.foldl (fun s d => s.consume rook cell d) s
    let s := writes.foldl (fun s d => s.emitCell rook cell d (markerToken kind pkt)) s
    s.modRook rook (fun r => { r with lastFire := s.cycle })
  match r.cellAct cell with
  | .marker =>
    let i := imgInstr r.img cell c.pc
    .next (pass s i.reads i.writes (((c.heads i.reads).bind List.head?).map Token.kind |>.getD 1))
  | .finish =>
    let is := cellInstrs r.img cell
    let s := pass s (is.flatMap CellInstr.reads).eraseDups (is.flatMap CellInstr.writes).eraseDups 3
    .next (s.modRook rook (fun r => r.modCell cell (fun c => { c with ended := true })))
  | _ => .next s

/-- The event of an operation's firing. -/
def cellEvent (op : Nat) (rook : RookKey) (cell : Fin 64) : Option Instr :=
  match op with
  | 0x01 => some (.cellPass rook cell) | 0x02 => some (.cellAdd rook cell) | 0x03 => some (.cellSub rook cell)
  | 0x04 => some (.cellMul rook cell) | 0x05 => some (.cellAnd rook cell) | 0x06 => some (.cellOr rook cell)
  | 0x07 => some (.cellXor rook cell) | 0x08 => some (.cellShl rook cell) | 0x09 => some (.cellShr rook cell)
  | 0x0A => some (.cellSra rook cell) | 0x0B => some (.cellMin rook cell) | 0x0C => some (.cellMax rook cell)
  | 0x0D => some (.cellSeq rook cell) | 0x0E => some (.cellSlt rook cell) | 0x0F => some (.cellSltu rook cell)
  | 0x10 => some (.cellSel rook cell) | 0x11 => some (.cellFaddS rook cell) | 0x12 => some (.cellFmulS rook cell)
  | 0x13 => some (.cellFmaS rook cell) | 0x14 => some (.cellFmaxS rook cell) | 0x15 => some (.cellFminS rook cell)
  | 0x16 => some (.cellFltS rook cell) | 0x17 => some (.cellCbr rook cell) | 0x18 => some (.cellSteer rook cell)
  | 0x19 => some (.cellCvtSW rook cell) | 0x1A => some (.cellCvtWS rook cell) | 0x1B => some (.cellFnc rook cell)
  | _ => none

/-- The event of a cell in this cycle. -/
def Rook.cellPlan (r : Rook) (rook : RookKey) (cell : Fin 64) : Option Instr :=
  match r.cellAct cell with
  | .idle => none
  | .fire => cellEvent (imgInstr r.img cell (r.cell cell).pc).op rook cell
  | _ => some (.markerPass rook cell)

/-! ### Counter chains (R292) -/

/-- A count field, 0 standing for 65,536. -/
def countOf (w : Word) : Nat := if wordBits w 15 0 = 0 then 65536 else wordBits w 15 0

/-- The next position of three nested counts, with the markers that it passes and whether the run is over. -/
def countStep (n0 n1 n2 i0 i1 i2 : Nat) : (Nat × Nat × Nat) × List Nat × Bool :=
  if i0 + 1 < n0 then ((i0 + 1, i1, i2), [], false)
  else if i1 + 1 < n1 then ((0, i1 + 1, i2), [1], false)
  else if i2 + 1 < n2 then ((0, 0, i2 + 1), [1, 2], false)
  else ((0, 0, 0), [1, 2], true)

/-- The token of an iteration (R292). -/
def countToken (n0 i0 i1 i2 : Nat) : Word :=
  BitVec.ofNat 64 (i0 + i1 * 2 ^ 16 + i2 * 2 ^ 32 + (if i0 = 0 then 2 ^ 62 else 0) + (if i0 + 1 = n0 then 2 ^ 63 else 0))

/-- A counter chain has a token to emit and room for it. -/
def Rook.chainReady (r : Rook) (k cycle : Nat) : Bool :=
  let x := r.chain k
  r.live && imgMode r.img != 2 && unitEnabled r.img (68 + k) false && !r.saved (68 + k) && r.emitRoom (68 + k)
    && (!x.marks.isEmpty || (r.exhausted && !x.exhausted && r.endMode) || (r.sourcesRun && 0 < x.runs && x.next ≤ cycle))

/-- A counter chain emits a marker or an iteration (R292, R307). -/
def execCounterChainEmit (rook : RookKey) (chain : Nat) (s : State) : Result :=
  let r := s.rook rook
  let x := r.chain chain
  if !r.chainReady chain s.cycle then .next s
  else
    let put (r : Rook) (t : Token) : Rook := r.emit (68 + chain) t
    match x.marks with
    | m :: rest => .next (s.modRook rook (fun r => put (r.modChain chain (fun x => { x with marks := rest })) (markerToken m r.sourcePkt)))
    | [] =>
      if r.exhausted then
        .next (s.modRook rook (fun r => put (r.modChain chain (fun x => { x with exhausted := true, runs := 0 })) (markerToken 3 r.sourcePkt)))
      else
        let n0 := countOf (imgBlock r.img (4 + chain) 0)
        let n1 := countOf (imgBlock r.img (4 + chain) 1)
        let n2 := countOf (imgBlock r.img (4 + chain) 2)
        let ii := (imgBlock r.img (4 + chain) 3).toNat
        let y := countStep n0 n1 n2 x.i0 x.i1 x.i2
        let ends := y.2.2
        let stream : Bool := imgMode r.img = 1
        .next (s.modRook rook (fun r => put (r.modChain chain (fun x => { x with
          i0 := y.1.1, i1 := y.1.2.1, i2 := y.1.2.2, next := s.cycle + ii
          marks := y.2.1 ++ (if ends && r.endMode then [3] else [])
          runs := if ends then x.runs - 1 else x.runs
          exhausted := x.exhausted || (ends && stream) })) (dataToken (countToken n0 x.i0 x.i1 x.i2) r.sourcePkt)))

/-! ### Reduction units (R293) -/

/-- The identity of a reduction's operation (R171, R293). -/
def redIdentity (op : Nat) : Word :=
  match op with
  | 0 => 0x80000000 | 1 => 0x7F800000 | 2 => 0xFF800000 | 3 => 0 | 4 => 0x7FFFFFFF | _ => 0xFFFFFFFF80000000

/-- One fold (R293). -/
def redFold (op : Nat) (a b : Word) : Word :=
  match op with
  | 0 => BitVec.ofNat 64 (f32.addVal .rne false (cellFp a) (cellFp b)).1
  | 1 => BitVec.ofNat 64 (f32.minmax false false a.toNat b.toNat).1
  | 2 => BitVec.ofNat 64 (f32.minmax true false a.toNat b.toNat).1
  | 3 => a + b
  | 4 => if b.slt a then b else a
  | _ => if a.slt b then b else a

/-- A reduction unit takes one token: folded, or a marker with what it emits (R293). -/
def RedUnit.take (x : RedUnit) (op level : Nat) (src : Option Nat) (t : Token) : RedUnit :=
  let result : Token :=
    let pkt := if x.acc.isNone && x.poison.isNone then src else x.pkt
    match x.poison with
    | some (side, addr) => { val := addr, kind := 0, poison := true, side := side, pkt := pkt }
    | none => dataToken (x.acc.getD (redIdentity op)) pkt
  let fresh (x : RedUnit) : RedUnit := { x with acc := none, poison := none, pkt := none }
  if t.kind = 0 then
    { x with
      acc := some (redFold op (x.acc.getD (redIdentity op)) t.val)
      poison := x.poison <|> (if t.poison then some (t.side, t.val) else none)
      pkt := if x.acc.isNone && x.poison.isNone then t.pkt else x.pkt }
  else if (t.kind = 1 && level = 1) || (t.kind = 2 && level = 2) then fresh { x with outq := x.outq ++ [result, markerToken t.kind result.pkt] }
  else if t.kind = 1 then x
  else { x with outq := x.outq ++ [markerToken t.kind t.pkt] }

/-- A reduction unit has something to take or to emit. -/
def Rook.redReady (r : Rook) (k : Nat) : Bool :=
  let x := r.red k
  r.live && imgMode r.img != 2 && unitEnabled r.img (70 + k) false && !r.saved (70 + k)
    && ((x.outq.isEmpty && !x.inq.isEmpty && !r.snapped (70 + k)) || (!x.outq.isEmpty && r.emitRoom (70 + k)))

/-- A reduction unit takes a token when nothing waits to leave it, and emits one when its cell has room (R293). -/
def execReductionUnitStep (rook : RookKey) (unit : Nat) (s : State) : Result :=
  let r := s.rook rook
  if !r.redReady unit then .next s
  else
    let op := wordBits (imgBlock r.img (6 + unit) 0) 2 0
    let level := wordBits (imgBlock r.img (6 + unit) 0) 5 4
    let r := match (r.red unit).outq, (r.red unit).inq with
      | [], t :: rest => { (r.modRed unit (fun x => ({ x with inq := rest } : RedUnit).take op level r.sourcePkt t)) with took := (70 + unit) :: r.took }
      | _, _ => r
    let r := match (r.red unit).outq with
      | t :: rest => if r.emitRoom (70 + unit) then (r.modRed unit (fun x => { x with outq := rest })).emit (70 + unit) t else r
      | [] => r
    .next (s.modRook rook (fun _ => r))

/-! ### Special-function units (R294) -/

/-- A special-function unit has a token and room for it. -/
def Rook.sfuReady (r : Rook) (k : Nat) : Bool :=
  r.live && imgMode r.img != 2 && unitEnabled r.img (72 + k) false && !r.saved (72 + k) && !(r.sfuIn k).isEmpty && r.emitRoom (72 + k)

/-- A special-function unit applies its function to one token; markers pass (R294). -/
def execSpecialFunctionStep (rook : RookKey) (unit : Nat) (s : State) : Result :=
  let r := s.rook rook
  match r.sfuReady unit, r.sfuIn unit with
  | true, t :: rest =>
    let func := wordBits (imgBlock r.img (8 + unit) 0) 2 0
    let t := if t.kind = 0 && !t.poison then { t with val := BitVec.ofNat 64 (specialFn func (t.val.toNat % 2 ^ 32)) } else t
    .next (s.modRook rook (fun r => ({ (r.modSfu unit (fun _ => rest)) with took := (72 + unit) :: r.took } : Rook).emit (72 + unit) t))
  | _, _ => .next s

/-! ### The butterfly and converter at S4 (R295) -/

/-- The first poisoned token's record over every token of a block, since each output depends on each input (R295). -/
def spreadPoison (ts : List Token) (vals : List Word) : List Token :=
  match ts.find? Token.poison with
  | some p => ts.map (fun t => { t with val := p.val, poison := true, side := p.side })
  | none => (ts.zip vals).map (fun (t, v) => { t with val := v })

/-- What is made from a block of tokens belongs to the packet of the first of them (R302). -/
def ofFirst (ts made : List Token) : List Token := made.map (fun t => { t with pkt := (ts.head?).bind Token.pkt })

/-- A block of tokens through the network, a partial block padded with +0 (R295). -/
def rotateBlock (rot : Nat) (ts : List Token) : List Token :=
  if rot = 0 then ts
  else
    let xs := (List.range (2 ^ rot)).map (fun i => ((ts[i]?).map (fun t => t.val.toNat % 2 ^ 32)).getD 0)
    ofFirst ts (spreadPoison ts ((butterfly xs rot).map (BitVec.ofNat 64)))

/-- Codes and scale byte of up to 32 binary32 bit patterns, padded with +0 (R41, R295). -/
def taperBlock (n : Nat) (xs : List Nat) : List Nat × Byte :=
  quantiseBlock ((List.range 32).map (fun j => f32.read false (xs.getD j 0))) n

/-- A converter block: the codes of its tokens, then the scale byte (R295). -/
def convertBlock (conv : Nat) (ts : List Token) : List Token :=
  let n := if conv = 1 then 7 else 5
  let (codes, sb) := taperBlock n (ts.map (fun t => t.val.toNat % 2 ^ 32))
  let scale : Token := match ts.find? Token.poison with
    | some p => { p with kind := 0 }
    | none => dataToken (sb.setWidth 64) none
  ofFirst ts (spreadPoison ts (codes.map (BitVec.ofNat 64)) ++ [scale])

/-- Every complete block of 32 of a row is converted; what is left of it waits (R295): at most n blocks. -/
def convertBlocks (conv : Nat) : Nat → List Token → List Token × List Token
  | 0, ts => ([], ts)
  | n + 1, ts =>
    if ts.length < 32 then ([], ts)
    else
      let r := convertBlocks conv n (ts.drop 32)
      (convertBlock conv (ts.take 32) ++ r.1, r.2)

/-- Rotated tokens reach the converter. -/
def Butterfly.convert (b : Butterfly) (conv : Nat) (ts : List Token) : Butterfly :=
  if conv = 0 then { b with outq := b.outq ++ ts }
  else if conv = 3 then
    { b with outq := b.outq ++ ts.map (fun t => if t.poison then t else { t with val := BitVec.ofNat 64 (fpConvert f32 bf16 .rne false (t.val.toNat % 2 ^ 32)).1 }) }
  else
    let all := b.conv ++ ts
    let r := convertBlocks conv (all.length / 32) all
    { b with conv := r.2, outq := b.outq ++ r.1 }

/-- The network takes one token: an element of its row, EOR, which closes partial blocks, or another marker, which passes (R295). -/
def Butterfly.take (b : Butterfly) (rot conv : Nat) (t : Token) : Butterfly :=
  if t.kind = 0 then
    let blk := b.block ++ [t]
    if blk.length < 2 ^ rot then { b with block := blk } else ({ b with block := [] } : Butterfly).convert conv (rotateBlock rot blk)
  else if t.kind = 1 then
    let b := if b.block.isEmpty then b else ({ b with block := [] } : Butterfly).convert conv (rotateBlock rot b.block)
    let b := if b.conv.isEmpty then b else { b with conv := [], outq := b.outq ++ convertBlock conv b.conv }
    { b with outq := b.outq ++ [t] }
  else { b with outq := b.outq ++ [t] }

/-- The unit at S4 has a token to take or to emit; it takes none while a block of outputs waits (log 44). -/
def Rook.butterflyReady (r : Rook) : Bool :=
  r.live && unitEnabled r.img 76 false && !r.saved 76
    && ((!r.butterfly.inq.isEmpty && r.butterfly.outq.length ≤ 64 && !r.snapped 76) || (!r.butterfly.outq.isEmpty && r.emitRoom 76))

/-- The unit at S4 takes one token and emits one (R295). -/
def execButterflyConversion (rook : RookKey) (s : State) : Result :=
  let r := s.rook rook
  if !r.butterflyReady then .next s
  else
    let x := imgBlock r.img 12 0
    let b := r.butterfly
    let (b, took) : Butterfly × List Nat := match b.inq with
      | t :: rest => if b.outq.length ≤ 64 && !r.snapped 76 then (({ b with inq := rest } : Butterfly).take (wordBits x 2 0) (wordBits x 4 3) t, [76]) else (b, [])
      | [] => (b, [])
    let r := { r with butterfly := b, took := took ++ r.took }
    .next (s.modRook rook (fun _ => match b.outq with
      | t :: rest => if r.emitRoom 76 then ({ r with butterfly := { b with outq := rest } } : Rook).emit 76 t else r
      | [] => r))

/-! ### Link channels (R306, R381) -/

/-- A buffered token of an inbound channel enters the queue of its cell when there is room. -/
def Rook.linkIn (r : Rook) (c : Nat) : Rook :=
  match (r.link c).inbuf with
  | t :: rest => if r.emitRoom (80 + c) && !r.saved (80 + c) then (r.modLink c (fun l => { l with inbuf := rest })).emit (80 + c) t else r
  | [] => r

/-- The credit of a token that a channel has consumed goes back to its sender (R381). -/
def State.returnCredit (s : State) (rook channel : Nat) : State :=
  match ((s.rook rook).link channel).peer with
  | some (r, c) => s.sendAt 2 (rook / 4) (r / 4) (s.cycle + s.linkDelay rook r) 0 (.linkCreditReturn r c)
  | none => s

/-- A token arrives on an inbound channel (R381); one that is recorded, or SNAP, which ends the recording of the channel, is consumed at once (R311). -/
def execLinkTokenArrival (rook : RookKey) (channel : Nat) (tok : Token) (s : State) : Result :=
  if tok.kind = 5 then .next ((s.returnCredit rook channel).post s.now 0 (.snapArrival rook (80 + channel) 1))
  else
    let s := if (s.rook rook).records (80 + channel) 1 then s.returnCredit rook channel else s
    .next (s.modRook rook (fun r => (r.modLink channel (fun l => { l with inbuf := l.inbuf ++ [tok] })).linkIn channel))

/-- A credit returns to the sender of a channel (R381). -/
def execLinkCreditReturn (rook : RookKey) (channel : Nat) (s : State) : Result :=
  .next (s.modRook rook (fun r => r.modLink channel (fun l => { l with credit := l.credit + 1 })))

end Sys2Proof.Machine
end

