-- ==== Sys2Proof/Machine/Server.lean ====
section
/-! DEFINITION. Calls and packets (R208–R210, R288, R302, R415), memory ports (R289–R291, R313), configuration loads (R301), drains in their rooks (R305), stream graphs (R306–R308), the Arbiter (R309, R310), snapshots (R311), and what a rook does in each cycle. -/

namespace Sys2Proof.Machine

open Sys2Proof

/-! ### Packets (R302) -/

/-- A packet in flight. -/
def Rook.packet? (r : Rook) (n : Nat) : Option Packet := r.packets.find? (fun p => p.num = n)
/-- The rook with a packet changed. -/
def Rook.modPacket (r : Rook) (n : Nat) (f : Packet → Packet) : Rook := { r with packets := r.packets.map (fun p => if p.num = n then f p else p) }

/-- A packet's first fault is entered (R302). -/
def Packet.fail (p : Packet) (f : FaultRec) (cycle port : Nat) : Packet :=
  if faultFirst p.fault p.faultAt cycle port then { p with fault := some f, faultAt := (cycle, port) } else p

/-- A fault of a token's packet: entered in its table entry, or kept for the first packet when none has been accepted (R302). -/
def Rook.fault (r : Rook) (pkt : Option Nat) (f : FaultRec) (cycle port : Nat) : Rook :=
  match pkt with
  | none => r
  | some n =>
    if r.lastPkt.isNone then
      match r.early with
      | none => { r with early := some (f, cycle, port) }
      | some (g, at_) => if faultFirst (some g) at_ cycle port then { r with early := some (f, cycle, port) } else r
    else r.modPacket n (fun p => p.fail f cycle port)

/-- The fault that a packet's flag stands for. -/
def Rook.flagged (r : Rook) (pkt : Option Nat) : Option FaultRec :=
  match pkt with
  | none => none
  | some n => if r.lastPkt.isNone then r.early.map Prod.fst else (r.packet? n).bind Packet.fault

/-- A memory port is a store port (R289). -/
def storePort (img : List Word) (p : Nat) : Bool := portKind img p = 2 || portKind img p = 3

/-- What a port would take next: a marker, or an address with its consumed tokens and data (R289). -/
inductive PortNext where
  | none
  | marker (t : Token)
  | access (va : Word) (data : Word) (toks : List Token)
  deriving DecidableEq, Repr

/-- The address of the generator's position (R289). -/
def MemPort.genAddr (p : MemPort) (img : List Word) (b : Nat) : Word :=
  imgBlock img b 1 + p.runs.headD 0 + BitVec.ofNat 64 p.i0 * imgBlock img b 3 + BitVec.ofNat 64 p.i1 * imgBlock img b 5 + BitVec.ofNat 64 p.i2 * imgBlock img b 7

/-- The next thing at a port's input (R289). -/
def Rook.portNext (r : Rook) (b : Nat) : PortNext :=
  let p := r.port b
  let img := r.img
  let load : Bool := portKind img b = 1
  match p.inq, portAg img b with
  | [], true => if load && !p.runs.isEmpty && r.sourcesRun then .access (p.genAddr img b) 0 [] else .none
  | t :: rest, false =>
    if t.kind ≠ 0 then .marker t
    else if load then .access t.val 0 [t]
    else match rest with
      | u :: _ => if u.kind = 0 then .access t.val u.val [t, u] else .none
      | [] => .none
  | t :: _, true =>
    if load then (if !p.runs.isEmpty && r.sourcesRun then .access (p.genAddr img b) 0 [] else .none)
    else if t.kind ≠ 0 then .marker t
    else if p.runs.isEmpty then .none
    else .access (p.genAddr img b) t.val [t]
  | [], false => .none

/-- Cells and units from which a token can reach a store port (R302): n rounds of one step back. -/
def reachesStore (img : List Word) : Nat → List Nat
  | 0 => (List.range 4).filterMap (fun p => if storePort img p then some (64 + p) else none)
  | n + 1 =>
    let old := reachesStore img n
    old ++ (List.range 64).filter (fun c => !old.contains c &&
        ((cellInstrs img c).flatMap CellInstr.writes).any (fun d =>
          match neighbour c d with
          | some x => old.contains x
          | none => (edgeUnit c d).any old.contains))
      ++ [64, 65, 66, 67, 70, 71, 72, 73, 74, 75, 76].filter (fun u => !old.contains u && old.contains (emitsAt u).1)

/-- Every cell and unit from which a token can reach a store port. -/
def storeSide (img : List Word) : List Nat := if (List.range 4).any (storePort img) then reachesStore img 64 else []

/-- A port can start an access or take a marker in this cycle (R289). -/
def Rook.portReady (r : Rook) (b : Nat) : Bool :=
  let p := r.port b
  r.live && imgMode r.img != 2 && portKind r.img b != 0 && !p.refilling && p.busy.length < 32 && p.outs.length < 32
    && !r.snapped (64 + b)
    && (match r.portNext b with
      | .none => portKind r.img b = 1 && portAg r.img b && r.exhausted && !p.exhausted && imgMode r.img = 1
      | .marker t => t.kind != 3 || portKind r.img b != 2 || p.busy.isEmpty
      | .access _ _ _ => true)

/-- The result port has a token to take (R288, R302). -/
def Rook.resultReady (r : Rook) : Bool :=
  r.live && imgMode r.img = 0 && (match r.resq with
    | t :: _ => t.kind != 0 || r.nextRes < r.nextPkt
    | [] => false)

/-- The data tokens that stand at a cell or unit. -/
def Rook.tokensAt (r : Rook) (u : Nat) : List Token :=
  ((r.staged.filter (fun e => e.1 = u)).map (fun e => e.2.2)
    ++ (if u < 64 then (List.range 4).flatMap (r.cell u).queue
      else if u < 68 then (r.port (u - 64)).inq ++ (r.port (u - 64)).outs.filterMap PortOut.tok
      else if u < 72 then (r.red (u - 70)).inq ++ (r.red (u - 70)).outq
      else if u < 76 then r.sfuIn (u - 72)
      else r.butterfly.inq ++ r.butterfly.block ++ r.butterfly.conv ++ r.butterfly.outq)).filter (fun t => t.kind = 0)

/-- Something in a rook can still act: a token that waits there may still meet its partner, or find room. -/
def Rook.moves (r : Rook) : Bool :=
  !r.staged.isEmpty || r.resultReady || r.butterflyReady
    || (List.range 64).any (fun c => r.cellAct c != .idle)
    || (List.range 4).any (fun p => r.portReady p || (r.port p).refilling || !(r.port p).busy.isEmpty
        || (r.port p).outs.any (fun o => o.tok.isSome) && r.emitRoom (64 + p) || r.sfuReady p)
    || (List.range 2).any (fun k => r.redReady k
        || unitEnabled r.img (68 + k) false && r.emitRoom (68 + k) && (!(r.chain k).marks.isEmpty || 0 < (r.chain k).runs))

/-- A packet has a store that is not acknowledged, or a token in a rook that moves, from which a store may still come (R302; log 143). -/
def Rook.storesOpen (r : Rook) (n : Nat) : Bool :=
  (List.range 4).any (fun p => storePort r.img p && (r.port p).busy.any (fun e => e.pkt = some n))
    || !r.frozen && (storeSide r.img).any (fun u =>
        (r.tokensAt u).any (fun t => t.pkt = some n) || (64 ≤ u && u < 68 && (r.port (u - 64)).busy.any (fun e => e.pkt = some n))) && r.moves

/-- A packet's reply leaves once its result is taken and its stores are acknowledged (R302, R415). -/
def State.judgePacket (s : State) (rook : RookKey) (n : Nat) : State :=
  match (s.rook rook).packet? n with
  | some p => if p.result.isSome && !(s.rook rook).storesOpen n then s.post s.now 0 (.serverReply rook n) else s
  | none => s

/-! ### The argument port and the result port (R288) -/

/-- The argument positions that an image reads. -/
def argumentRows (img : List Word) : List Nat :=
  (List.range 8).filter (fun j => ((cellInstrs img (8 * j)).flatMap CellInstr.reads).contains 3)

/-- The argument port can accept its next packet (R288, R302). -/
def Rook.acceptReady (r : Rook) : Bool :=
  r.live && imgMode r.img = 0 && !r.calls.isEmpty && r.packets.length < 64
    && (argumentRows r.img).all (fun j => ((r.cell (8 * j)).queue 3).length < 2)

/-- A run of every generator and chain for an accepted packet (R289, R292). -/
def Rook.startRuns (r : Rook) (arg : Word) : Rook :=
  let img := r.img
  let r := (List.range 4).foldl (fun r p =>
    let n (j : Nat) := (imgBlock img p j).toNat
    if portKind img p != 0 && portAg img p && n 2 * n 4 * n 6 != 0 then r.modPort p (fun x => { x with runs := x.runs ++ [arg] }) else r) r
  (List.range 2).foldl (fun r k => if unitEnabled img (68 + k) false then r.modChain k (fun x => { x with runs := x.runs + 1 }) else r) r

/-- The argument port accepts a packet: its table entry, its argument tokens, its runs (R288, R302). -/
def execArgumentPortAccept (rook : RookKey) (s : State) : Result :=
  let r := s.rook rook
  match r.acceptReady, r.calls with
  | true, c :: rest =>
    let n := r.nextPkt
    let fault := if r.lastPkt.isNone then r.early else none
    let p : Packet := { num := n, call := c, tp := c.time, fault := fault.map Prod.fst, faultAt := (fault.map Prod.snd).getD (0, 0), result := none }
    .next (s.modRook rook (fun r =>
      { r.startRuns (c.args.getD 0 0) with
        calls := rest, packets := r.packets ++ [p], nextPkt := n + 1, lastPkt := some n, early := none, used := s.cycle
        staged := r.staged ++ (argumentRows r.img).map (fun j => (8 * j, 3, dataToken (c.args.getD j 0) (some n))) }))
  | _, _ => .next s

/-- The result port takes a token: the result of the next packet in order, or a marker, which is discarded (R288, R302). -/
def execResultPortTake (rook : RookKey) (s : State) : Result :=
  let r := s.rook rook
  match r.resultReady, r.resq with
  | true, t :: rest =>
    let s := s.modRook rook (fun r => { r with resq := rest })
    if t.kind ≠ 0 then .next s
    else .next ((s.modRook rook (fun r => { r.modPacket r.nextRes (fun p => { p with result := some t }) with nextRes := r.nextRes + 1 })).judgePacket rook r.nextRes)
  | _, _ => .next s

/-- The fault that a packet's reply carries (R302). -/
def Packet.replyFault (p : Packet) : Option FaultRec :=
  match p.fault, p.result with
  | some f, _ => some f
  | none, some t => if t.poison then some (tokenFault t) else none
  | none, none => none

/-- The reply of a packet leaves: its entry is freed, its result reaches the caller 5 cycles later (R302, R415). -/
def execServerReply (rook : RookKey) (pkt : Nat) (s : State) : Result :=
  match (s.rook rook).packet? pkt with
  | none => .next s
  | some p =>
    if p.result.isNone then .next s
    else
      let s := s.modRook rook (fun r => { r with packets := r.packets.filter (fun x => x.num != pkt) })
      let m : ResultMsg := { call := p.call, val := (p.result.map Token.val).getD 0, fault := p.replyFault, raise := p.tp }
      .next ((s.postAt (s.cycle + 5) (completionRank p.call.issue 0) (.serverResult m)).rookFreed (rook / 4))

/-- A call is answered with a fault, 5 cycles before its caller has it (R302, R415). -/
def State.answerCall (s : State) (c : CallMsg) (f : FaultRec) : State :=
  s.postAt (s.cycle + 5) (completionRank c.issue 0) (.serverResult { call := c, val := 0, fault := some f, raise := 0 })

/-- cr.tinf of a server fault (R210). -/
def serverInfo (f : FaultRec) (fid : Nat) : Word := BitVec.ofNat 64 (f.stage + f.sub * 2 ^ 8 + fid * 2 ^ 16)

/-- A call's result reaches its core: gd Full, cr.time raised, a serve's thread ready; a fault traps or marks gd; a stale generation drops it (R209, R210). -/
def execServerResult (m : ResultMsg) (s : State) : Result :=
  let t := m.call.thread
  let k := s.core t.core
  let used := if k.portCycle = s.cycle then k.portUsed else 0
  if !s.matches_ t then .next (s.drop t.core 1)
  else if 2 ≤ used then .next (s.postAt (s.cycle + 1) 0 (.serverResult m))
  else
    let s := s.modCore t.core (fun k => { k with portCycle := s.cycle, portUsed := used + 1 })
    let s := s.raiseTime t.core m.raise
    let block := (s.slot t.core t.slot).block.filter (fun b => b.kind == .serve)
    let (val, mark) : Word × Option Mark := match m.fault with
      | none => (m.val, none)
      | some f => if m.call.serve then (0, none) else (f.addr, some { cause := 0x0E1, info := (serverInfo f m.call.fid).setWidth 32 })
    let s := s.complete t.core t.slot (.g m.call.dst) (val.setWidth 512) mark true
    let s := s.finishFull t m.call.id
    let s := match m.call.serve, block, m.fault with
      | true, some b, some f => s.trapWaiting t b { cause := 0x0E1, tval := f.addr, tinf := serverInfo f m.call.fid }
      | true, some _, none => s.endWait t (fun sl => { sl with readyAt := max sl.readyAt s.cycle })
      | _, _, _ => s
    .next (s)

/-! ### serve and servn (R208, R209) -/

/-- A call leaves its thread (R209): at once, or after step 1's wait. -/
def callServer (serve : Bool) (d a : Fin 32) (n : Fin 8) (f : BitVec 10) (s : State) : Result :=
  let s := s.modMe (fun sl => { sl with regs := sl.regs.retag .pending (.g d) })
  if s.cur.stage = 0 && s.me.out.any (fun o => o.kind.beforeCall) then .next ((s.wantCheckpoint s.cur.core).wait .stores)
  else
    let (id, s) := s.begin_ .call 0 0
    let call : CallMsg :=
      { thread := s.meRef, id := id, serve := serve, dst := d, fid := f.toNat, args := (argRegs a n).map s.gval
        ctx := s.me.ctx, sup := s.me.st.sup, cluster := s.myClu, time := s.myCore.time, issue := s.cycle }
    let s := s.postAt (s.cycle + 6) (senderRank s.cur.core s.cur.slot) (.callArrival call)
    .next (if serve then s.wait .serve else s)

/-- serve (R208–R210). -/
def execServe (d a : Fin 32) (n : Fin 8) (f : BitVec 10) (s : State) : Result := callServer true d a n f s
/-- servn (R208–R210). -/
def execServn (d a : Fin 32) (n : Fin 8) (f : BitVec 10) (s : State) : Result := callServer false d a n f s

/-! ### Requests and configuration loads (R301, R302, R305) -/

/-- The context and function that a request names. -/
def RookReq.key (q : RookReq) : Nat × Nat :=
  match q with
  | .call c => (c.ctx, c.fid)
  | .drain d => (d.ctx, d.fid)

/-- The rook of a cluster that holds, or is loading, a function of a context. -/
def State.holder (s : State) (clu : ClusterKey) (ctx fid : Nat) : Option RookKey :=
  ((List.range 4).find? (fun i =>
    let r := s.rook (4 * clu + i)
    r.cfg.any (fun c => c.ctx = ctx && c.fid = fid) || r.load.any (fun l => l.cfg.ctx = ctx && l.cfg.fid = fid))).map (fun i => 4 * clu + i)

/-- A rook that the launch unit may take: no packet is in flight, no drain is running, and it is neither reserved nor frozen; a load in progress is interrupted (R301). -/
def Rook.takeable (r : Rook) : Bool :=
  !r.frozen && r.reserved.isNone && r.packets.isEmpty && r.calls.isEmpty && r.drains.isEmpty

/-- A rook that a miss may take (R301). -/
def Rook.idle (r : Rook) : Bool := r.load.isNone && r.takeable

/-- The least recently used idle rook of a cluster, the lowest on a tie (R301). -/
def State.idleRook (s : State) (clu : ClusterKey) : Option RookKey :=
  let l := (List.range 4).filter (fun i => (s.rook (4 * clu + i)).idle)
  (minOf (l.map (fun i => (s.rook (4 * clu + i)).used))).bind (fun m =>
    (l.find? (fun i => (s.rook (4 * clu + i)).used = m)).map (fun i => 4 * clu + i))

/-- A drain is answered with a fault: it streams with no sink (R192, R305, log 45). -/
def State.loseDrain (s : State) (d : DrainMsg) (f : FaultRec) : State :=
  s.modClu d.cluster (fun k => { k with lostDrains := k.lostDrains ++ [(d.cmd, f)] })

/-- A request is answered with a fault. -/
def State.refuseReq (s : State) (q : RookReq) (f : FaultRec) : State :=
  match q with
  | .call c => s.answerCall c f
  | .drain d => s.loseDrain d f

/-- A configured rook begins anew (R283, R301, R313). -/
def Rook.configured (r : Rook) (cfg : RookCfg) (cycle : Nat) : Rook :=
  { Rook.init with
    cfg := some cfg, reserved := r.reserved, used := cycle, lastFire := cycle
    links := r.links.map (fun l => { l with inbuf := [], credit := 8, ended := false }) }

/-- No refill of a rook's ports is under way any more (R313). -/
def State.dropRefills (s : State) (rook : RookKey) : State :=
  let drop (w : Walk) : Walk := { w with ports := w.ports.filter (fun p => p / 4 != rook) }
  s.modClu (rook / 4) (fun k => { k with walks := k.walks.map drop, walkWait := k.walkWait.map drop })

/-- A load of an image into a rook begins (R301): 384 cycles, and the latency of the image when the cache does not hold it. -/
def State.beginLoad (s : State) (rook : RookKey) (cfg : RookCfg) (lat : Nat) (waits : List RookReq) (resume : Bool) : State :=
  let (id, s) := s.takeFresh
  let s := (s.dropRefills rook).modRook rook (fun r => { r with cfg := none, load := some { id := id, cfg := cfg, waits := waits, resume := resume } })
  s.postAt (s.cycle + lat + 384) 0 (.configurationLoadCompletion rook id)

/-- A request is looked at as on its arrival. -/
def State.routeReq (s : State) (q : RookReq) : State :=
  match q with
  | .call c => s.post s.now 0 (.callArrival c)
  | .drain d => s.post s.now 0 (.drainArrival d)

/-- A load is interrupted: it is abandoned and its rook left unconfigured; its requests wait again, before all others (R301). -/
def State.abandonLoad (s : State) (rook : RookKey) : State :=
  match (s.rook rook).load with
  | none => s
  | some l =>
    let s := s.modRook rook (fun r => { r with load := none, cfg := none })
    (s.modClu (rook / 4) (fun k => { k with rookWait := l.waits ++ k.rookWait })).rookFreed (rook / 4)

/-- An idle rook is given to the request that waits first, with every other request for the same function; requests for a function that a rook has come to hold are routed to it (R301). -/
def execConfigurationLoad (cluster : ClusterKey) (ctx fid : Nat) (s : State) : Result :=
  let k := s.clu cluster
  match k.rookWait with
  | [] => .next s
  | q :: _ =>
    let mine := k.rookWait.filter (fun x => x.key = (ctx, fid))
    if q.key ≠ (ctx, fid) then .next s
    else if (s.holder cluster ctx fid).isSome then
      .next (mine.foldl State.routeReq (s.modClu cluster (fun k => { k with rookWait := k.rookWait.filter (fun x => x.key != (ctx, fid)) })) |>.rookFreed cluster)
    else match s.idleRook cluster with
      | none => .next s
      | some rook =>
        let s := s.modClu cluster (fun k => { k with rookWait := k.rookWait.filter (fun x => x.key != (ctx, fid)) })
        let again (s : State) : State := s.rookFreed cluster
        match k.cached ctx fid with
        | some img =>
          let s := s.modClu cluster (fun k => { k with images := k.images.map (fun e => if e.ctx = ctx && e.fid = fid then { e with used := s.cycle } else e) })
          .next (again (s.beginLoad rook { ctx := ctx, fid := fid, img := img } 0 mine false))
        | none =>
          let found := s.findImage cluster ctx fid
          let s := s.logImage cluster ctx found
          match found with
          | .image img lat => .next (again (s.beginLoad rook { ctx := ctx, fid := fid, img := img } lat mine false))
          | .unmapped f => .next (again (mine.foldl (fun s x => s.refuseReq x f) s))
          | .refused f _ _ => .next (again (mine.foldl (fun s x => s.refuseReq x f) s))

/-- The cycles from a rook to the launch unit of a die, for the acknowledgement of a load (log 50). -/
def State.unitWay (s : State) (rook : RookKey) (d : DieKey) : Nat := s.oneWayClu (rook / 4) (24 * d)

/-- Every rook of a launch's graph has acknowledged its load: the sources start in the cycle after the last acknowledgement reaches the launch unit (R306, R308). -/
def State.judgeGraph (s : State) (launch : Nat) : State :=
  match s.launch? launch with
  | none => s
  | some l =>
    if !l.graph.isEmpty && l.graph.all (fun r => (getKey l.acks r).isSome) then
      s.postAt (max s.cycle (maxOf (l.acks.map Prod.snd)) + 1) 0 (.streamGraphStart launch)
    else s

/-- A rook of a graph acknowledges its load (R306). -/
def State.ackLoad (s : State) (launch : Nat) (rook : RookKey) : State :=
  (s.modLaunch launch (fun l => { l with acks := setKey l.acks rook (s.cycle + s.unitWay rook l.die) })).judgeGraph launch

/-- The tokens of a list but SNAP, which no record holds (R355). -/
def noSnap (ts : List Token) : List Token := ts.filter (fun t => t.kind != 5)

/-- A rook as its record restores it: its queues without SNAP, no translation in its ports (R311, R313, R358). -/
def Rook.restored (r : Rook) (cfg : RookCfg) (reserved : Option Nat) (cycle : Nat) : Rook :=
  { r with
    cfg := some cfg, load := none, reserved := reserved, frozen := false, used := cycle, lastFire := cycle, running := false, snap := none, took := []
    cells := r.cells.map (fun c => { c with dq := c.dq.map noSnap })
    ports := r.ports.map (fun p => { p with xlat := none, missed := none, refilling := false, inq := noSnap p.inq })
    reds := r.reds.map (fun x => { x with inq := noSnap x.inq }), sfus := r.sfus.map (fun x => { x with inq := noSnap x.inq })
    butterfly := { r.butterfly with inq := noSnap r.butterfly.inq } }

/-- A configuration load ends: the rook is live, or takes the record saved of it; its image is cached, the requests that wait for it are routed (R283, R301, R358). -/
def execConfigurationLoadCompletion (rook : RookKey) (id : Nat) (s : State) : Result :=
  match (s.rook rook).load with
  | none => .next s
  | some l =>
    if l.id ≠ id then .next s
    else
      let clu := rook / 4
      let s := s.modClu clu (fun k => if (k.cached l.cfg.ctx l.cfg.fid).isSome then k else k.cacheImage l.cfg.ctx l.cfg.fid l.cfg.img s.cycle)
      let place := 4 * l.cfg.ctx + rook % 4
      let s := match (if l.resume then getKey (s.clu clu).keptRooks place else none) with
        | some old => (s.modRook rook (fun r => old.restored l.cfg r.reserved s.cycle)).modClu clu (fun k => { k with keptRooks := delKey k.keptRooks place })
        | none => s.modRook rook (fun r => r.configured l.cfg s.cycle)
      let s := l.waits.foldl State.routeReq s
      .next (match (s.rook rook).reserved with
        | some n => s.ackLoad n rook
        | none => s.rookFreed clu)

/-- A request that no rook of its cluster can take now: it is answered when its function is not mapped, and waits for an idle rook otherwise (R301, R302). -/
def State.missReq (s : State) (clu : ClusterKey) (q : RookReq) : State :=
  let (ctx, fid) := q.key
  let wait (s : State) : State := (s.modClu clu (fun k => { k with rookWait := k.rookWait ++ [q] })).rookFreed clu
  if ((s.clu clu).cached ctx fid).isSome then wait s
  else
    let found := s.findImage clu ctx fid
    let s := s.logImage clu ctx found
    match found with
    | .image _ _ => wait s
    | .unmapped f => s.refuseReq q f
    | .refused f _ _ => s.refuseReq q f

/-- The answer of a frozen region (R309). -/
def frozenFault : FaultRec := { sub := 6, stage := 0, addr := 0 }

/-- A call reaches its cluster: queued at the rook that holds its fid in server mode, answered at once, or a miss (R302, R309). -/
def execCallArrival (c : CallMsg) (s : State) : Result :=
  match s.holder c.cluster c.ctx c.fid with
  | none => .next (s.missReq c.cluster (.call c))
  | some rook =>
    let r := s.rook rook
    if r.load.isSome then .next (s.modRook rook (fun r => { r with load := r.load.map (fun l => { l with waits := l.waits ++ [.call c] }) }))
    else if r.frozen then .next (s.answerCall c frozenFault)
    else if imgMode r.img ≠ 0 then .next (s.answerCall c notMapped)
    else .next (s.modRook rook (fun r => { r with calls := r.calls ++ [c] }))

/-! ### Memory ports (R289–R291) -/

/-- The caller whose context a port's access is checked in: context, privilege and logical time of its packet; a stream's ports use their launch and their own time (R290, R291). -/
def Rook.caller (r : Rook) (port : Nat) (pkt : Option Nat) : Nat × Bool × Nat :=
  match pkt.bind r.packet? with
  | some p => (p.call.ctx, p.call.sup, p.tp)
  | none => ((r.cfg.map RookCfg.ctx).getD 0, false, (r.port port).time)

/-- A port's verdict on an access (R290). -/
inductive PortCheck where
  | fail (sub : Nat)
  /-- the entry is refilled first -/
  | refill
  | pass (e : TlbEntry)
  deriving DecidableEq, Repr

/-- The checks of R290 up to permission, in order. -/
def MemPort.check (p : MemPort) (ctx : Nat) (sup : Bool) (va : Word) (size : Nat) (store : Bool) : PortCheck :=
  if va.getLsbD 63 then .fail 2
  else if wordBits va 62 55 ≠ 0 then .fail 1
  else if va.toNat % size ≠ 0 then .fail 3
  else match p.xlat.filter (fun e => e.maps ctx va.toNat) with
    | some e => if permitted e (if store then .store else .load) sup then .pass e else .fail 2
    | none => match p.missed with
      | some (c, page, sub) => if c = ctx && page = va.toNat / 2 ^ 16 then .fail sub else .refill
      | none => .refill

/-- A port asks for a translation; it stalls meanwhile (R290). -/
def State.portRefill (s : State) (rook port ctx : Nat) (va : Word) : State :=
  (s.modRook rook (fun r => r.modPort port (fun p => { p with refilling := true }))).requestWalk (rook / 4) ctx va [] [rook * 4 + port]

/-- The access that a port makes (R289, R291). -/
def State.portAccess (s : State) (rook : RookKey) (agent : Agent) (id : Nat) (op : GlobalOp) (ctx : Nat) (e : TlbEntry) (va : Word) (size ts : Nat) (data : VWord) : Access :=
  let src := rook / 4
  let pa := e.phys va.toNat
  { agent := agent, id := id, op := op, ctx := ctx, va := va, pa := pa, home := e.home, src := src, size := size
    ts := ts, snap := 0, ordered := false, vbit := e.v, code := e.code, uncached := e.uncached
    data := data, cmp := 0, dst := none, ext := .zero, word := 0, issue := s.cycle
    reply := s.accessLatency src e.home pa - s.homeLatency src e.home / 2, queued := false, bad := none }

/-- A load or store leaves for the cluster cache or its home, some cycles from now (R291, R416). -/
def State.sendAccess (s : State) (a : Access) (after : Nat) : State :=
  if a.op = .load && !a.uncached then s.postAt (s.cycle + after + 18) (agentRank a.agent) (.clusterCacheAccess a)
  else s.sendAt 3 a.src a.home (s.cycle + after + s.homeLatency a.src a.home / 2) (agentRank a.agent) (if a.op = .load then .homeLoad a else .homeStore a)

/-- The oldest outputs of a port that are ready leave it, one a cycle (R289). -/
def Rook.flushPort (r : Rook) (p cycle : Nat) : Rook :=
  match (r.port p).outs with
  | { seq := _, tok := some t } :: rest =>
    if (r.port p).outAt ≤ cycle && r.emitRoom (64 + p) then (r.modPort p (fun x => { x with outs := rest, outAt := cycle + 1 })).emit (64 + p) t else r
  | _ => r

/-- The generator moves on after an access, with the markers that a load port emits (R289). -/
def Rook.advanceGen (r : Rook) (b : Nat) : Rook :=
  let img := r.img
  let p := r.port b
  let n (j : Nat) := (imgBlock img b j).toNat
  let y := countStep (n 2) (n 4) (n 6) p.i0 p.i1 p.i2
  let stream : Bool := imgMode img = 1
  let marks := if portKind img b = 1 then y.2.1 ++ (if y.2.2 && stream then [3] else []) else []
  r.modPort b (fun p => { p with
    i0 := y.1.1, i1 := y.1.2.1, i2 := y.1.2.2, runs := if y.2.2 then p.runs.tail else p.runs
    exhausted := p.exhausted || (y.2.2 && stream)
    outs := p.outs ++ marks.map (fun k => ⟨0, some (markerToken k r.sourcePkt)⟩) })

/-- The tokens of an access, and its place in the generator, are used up. -/
def Rook.takeAccess (r : Rook) (b : Nat) (toks : List Token) (out : Option PortOut) : Rook :=
  let r := r.modPort b (fun p => { p with inq := p.inq.drop toks.length, missed := none, outs := p.outs ++ (if portKind r.img b = 2 then [] else out.toList) })
  if portAg r.img b then r.advanceGen b else r

/-- A sector's part of a row of a drain is stored by port 1 or 2 (R305); none while the port refills. -/
def State.drainStore (s : State) (rook : RookKey) (d : DrainRun) (x : RowStore) : State :=
  let r := s.rook rook
  let done (s : State) : State := s.modDrain rook d.num (fun y => { y with pend := y.pend.erase x })
  let size := if x.bytes.isEmpty then portSize r.img x.port else 1
  let va := if x.bytes.isEmpty && x.va.toNat % size = 0 then x.va + 1 else x.va
  match (r.port x.port).check d.msg.ctx d.msg.sup va size true with
  | .fail sub => done ((s.modRook rook (fun r => r.modPort x.port (fun p => { p with missed := none }))).modDrain rook d.num
      (fun y => y.fail { sub := sub, stage := 0, addr := x.va } s.cycle x.port))
  | .refill => s.portRefill rook x.port d.msg.ctx x.va
  | .pass e =>
    let (id, s) := s.takeFresh
    let a := s.portAccess rook (.drain rook d.num) id .store d.msg.ctx e x.va x.bytes.length (d.times.getD x.port 0) (BitVec.ofNat 512 (bytesNat x.bytes))
    done ((s.modDrain rook d.num (fun y => { y with out := y.out ++ [(id, x.port, x.row)] })).sendAccess a 0)

/-- The rows whose stores a drain port has under way: each is one access of its port (R289). -/
def Rook.drainRows (r : Rook) (port : Nat) : Nat :=
  ((r.drains.flatMap (fun d => (d.out.filter (fun e => e.2.1 = port)).map (fun e => (d.num, e.2.2)))).eraseDups).length

/-- A drain port performs one row store in a cycle, all of its sectors, while it holds fewer than 32; it stops to refill (R289, R305). -/
def State.drainStores (s : State) (rook port : Nat) (row : Option (Nat × Nat)) : Nat → State
  | 0 => s
  | n + 1 =>
    let r := s.rook rook
    if (r.port port).refilling || !r.live || (row.isNone && 32 ≤ r.drainRows port) then s
    else match r.drains.findSome? (fun d => (d.pend.find? (fun x => x.port = port && x.due ≤ s.cycle)).map (fun x => (d, x))) with
      | none => s
      | some (d, x) =>
        if row.any (fun y => y != (d.num, x.row)) then s else (s.drainStore rook d x).drainStores rook port (some (d.num, x.row)) n

/-- A row store waits at a drain port. -/
def Rook.drainWaits (r : Rook) (port cycle : Nat) : Bool := r.drains.any (fun d => d.pend.any (fun x => x.port = port && x.due ≤ cycle))

/-- A memory port takes a marker or starts an access: not performed when its packet has failed or a token is poisoned, failed under R290, or sent (R289–R291, R302). -/
def execMemoryPortAccess (rook : RookKey) (port : Nat) (s : State) : Result :=
  let r := s.rook rook
  if imgMode r.img = 2 then
    let s := s.drainStores rook port none 8
    let s := if (s.rook rook).drainWaits port s.cycle && !((s.rook rook).port port).refilling then s.post (4 * (s.cycle + 1) + 2) 0 (.memoryPortAccess rook port) else s
    .next ((s.rook rook).drains.foldl (fun s d => s.judgeDrain rook d.num) s)
  else if !r.portReady port then .next s
  else
    let kind := portKind r.img port
    match r.portNext port with
    | .none => .next (s.modRook rook (fun r => r.modPort port (fun p => { p with
        exhausted := true, runs := [], outs := p.outs ++ [⟨0, some (markerToken 3 r.sourcePkt)⟩] })))
    | .marker t =>
      .next (s.modRook rook (fun r => r.modPort port (fun p => { p with
        inq := p.inq.tail, ended := p.ended || t.kind = 3, outs := if kind = 2 then p.outs else p.outs ++ [⟨0, some t⟩] })))
    | .access va data toks =>
      let pkt := match toks with
        | t :: _ => t.pkt
        | [] => r.sourcePkt
      let (ctx, sup, tp) := r.caller port pkt
      let size := portSize r.img port
      let skip (s : State) (f : FaultRec) : State := s.modRook rook (fun r => r.takeAccess port toks (some ⟨0, some (faultToken f pkt)⟩))
      let s := match r.flagged pkt, toks.find? Token.poison with
        | some f, _ => skip s f
        | none, some t => skip s (tokenFault t)
        | none, none =>
          match (r.port port).check ctx sup va size (kind != 1) with
          | .refill => s.portRefill rook port ctx va
          | .fail sub =>
            let f : FaultRec := { sub := sub, stage := portStage r.img port, addr := va }
            skip (s.modRook rook (fun r => r.fault pkt f s.cycle port)) f
          | .pass e =>
            let (seq, s) := s.takeFresh
            let a := s.portAccess rook (.port rook port seq) seq (if kind = 1 then .load else .store) ctx e va size tp (data.setWidth 512)
            let s := s.modRook rook (fun r => (r.takeAccess port toks (some ⟨seq, none⟩)).modPort port (fun p => { p with busy := p.busy ++ [⟨seq, pkt, va, kind != 1⟩] }))
            s.sendAccess a 0
      .next (match pkt with
        | some n => s.judgePacket rook n
        | none => s)

/-- An access of a port has been performed: its output, its times, its packet (R289–R291, R302). -/
def execMemoryPortReply (rook : RookKey) (port : Nat) (seq : Nat) (val : VWord) (poison : Bool) (wts : Nat) (s : State) : Result :=
  let r := s.rook rook
  match (r.port port).busy.find? (fun e => e.seq = seq) with
  | none => .next s
  | some e =>
    let f : FaultRec := { sub := 4, stage := portStage r.img port, addr := e.va }
    let tok := if poison then faultToken f e.pkt else if portKind r.img port = 1 then dataToken (val.setWidth 64) e.pkt else dataToken 0 e.pkt
    let r := r.modPort port (fun p => { p with
      busy := p.busy.filter (fun x => x.seq != seq), outs := p.outs.map (fun o => if o.seq = seq && o.tok.isNone then { o with tok := some tok } else o) })
    let r := if poison then r.fault e.pkt f s.cycle port else r
    let r := match e.pkt with
      | some n => r.modPacket n (fun p => { p with tp := max p.tp wts })
      | none => r.modPort port (fun p => { p with time := max p.time wts })
    let r := if storePort r.img port then { r with phaseTime := max r.phaseTime wts } else r
    let s := s.modRook rook (fun _ => r.flushPort port s.cycle)
    let s := match r.frozen, r.reserved with
      | true, some n => s.post s.now 0 (.launchCompletion n)
      | _, _ => s
    .next (match e.pkt with
      | some n => s.judgePacket rook n
      | none => s)

/-- The privilege in which the access that waits at a port is checked (R290, R305). -/
def Rook.waitsAs (r : Rook) (port : Nat) : Bool :=
  if imgMode r.img = 2 then ((r.drains.find? (fun d => d.pend.any (fun x => x.port = port))).map (fun d => d.msg.sup)).getD false
  else
    let pkt := match r.portNext port with
      | .access _ _ (t :: _) => t.pkt
      | _ => r.sourcePkt
    (r.caller port pkt).2.1

/-- A port's translation arrives: its entry is filled, or, when the page is not mapped or its permission fails, stays empty and the access that asked will fail (R290, R313). -/
def execPortTranslationRefill (rook : RookKey) (port : Nat) (id : Nat) (s : State) : Result :=
  let clu := rook / 4
  match (s.clu clu).walks.find? (fun w => w.id = id) with
  | none => .next s
  | some w =>
    let mine : Bool := w.ports.contains (rook * 4 + port)
    let rest := w.ports.filter (· != rook * 4 + port)
    let s := s.modClu clu (fun k => { k with walks := if rest.isEmpty then k.walks.filter (fun x => x.id != id) else k.walks.map (fun x => if x.id = id then { x with ports := rest } else x) })
    let r := s.rook rook
    let kind := if portKind r.img port != 1 && !(imgMode r.img = 2 && port = 0) then AccKind.store else .load
    let page := w.va.toNat / 2 ^ 16
    let (xlat, missed) : Option TlbEntry × Option (Nat × Nat × Nat) := match w.result, w.stale with
      | some (some e), false => if permitted e kind (r.waitsAs port) then (some e, none) else (none, some (w.ctx, page, 2))
      | some none, false => (none, some (w.ctx, page, 1))
      | _, _ => (none, none)
    if !mine then .next s
    else
      let s := s.modRook rook (fun r => r.modPort port (fun p => { p with refilling := false, xlat := xlat, missed := missed }))
      .next (if imgMode r.img = 2 then s.post (4 * s.cycle + 2) 0 (.memoryPortAccess rook port) else s)

/-! ### Drains in their rook (R305) -/

/-- A drain's first unit cycle may fall in s0: at once, or after the bias read that begins there (R305). -/
def State.startDrain (s : State) (rook : RookKey) (d : DrainRun) (s0 : Nat) : State :=
  let img := (s.rook rook).img
  let x := imgBlock img 12 0
  if !x.getLsbD 5 then s.modDrain rook d.num (fun y => { y with first := some s0 })
  else
    let clu := rook / 4
    let base := d.msg.arg + imgBlock img 12 1
    let last := base + 124
    let lb := s.sectorLatency clu d.msg.ctx last
    let s := s.modDrain rook d.num (fun y => { y with biasLeft := 32, planned := s0 + 31 + lb })
    (List.range 32).foldl (fun s j =>
      let va := base + BitVec.ofNat 64 (4 * j)
      let fail (s : State) (sub : Nat) : State := s.modDrain rook d.num (fun y => y.takeBias j 0 0 (s0 + j) (some { sub := sub, stage := 0, addr := va }))
      if va.getLsbD 63 then fail s 2
      else if wordBits va 62 55 ≠ 0 then fail s 1
      else if va.toNat % 4 ≠ 0 then fail s 3
      else match s.leafOf (pkgOfClu clu) d.msg.ctx va with
        | none => fail (s.logWalk clu d.msg.ctx va) 1
        | some e =>
          if !permitted e .load d.msg.sup then fail s 2
          else s.sendAccess (s.portAccess rook (.drain rook d.num) j .load d.msg.ctx e va 4 (d.times.getD 0 0) 0) (s0 - s.cycle + j)) s

/-- A drain reaches its cluster: it joins its rook's drains, is a miss, or is answered with a fault (R305, R309). -/
def execDrainArrival (d : DrainMsg) (s : State) : Result :=
  match s.holder d.cluster d.ctx d.fid with
  | none => .next (s.missReq d.cluster (.drain d))
  | some rook =>
    let r := s.rook rook
    if r.load.isSome then .next (s.modRook rook (fun r => { r with load := r.load.map (fun l => { l with waits := l.waits ++ [.drain d] }) }))
    else if r.frozen then .next (s.loseDrain d frozenFault)
    else if imgMode r.img ≠ 2 then .next (s.loseDrain d notMapped)
    else
      let (n, s) := s.takeFresh
      let x : DrainRun :=
        { msg := d, num := n, bias := List.replicate 32 0, biasLeft := 0, biasBad := false, planned := 0, first := none, row := []
          times := [d.time, d.time, d.time], pend := [], out := [], fault := none, faultAt := (0, 0), ended := none }
      let s := s.modRook rook (fun r => { r with drains := r.drains ++ [x], used := s.cycle, lastFire := s.cycle })
      .next (if r.drains.any (fun y => y.ended.isNone) then s else s.startDrain rook x (max s.cycle (r.lastDrainEnd + 1)))

/-- The drain of a tile command in its cluster's rooks. -/
def State.drainOf (s : State) (clu : ClusterKey) (cmd : Nat) : Option (RookKey × DrainRun) :=
  (List.range 4).findSome? (fun i => ((s.rook (4 * clu + i)).drains.find? (fun d => d.msg.cmd = cmd)).map (fun d => (4 * clu + i, d)))

/-- A unit cycle of a drain may fall in this cycle: some sink that takes it, or none at all for a drain answered with a fault (R192, R305). -/
def State.drainReady (s : State) (clu : ClusterKey) (cmd : Nat) : Bool :=
  if (s.clu clu).lostDrains.any (fun e => e.1 = cmd) then true
  else match s.drainOf clu cmd with
    | none => false
    | some (rook, d) =>
      !(s.rook rook).frozen && d.first.any (fun f => f ≤ s.cycle) && (s.rook rook).drainRows 1 < 32 && (s.rook rook).drainRows 2 < 32

/-- The 32 elements of a row through convert, bias, activation and rotation (R305). -/
def epilogueRow (img : List Word) (int8 : Bool) (bias : List (BitVec 32)) (row : List (BitVec 32)) : List Nat :=
  let x := imgBlock img 12 0
  let rot := wordBits x 2 0
  let ys := (numbered row).map (fun (j, v) =>
    let v := if int8 then (intToFp f32 .rne v.toInt).1 else v.toNat
    let v := if x.getLsbD 5 then fp32AddRne (f32.read false v) (f32.read false (bias.getD j 0).toNat) else v
    if wordBits x 8 6 = 0 then v else specialFn (wordBits x 8 6) v)
  if rot = 0 then ys
  else
    let n := 2 ^ rot
    ((List.range ((32 + n - 1) / n)).flatMap (fun b => butterfly ((List.range n).map (fun i => ys.getD (n * b + i) 0)) rot)).take 32

/-- The stored bytes of a row, and its scale byte when the conversion is tapered (R295, R305). -/
def rowBytes (conv : Nat) (ys : List Nat) : List Byte × Option Byte :=
  if conv = 0 then (ys.flatMap (natBytes 4), none)
  else if conv = 3 then (ys.flatMap (fun y => natBytes 2 (fpConvert f32 bf16 .rne false y).1), none)
  else
    let (codes, sb) := taperBlock (if conv = 1 then 7 else 5) ys
    let w := if conv = 1 then 8 else 6
    (natBytes (4 * w) ((numbered codes).foldl (fun acc (j, c) => acc + c % 2 ^ w * 2 ^ (w * j)) 0), some sb)

/-- The stores of a row, each in one sector; a misaligned row is one store with no bytes, which fails (R290, R305). -/
def rowStores (port row due : Nat) (va : Word) (size : Nat) (bs : List Byte) : List RowStore :=
  if va.toNat % size ≠ 0 then [{ port := port, row := row, due := due, va := va, bytes := [] }]
  else (sectorPieces va bs.length).map (fun (a, n) => { port := port, row := row, due := due, va := a, bytes := (bs.drop (a - va).toNat).take n })

/-- The next drain of a rook begins in the cycle after the last unit cycle of the one before (R305). -/
def State.nextDrain (s : State) (rook : RookKey) : State :=
  match (s.rook rook).drains.find? (fun y => y.ended.isNone) with
  | some y => if y.first.isNone && y.biasLeft = 0 then s.startDrain rook y (s.cycle + 1) else s
  | none => s

/-- A beat of a drain: 16 elements in unit cycle order; after a row's second beat its stores go to ports 1 and 2 (R305). -/
def State.drainBeat (s : State) (clu : ClusterKey) (cmd row half : Nat) (vals : List (BitVec 32)) : State :=
  match s.drainOf clu cmd with
  | none => s
  | some (rook, d) =>
    let s := s.modRook rook (fun r => { r with lastFire := s.cycle })
    if half = 0 then s.modDrain rook d.num (fun y => { y with row := vals })
    else
      let img := (s.rook rook).img
      let x := imgBlock img 12 0
      let ready := s.cycle + 6 + wordBits x 2 0
      let (bs, sb) := rowBytes (wordBits x 4 3) (epilogueRow img d.msg.int8 d.bias (d.row ++ vals))
      let at_ (off pitch : Nat) : Word := d.msg.arg + imgBlock img 12 off + BitVec.ofNat 64 row * imgBlock img 12 pitch
      let stores := rowStores 1 row ready (at_ 2 4) (portSize img 1) bs ++ (match sb with
        | some b => rowStores 2 row ready (at_ 3 5) 1 [b]
        | none => [])
      let s := s.modDrain rook d.num (fun y => { y with row := [], pend := y.pend ++ (if y.biasBad then [] else stores) })
      let s := (s.post (4 * ready + 2) 0 (.memoryPortAccess rook 1)).post (4 * ready + 2) 0 (.memoryPortAccess rook 2)
      if row = 31 then
        let s := s.modDrain rook d.num (fun y => { y with ended := some ready })
        (s.modRook rook (fun r => { r with lastDrainEnd := s.cycle })).nextDrain rook
      else s

/-! ### Stream graphs (R306–R308) -/

/-- The credits of an outbound channel: 8 but for the tokens that the far end holds (R306, R381). -/
def State.freshCredit (s : State) (l : Link) : Nat :=
  match l.peer with
  | none => l.credit
  | some (r, c) => 8 - (((s.rook r).link c).inbuf.length + (((s.rook r).cell (8 * c + 7)).queue 1).length)

/-- A rook of a graph starts: its sources have one run each, unless they had it before a pre-emption; each port's time is at least τ, the logical time at which the launch starts its cores (R291, R306, R329, R358). -/
def State.startRook (s : State) (tau : Nat) (rook : RookKey) : State :=
  s.modRook rook (fun r =>
    let r := if r.begun then r else r.startRuns 0
    { r with
      running := true, begun := true, lastFire := s.cycle, ports := r.ports.map (fun p => { p with time := max p.time tau })
      links := Vector.ofFn (fun c => let l := r.link (c.val + 1); if linkDir r.img (c.val + 1) = 2 then { l with credit := s.freshCredit l } else l) })

/-- The sources of a launch's stream graph start (R306). -/
def execStreamGraphStart (launch : Nat) (s : State) : Result :=
  match s.launch? launch with
  | none => .next s
  | some l =>
    if !l.graph.all (fun r => (getKey l.acks r).isSome) then .next s
    else .next (l.graph.foldl (fun s rook => if (s.rook rook).running || (s.rook rook).frozen then s else s.startRook l.tau rook)
      (s.modLaunch launch (fun l => { l with acks := [], graph := [] })))

/-- The rooks that a launch's graph holds. -/
def State.reservedBy (s : State) (launch : Nat) : List RookKey :=
  s.clusters.flatMap (fun (c, k) => ((List.range 4).filter (fun i => ((k.rooks[i]?).getD Rook.init).reserved = some launch)).map (fun i => 4 * c + i))

/-- The rooks of one region: a rook alone, or every rook of a stream graph, which stays a region while it is frozen (R309). -/
def State.region (s : State) (rook : RookKey) : List RookKey :=
  match (s.rook rook).reserved with
  | none => [rook]
  | some n => match s.launch? n with
    | some l => l.rooks
    | none => s.reservedBy n

/-- Data tokens in the queues and units of a rook, and its stores under way (R307). -/
def Rook.census (r : Rook) : Nat :=
  let data (l : List Token) : Nat := l.countP (fun t => t.kind = 0)
  ((List.range 64).map (fun c => ((List.range 4).map (fun d => data ((r.cell c).queue d))).sum)).sum
    + ((List.range 4).map (fun p => data (r.port p).inq + data ((r.port p).outs.filterMap PortOut.tok) + (r.port p).busy.length)).sum
    + ((List.range 2).map (fun k => data (r.red k).inq + data (r.red k).outq + (if (r.red k).acc.isSome then 1 else 0))).sum
    + ((List.range 4).map (fun k => data (r.sfuIn k))).sum
    + data r.butterfly.inq + data r.butterfly.block + data r.butterfly.conv + data r.butterfly.outq + data r.resq
    + ((List.range 7).map (fun c => data (r.link (c + 1)).inbuf)).sum
    + data (r.staged.map (fun e => e.2.2))

/-- The signed census count of a region, tokens on links included (R307, R310). -/
def State.regionCount (s : State) (rook : RookKey) : Nat :=
  let rs := s.region rook
  (rs.map (fun r => (s.rook r).census)).sum
    + s.agenda.countP (fun p => match p.ev with
      | .linkTokenArrival r _ t => rs.contains r && t.kind = 0
      | _ => false)

/-- Every source of a rook is exhausted: its chains, its generating load ports, its source cells (R307). -/
def Rook.sourcesOver (r : Rook) : Bool :=
  let img := r.img
  r.running
    && (List.range 2).all (fun k => !unitEnabled img (68 + k) false || r.exhausted || (r.chain k).exhausted)
    && (List.range 4).all (fun p => !(portKind img p = 1 && portAg img p) || r.exhausted || (r.port p).exhausted)
    && (List.range 64).all (fun c => (cellInstrs img c).isEmpty || r.exhausted || ((cellInstrs img c).flatMap CellInstr.reads) != [])

/-- The phase of a rook is over: END at every store port and outbound link, or a census of 0 with every source exhausted (R307). -/
def State.phaseOver (s : State) (rook : RookKey) : Bool :=
  let r := s.rook rook
  let img := r.img
  r.live && imgMode img = 1 && !r.phaseEnded && (List.range 4).all (fun p => !storePort img p || (r.port p).busy.isEmpty)
    && (if imgCensus img then (s.region rook).all (fun x => (s.rook x).phaseEnded || (s.rook x).sourcesOver) && s.regionCount rook = 0
        else r.sourcesOver
          && (List.range 4).all (fun p => !storePort img p || (r.port p).ended)
          && (List.range 7).all (fun c => linkDir img (c + 1) != 2 || (r.link (c + 1)).ended)
          && (((List.range 4).any (storePort img) || (List.range 7).any (fun c => linkDir img (c + 1) = 2)) || r.census = 0))

/-- A rook whose phase is over loads the image staged for it, or has done its part of its launch (R308, R331). -/
def State.nextImage (s : State) (launch : Nat) (rook : RookKey) : State :=
  match (s.rook rook).next with
  | some cfg =>
    let k := s.clu (rook / 4)
    let lat := if (k.cached cfg.ctx cfg.fid).isSome then 0 else (match s.findImage (rook / 4) cfg.ctx cfg.fid with | .image _ lat => lat | _ => 0)
    (s.modLaunch launch (fun l => { l with rooksDone := l.rooksDone.filter (· != rook) })).beginLoad rook cfg lat [] false
  | none =>
    let s := s.modLaunch launch (fun l => { l with rooksDone := if l.rooksDone.contains rook then l.rooksDone else l.rooksDone ++ [rook] })
    s.post s.now 0 (.launchCompletion launch)

/-- A rook's phase ends: its writes are released to the launch unit; it takes its next image, or the launch may be over (R307, R308, R331). -/
def execPhaseEnd (rook : RookKey) (s : State) : Result :=
  if !s.phaseOver rook then .next s
  else
    let r := s.rook rook
    let launch := r.reserved.getD 0
    let s := s.modRook rook (fun r => { r with phaseEnded := true, running := false })
    let s := s.modLaunch launch (fun l => { l with phase := max l.phase r.phaseTime })
    .next (s.nextImage launch rook)

/-- The pod cycle count of a package now, 64 bits (R382). -/
def State.pcycNow (s : State) (p : PkgKey) : Nat := ((s.pkg p).pcyc + BitVec.ofNat 64 (s.cyc p)).toNat

/-- The configuration that a swap gives a rook, if its image can be had (R308). -/
def State.swapCfg (s : State) (ctx : Nat) (images : List (RookKey × Nat)) (rook : RookKey) : Option RookCfg :=
  (getKey images rook).bind (fun fid => match (s.clu (rook / 4)).cached ctx fid with
    | some img => some { ctx := ctx, fid := fid, img := img }
    | none => match s.findImage (rook / 4) ctx fid with
      | .image img _ => some { ctx := ctx, fid := fid, img := img }
      | _ => none)

/-- A graph swap at cycle W of the pod count: the launch unit that orders it moves W up when it is too near, and sends it with the images to every package of the graph; at W by each package's own count the sources of the old graph there act as exhausted, and the rooks that have an image await their load (R308, R382). -/
def execGraphSwap (launch : Nat) (w : Nat) (pkg : Option PkgKey) (images : List (RookKey × Nat)) (s : State) : Result :=
  match s.launch? launch with
  | none => .next s
  | some l =>
    match pkg with
    | none =>
      let p := l.die / 4
      let w := max w (s.pcycNow p + 300 * (s.pkg p).podDiam + 64)
      let s := s.modLaunch launch (fun l => { l with graph := l.rooks.filter (fun r => (s.swapCfg l.ctx images r).isSome), acks := [] })
      .next ((l.rooks.map (fun r => pkgOfClu (r / 4))).eraseDups.foldl (fun s q => s.postAt (s.cycle + (w - s.pcycNow q)) 0 (.graphSwap launch w (some q) images)) s)
    | some q =>
      if s.pcycNow q < w then .next (s.postAt (s.cycle + (w - s.pcycNow q)) 0 (.graphSwap launch w (some q) images))
      else
        .next ((l.rooks.filter (fun r => pkgOfClu (r / 4) = q)).foldl (fun s rook =>
          let next := s.swapCfg l.ctx images rook
          let s := s.modRook rook (fun r => { r with exhausted := true, next := next })
          if (s.rook rook).phaseEnded && (s.rook rook).load.isNone then s.nextImage launch rook else s) s)

/-! ### The Arbiter (R309, R310) -/

/-- A token stands in a rook's queues or units (R309). -/
def Rook.holdsToken (r : Rook) : Bool :=
  (List.range 64).any (fun c => (List.range 4).any (fun d => !((r.cell c).queue d).isEmpty || !((r.cell c).ctl d).isEmpty))
    || (List.range 4).any (fun p => !(r.port p).inq.isEmpty || (r.port p).outs.any (fun o => o.tok.isSome))
    || (List.range 2).any (fun k => !(r.red k).inq.isEmpty || !(r.red k).outq.isEmpty || (r.red k).acc.isSome)
    || (List.range 4).any (fun k => !(r.sfuIn k).isEmpty)
    || !r.butterfly.inq.isEmpty || !r.butterfly.block.isEmpty || !r.butterfly.conv.isEmpty || !r.butterfly.outq.isEmpty || !r.resq.isEmpty
    || (List.range 7).any (fun c => !(r.link (c + 1)).inbuf.isEmpty)
    || !r.staged.isEmpty || r.drains.any (fun d => d.ended.isNone)

/-- The Arbiter finds a hang (R309): HANG cycles with a token held and no cell firing (log 46). -/
def State.hangs (s : State) (rook : RookKey) : Bool :=
  let r := s.rook rook
  r.live && imgHang r.img != 0 && r.lastFire + imgHang r.img ≤ s.cycle
    && (r.holdsToken || (imgMode r.img = 1 && imgCensus r.img && s.regionCount rook != 0))

/-- Bits of queue occupancies and head kinds of a cell (R310). -/
def Rook.mapCell (r : Rook) (cell : Nat) : Nat :=
  let c := r.cell cell
  let occ (f : Nat → Nat) (w lo : Nat) : Nat := ((List.range 4).map (fun d => f d % 2 ^ w * 2 ^ (lo + w * d))).sum
  c.pc % 16 + imgCount r.img cell * 2 ^ 4 + occ (fun d => (c.queue d).length) 2 9 + occ (fun d => (c.ctl d).length) 2 17
    + occ (fun d => ((c.queue d).head?.map Token.kind).getD 0) 3 25

/-- Outstanding accesses or held tokens of edge unit b, in 6 bits (R310). -/
def Rook.mapEdge (r : Rook) (b : Nat) : Nat :=
  (if b < 4 then (r.port b).busy.length + (r.port b).inq.length + (r.port b).outs.countP (fun o => o.tok.isSome) + r.drainRows b
   else if b < 6 then (r.chain (b - 4)).marks.length
   else if b < 8 then (r.red (b - 6)).inq.length + (r.red (b - 6)).outq.length
   else if b < 12 then (r.sfuIn (b - 8)).length
   else if b = 12 then r.butterfly.inq.length + r.butterfly.block.length + r.butterfly.conv.length + r.butterfly.outq.length
   else ((List.range 7).map (fun c => (r.link (c + 1)).inbuf.length)).sum) % 64

/-- The occupancy map of a rook (R310). -/
def State.occupancyMap (s : State) (rook : RookKey) : List Byte :=
  let r := s.rook rook
  let clu := rook / 4
  let fid := (r.cfg.map RookCfg.fid).getD 0
  let words : List Nat := [dieOfClu clu % 4 + clu % 24 * 2 ^ 7 + rook % 4 * 2 ^ 12 + fid * 2 ^ 16, s.cyc (pkgOfClu clu), s.regionCount rook, 0, 0, 0, 0, 0]
    ++ (List.range 64).map r.mapCell ++ (List.range 14).map r.mapEdge
  words.flatMap (natBytes 8)

/-- A rook writes its occupancy map; a write that faults is logged (R310, R393). -/
def State.writeMap (s : State) (rook : RookKey) : State :=
  let r := s.rook rook
  let clu := rook / 4
  let ctx := (r.cfg.map RookCfg.ctx).getD 0
  let map := imgMap r.img
  match s.ctxWrite (.port rook 0 s.fresh) clu ctx map (s.occupancyMap rook) 0 [] with
  | some s => s
  | none => (s.logWalk clu ctx map).logError (dieOfClu clu) (LogEvent.ofClu 8 0 0 clu map 0)

/-- A rook freezes: its packets, calls and drains are answered with SUB 6, its map is written (R309, R310). -/
def State.freezeRook (s : State) (rook : RookKey) : State :=
  let r := s.rook rook
  let clu := rook / 4
  let s := s.modRook rook (fun r => { r with frozen := true })
  let s := s.logError (dieOfClu clu) (LogEvent.ofClu 7 0 0 clu (imgMap r.img) (BitVec.ofNat 64 ((r.cfg.map RookCfg.fid).getD 0)))
  let s := s.writeMap rook
  let s := r.calls.foldl (fun s c => s.answerCall c frozenFault) s
  let s := r.drains.foldl (fun s d => s.loseDrain d.msg frozenFault) s
  let s := s.modRook rook (fun r => { r with calls := [], drains := [], packets := r.packets.map (fun p =>
    { p with fault := some frozenFault, result := some (faultToken frozenFault (some p.num)) }) })
  r.packets.foldl (fun s p => if (List.range 4).any (fun q => storePort r.img q && (r.port q).busy.any (fun e => e.pkt = some p.num)) then s else s.post s.now 0 (.serverReply rook p.num)) s

/-- A rook of a region that freezes; one whose load is in progress freezes with the image of that load, its queues empty (R309; log 46). -/
def State.freezeMember (s : State) (rook : RookKey) : State :=
  let r := s.rook rook
  if r.frozen then s
  else match r.load with
    | some l => (l.waits.foldl State.routeReq (s.modRook rook (fun r => r.configured l.cfg s.cycle))).freezeRook rook
    | none => if r.cfg.isSome then s.freezeRook rook else s

/-- The Arbiter freezes a region (R309). -/
def execArbiterFreeze (rook : RookKey) (s : State) : Result :=
  if (s.rook rook).frozen then .next s else .next ((s.region rook).foldl State.freezeMember s)

/-- System software releases a frozen region: each of its rooks is unconfigured (R309, R392). -/
def execReleaseRegion (rook : RookKey) (s : State) : Result :=
  if !(s.rook rook).frozen then .next s
  else .next ((s.region rook).foldl (fun s r =>
    let left := (s.rook r).packets
    let s := s.modRook r (fun x => { Rook.init with used := x.used, reserved := x.reserved.filter (fun n => (s.launch? n).isSome), packets := left })
    (left.foldl (fun s p => s.post s.now 0 (.serverReply r p.num)) s).rookFreed (r / 4)) s)

/-! ### Snapshots of stream graphs (R311) -/

/-- The inputs of a unit at which SNAP must arrive, coded by direction; 7 the injection at a source or inbound link, 1 the far end of an inbound link (R311). -/
def snapInputs (img : List Word) (u : Nat) : List Nat :=
  if u < 64 then
    let is := cellInstrs img u
    if is.isEmpty then []
    else
      let reads := (is.flatMap CellInstr.reads).eraseDups
      if reads.isEmpty then [7]
      else reads.filter (fun d => match neighbour u d with
        | some n => ((cellInstrs img n).flatMap CellInstr.writes).contains ((d + 2) % 4)
        | none => (edgeUnit u d).any (fun v => v < 64 || 68 ≤ v || portKind img (v - 64) != 2))
  else if u < 68 then (if portKind img (u - 64) = 0 then [] else if portKind img (u - 64) = 1 && portAg img (u - 64) then [7] else [0])
  else if u < 70 then (if unitEnabled img u false then [7] else [])
  else if u < 77 then (if unitEnabled img u false then [0] else [])
  else if 80 < u ∧ u < 88 then (if linkDir img (u - 80) = 1 then [7, 1] else if linkDir img (u - 80) = 2 then [0] else [])
  else []

/-- The units of an image that take part in a snapshot. -/
def snapUnits (img : List Word) : List Nat := (List.range 88).filter (fun u => !(snapInputs img u).isEmpty)

/-- SNAP leaves on every output of a unit, behind what it has sent: it stands at the next unit a cycle later, or once there is room, or goes to the far end of a link (R311). -/
def State.sendSnap (s : State) (rook : RookKey) (u : Nat) : State :=
  let img := (s.rook rook).img
  let next := s.cycle + 1
  if u < 64 then
    ((cellInstrs img u).flatMap CellInstr.writes).eraseDups.foldl (fun s d =>
      match neighbour u d with
      | some n => s.postAt next 0 (.snapArrival rook n ((d + 2) % 4))
      | none => match edgeUnit u d with
        | some v => s.postAt next 0 (.snapArrival rook v 0)
        | none => s) s
  else if 80 < u then
    if linkDir img (u - 80) = 2 then s.sendLink rook (u - 80) (markerToken 5 none)
    else s.postAt next 0 (.snapArrival rook (emitsAt u).1 (emitsAt u).2)
  else if 64 ≤ u ∧ u < 68 ∧ portKind img (u - 64) = 2 then s
  else s.postAt next 0 (.snapArrival rook (emitsAt u).1 (emitsAt u).2)

/-- Every unit of a rook has SNAP on all its inputs (R311). -/
def Rook.snapDone (r : Rook) : Bool :=
  r.snap.any (fun x => (snapUnits r.img).all (fun u => x.saved.contains u && (snapInputs r.img u).all (fun i => x.arrived.contains (u, i))))

/-- SNAP has room at an input of a unit, or credit on a link (R284, R306, R381). -/
def Rook.snapRoom (r : Rook) (u i : Nat) : Bool :=
  if i = 7 then true
  else if u < 64 then r.records u i || ((r.cell u).queue i).length < 2
  else if 80 < u then i = 1 || 0 < (r.link (u - 80)).credit
  else r.unitRoom u

/-- SNAP stands at an input of a unit: in its queue, behind the tokens that came before it. -/
def Rook.takeSnap (r : Rook) (u i : Nat) : Rook :=
  let r := if i = 7 || 80 < u then r else r.push u i (markerToken 5 none)
  { r with snap := some (match r.snap with
    | some x => { x with arrived := (u, i) :: x.arrived }
    | none => { saved := [], arrived := [(u, i)] }) }

/-- A unit has accesses under way, or outputs that have yet to leave it. -/
def Rook.holdsOutput (r : Rook) (u : Nat) : Bool :=
  if 64 ≤ u && u < 68 then !(r.port (u - 64)).busy.isEmpty || !(r.port (u - 64)).outs.isEmpty
  else if u = 70 || u = 71 then !(r.red (u - 70)).outq.isEmpty
  else u = 76 && !r.butterfly.outq.isEmpty

/-- SNAP comes to an input of a unit, once there is room for it: with the first one the unit saves its state, queues included, and sends SNAP on; from then on it acts no more and records what arrives on its other inputs (log 100); a memory port performs its accesses first, and what a unit has made leaves it before SNAP does (R311, R355). -/
def execSnapArrival (rook : RookKey) (unit : Nat) (input : Nat) (s : State) : Result :=
  let r := s.rook rook
  let later (s : State) : Result := .next (s.postAt (s.cycle + 1) 0 (.snapArrival rook unit input))
  let known : Bool := r.snap.any (fun x => x.arrived.contains (unit, input))
  if r.snapDone || !r.live then .next s
  else if !known && !r.snapRoom unit input then later s
  else
    let s := if known then s else s.modRook rook (fun r => r.takeSnap unit input)
    let r := s.rook rook
    let ends (s : State) : Result := .next (if (s.rook rook).snapDone then s.postAt (s.cycle + 1) 0 (.rookRecordWrite rook) else s)
    if r.saved unit then ends s
    else if r.holdsOutput unit then later s
    else ends ((s.modRook rook (fun r => { r with snap := r.snap.map (fun x => { x with saved := unit :: x.saved }) })).sendSnap rook unit)

/-- SNAP is injected at every source and inbound link of a rook; its sources stop (R311). -/
def State.injectSnap (s : State) (rook : RookKey) : State :=
  ((snapUnits (s.rook rook).img).filter (fun u => (snapInputs (s.rook rook).img u).contains 7)).foldl
    (fun s u => s.post s.now 0 (.snapArrival rook u 7)) s

/-! ### The cycles of a rook -/

/-- A rook at the start of a cycle: staged tokens have entered their queues, ports and inbound links emit; with nothing that a hang could hold, its count starts anew (log 46). -/
def Rook.startCycle (r : Rook) (cycle : Nat) (counted : Bool) : Rook :=
  let r := r.commit
  if !r.live then r
  else
    let r := (List.range 4).foldl (fun r p => r.flushPort p cycle) r
    let r := (List.range 7).foldl (fun r c => r.linkIn (c + 1)) r
    if r.holdsToken || counted then r else { r with lastFire := cycle }

/-- The units of a rook that act at the start of a cycle. -/
def Rook.earlyPlan (r : Rook) (rook : RookKey) (cycle : Nat) : List Instr :=
  ((List.range 2).filter (fun k => r.chainReady k cycle)).map (.counterChainEmit rook)
    ++ ((List.range 2).filter r.redReady).map (.reductionUnitStep rook)
    ++ ((List.range 4).filter r.sfuReady).map (.specialFunctionStep rook)
    ++ (if r.butterflyReady then [.butterflyConversion rook] else [])

/-- What happens in a rook in a cycle: the packet accepted, the result taken, the accesses started, the cells that fire. -/
def Rook.latePlan (r : Rook) (rook : RookKey) : List Instr :=
  if !r.live then []
  else
    (if r.acceptReady then [.argumentPortAccept rook] else [])
      ++ (if r.resultReady then [.resultPortTake rook] else [])
      ++ ((List.range 4).filter r.portReady).map (.memoryPortAccess rook)
      ++ (List.finRange 64).filterMap (r.cellPlan rook)

/-- Every rook that is configured. -/
def State.rookKeys (s : State) : List RookKey :=
  s.clusters.flatMap (fun (c, k) => (List.range 4).filterMap (fun i => if ((k.rooks[i]?).getD Rook.init).cfg.isSome then some (4 * c + i) else none))

/-- The rooks at the start of a cycle, with their units' events. -/
def State.rooksStart (s : State) : State :=
  let ks := s.rookKeys
  let s := ks.foldl (fun s r => s.modRook r (fun x => x.startCycle s.cycle (imgMode x.img = 1 && imgCensus x.img && s.regionCount r != 0))) s
  ks.foldl (fun s r => ((s.rook r).earlyPlan r s.cycle).foldl (fun s e => s.post s.now 3 e) s) s

/-- The rooks after issue: what fires in this cycle. -/
def State.rooksFire (s : State) : State :=
  s.rookKeys.foldl (fun s r => ((s.rook r).latePlan r).foldl (fun s e => s.post s.now 1 e) s) s

/-- The rooks at the end of a cycle: replies that waited for stores, phase ends and hangs. -/
def State.rooksEnd (s : State) : State :=
  s.rookKeys.foldl (fun s r =>
    let s := ((s.rook r).packets.filter (fun p => p.result.isSome)).foldl (fun s p => s.judgePacket r p.num) s
    let s := if s.phaseOver r then s.post s.now 0 (.phaseEnd r) else s
    if s.hangs r then s.post s.now 1 (.arbiterFreeze r) else s) s

end Sys2Proof.Machine
end

