-- ==== Sys2Proof/Machine/Tile.lean ====
section
/-! DEFINITION. The tile unit: operands and their checks (R181–R184), the arithmetic of a unit cycle (R44–R48, R185), accumulators and their owners (R186), the unit's schedule (R187–R189), and the instructions mma to mwait.rel (R177, R189–R193). -/

namespace Sys2Proof.Machine

open Sys2Proof

/-! ### Formats (R178, R182–R184, R187) -/

/-- The format that cr.mfmt names. -/
def tileFmtOf : Nat → Option TileFmt
  | 0 => some .tap8 | 1 => some .tap6 | 2 => some .int8 | 3 => some .bf16 | 4 => some .fp16 | _ => none

/-- RB: bytes of a row of A. -/
def tileRow (sparse : Bool) : Nat := if sparse then 1152 else 384
/-- Kfull. -/
def tileKfull (f : TileFmt) (sparse : Bool) : Nat :=
  if sparse then 1152 else match f with | .tap6 => 512 | .bf16 => 192 | .fp16 => 192 | _ => 384
/-- NB: scale bytes of a row. -/
def tileScales (f : TileFmt) (sparse : Bool) : Nat :=
  match f with | .tap8 => if sparse then 36 else 12 | .tap6 => 16 | _ => 0
/-- Bytes of the elements, or groups, of a weight record. -/
def tileElements (sparse : Bool) : Nat := if sparse then 16896 else 12288
/-- Bytes of a weight record. -/
def tileRecord (f : TileFmt) (sparse : Bool) : Nat := tileElements sparse + 32 * tileScales f sparse
/-- K elements of a chunk (R45). -/
def tileChunk (f : TileFmt) : Nat := match f with | .tap6 => 16 | .bf16 => 4 | .fp16 => 4 | _ => 8

/-- The operation multiplies. -/
def tileMultiplies (op : TileOp) : Bool := op = .mma || op = .gmma || op = .mmas

/-- D, with the release step of mdrain.rel (R187). -/
def TileCmd.cycles (c : TileCmd) : Nat :=
  match c.op with
  | .mma => tileKfull c.fmt false / tileChunk c.fmt
  | .gmma => tileKfull c.fmt false / tileChunk c.fmt
  | .mmas => 48
  | .mdrain _ rel _ _ => if rel then 68 else 64
  | .release => 4
  | _ => 1

/-! ### Elements (R182–R184) -/

/-- Where element k of a row lies, in bytes: its first and its count. -/
def elemBytes (f : TileFmt) (k : Nat) : Nat × Nat :=
  match f with
  | .tap6 => (6 * k / 8, (6 * k % 8 + 5) / 8 + 1)
  | .bf16 => (2 * k, 2)
  | .fp16 => (2 * k, 2)
  | _ => (k, 1)

/-- The stored bits of element k of a row. -/
def storedElem (f : TileFmt) (m : List Host.Cell) (row k : Nat) : Nat :=
  let (o, n) := elemBytes f k
  let x := bytesNat (Memory.getN m (row + o) n)
  if f = .tap6 then x / 2 ^ (6 * k % 8) % 64 else x

/-- The value of an element under its scale byte (R38, R45, R48). -/
def elemValue (f : TileFmt) (x : Nat) (sb : Byte) : FpVal :=
  match f with
  | .tap8 => scaledElem (decodeTap x 7) sb
  | .tap6 => scaledElem (decodeTap x 5) sb
  | .bf16 => bf16.read false x
  | .fp16 => f16.read false x
  | .int8 => let y := (BitVec.ofNat 8 x).toInt; .fin (y < 0) y.natAbs 0

/-- elem_A of a command whose A lies in a scratchpad. -/
def TileCmd.elemA (c : TileCmd) (spad : List Host.Cell) (i k : Nat) : FpVal :=
  let sparse : Bool := c.op = .mmas
  elemValue c.fmt (storedElem c.fmt spad (c.aOff + i * tileRow sparse) k) (c.aScale.getD (i * tileScales c.fmt sparse + k / 32) 0)

/-- The set bits of the bitmap of group g of column j of a sparse record (R184). -/
def groupBits (w : List Host.Cell) (h j g : Nat) : List Nat :=
  let bits := bytesNat (Memory.getN w (h + j * 528 + g * 22) 6)
  (List.range 48).filter (fun b => bits.testBit b)

/-- Column j's operands of chunk t: K index and value, for k below kv (R45–R47). -/
def columnTerms (f : TileFmt) (sparse : Bool) (kv : Nat) (w : List Host.Cell) (h t j : Nat) : List (Nat × FpVal) :=
  let scale (k : Nat) : Byte := Memory.get w (h + tileElements sparse + j * tileScales f sparse + k / 32)
  if sparse then
    let g := t / 2
    ((((numbered ((groupBits w h j g).take 16)).drop (8 * (t % 2))).take 8).map (fun (m, b) =>
      (48 * g + b, elemValue f (Memory.get w (h + j * 528 + g * 22 + 6 + m)).toNat (scale (48 * g + b))))).filter (fun e => e.1 < kv)
  else
    (((List.range (tileChunk f)).map (fun i => tileChunk f * t + i)).filter (fun k => k < kv)).map
      (fun k => (k, elemValue f (storedElem f w (h + j * 384) k) (scale k)))

/-! ### The arithmetic of a unit cycle (R44, R48) -/

/-- The exact sum of the finite products of a chunk: a signed integer and its exponent. -/
def termSum (ps : List FpVal) : Int × Int :=
  ps.foldl (fun (x, e) p => match p with
    | .fin n m f => (x * 2 ^ (e - min e f).toNat + scaled n m f (min e f), min e f)
    | _ => (x, e)) (0, 0)

/-- tile_cycle of R44 on the products of a chunk. -/
def tileCycle (acc : BitVec 32) (ps : List FpVal) : BitVec 32 :=
  let pinf := ps.contains (.inf false)
  let ninf := ps.contains (.inf true)
  let old := f32.read false acc.toNat
  if ps.any FpVal.isNan || (pinf && ninf) then BitVec.ofNat 32 f32.nan
  else if pinf then BitVec.ofNat 32 (fp32AddRne old (.inf false))
  else if ninf then BitVec.ofNat 32 (fp32AddRne old (.inf true))
  else
    let (x, e) := termSum ps
    if x = 0 then acc else BitVec.ofNat 32 (fp32AddRne old (.fin (x < 0) x.natAbs e))

/-- int_cycle of R48: the new element, and whether it saturated. -/
def intCycle (acc : BitVec 32) (ps : List FpVal) : BitVec 32 × Bool :=
  let y := acc.toInt + (termSum ps).1
  if 2147483647 < y then (2147483647, true)
  else if y < -2147483648 then (0x80000000, true)
  else (BitVec.ofInt 32 y, false)

/-- Element i of an accumulator; an accumulator that lists nothing holds zeros. -/
def accElem (a : List (BitVec 32)) (i : Nat) : BitVec 32 := a.getD i 0

/-- One unit cycle on all 1,024 elements: the new accumulator, and whether an element saturated (R185). -/
def unitCycle (f : TileFmt) (acc : List (BitVec 32)) (row : Nat → Nat → FpVal) (cols : List (List (Nat × FpVal))) : List (BitVec 32) × Bool :=
  let out := (List.range 32).flatMap (fun i => (numbered cols).map (fun (j, ts) =>
    let ps := ts.map (fun (k, b) => (mulVal (row i k) b).1)
    let a := accElem acc (32 * i + j)
    if f = .int8 then intCycle a ps else (tileCycle a ps, false)))
  (out.map Prod.fst, out.any Prod.snd)

/-! ### Accumulators of a core (R186) -/

/-- The core with an accumulator changed; written whole, it is no longer damaged. -/
def Core.setAcc (k : Core) (a : Fin 4) (x : List (BitVec 32)) (whole : Bool) : Core :=
  { k with acc := k.acc.set a x, accDamage := if whole then k.accDamage.filter (· != a) else k.accDamage }

/-- The state with an accumulator changed in a core, and in its shadow (R395; DESIGN CHOICE: in the same cycle, log 47). -/
def State.setAcc (s : State) (c : CoreKey) (a : Fin 4) (x : List (BitVec 32)) : State :=
  (s.pairOf c).foldl (fun s d => s.modCore d (fun k => k.setAcc a x true)) s

/-- An accumulator is claimed for a slot, or released. -/
def State.setOwner (s : State) (c : CoreKey) (a : Fin 4) (o : Option (Fin 16)) : State :=
  (s.pairOf c).foldl (fun s d => s.modCore d (fun k => { k with accOwn := k.accOwn.set a o })) s

/-- The slot of a thread changes, in its core and in its shadow. -/
def State.modThread (s : State) (t : ThreadRef) (f : Slot → Slot) : State :=
  if s.matches_ t then (s.pairOf t.core).foldl (fun s d => s.modSlot d t.slot f) s else s

/-- The thread of the latch claims an accumulator that is unowned (R186). -/
def State.claim (s : State) (a : Fin 4) : State :=
  s.setOwner s.cur.core a (some ⟨s.cur.slot % 16, Nat.mod_lt _ (by decide)⟩)

/-- A poison record of a thread on an accumulator; the first stays (R192, R220). -/
def State.record (s : State) (t : ThreadRef) (a : Fin 4) (v : TrapVal) : State :=
  s.modThread t (fun sl => if sl.drainRecs.any (fun r => r.1 = a) then sl else { sl with drainRecs := sl.drainRecs ++ [(a, v)] })

/-- Bits of cr.mstat set by an operation of a thread (R180). -/
def State.setMstat (s : State) (t : ThreadRef) (b : BitVec 3) : State := s.modThread t (fun sl => { sl with mstat := sl.mstat ||| b })

/-! ### Checks 1 to 3 of R181 -/

/-- cr.tinf of a damaged accumulator (R230). -/
def accInfo (a : Fin 4) : Word := BitVec.ofNat 64 (3 * 32 + a.val)

/-- The record of the thread in the latch on an accumulator is judged: it traps, and the trap consumes it (R192). -/
def State.judgeRecord (s : State) (a : Fin 4) : Option State :=
  (s.me.drainRecs.find? (fun r => r.1 = a)).map (fun r =>
    (s.modMe (fun sl => { sl with drainRecs := sl.drainRecs.filter (fun x => x.1 != a) })).trap r.2.cause r.2.tval r.2.tinf)

/-- The slot other than the thread's that owns an accumulator. -/
def State.foreignOwner (s : State) (a : Fin 4) : Option Nat :=
  match s.myCore.accOwn[a] with
  | some o => if o.val = s.cur.slot then none else some o.val
  | none => none

/-- The trap of an instruction that names an accumulator: its owner, a record, damage where it is read (R181, R186, R230). -/
def State.accTrap (s : State) (a : Fin 4) (reads : Bool) : Option State :=
  match s.foreignOwner a with
  | some o => some (s.trap 0x0C4 (BitVec.ofNat 64 a.val) (BitVec.ofNat 64 o))
  | none =>
    match s.judgeRecord a with
    | some s => some s
    | none => if reads && s.myCore.accDamage.contains a then some (s.trap 0x1A4 0 (accInfo a)) else none

/-! ### Queueing a command (R187) -/

/-- A command of the thread in the latch on an accumulator, with nothing sampled. -/
def State.newTileCmd (s : State) (op : TileOp) (a : Fin 4) : TileCmd :=
  { id := 0, thread := s.meRef, op := op, acc := a, issue := s.cycle, fmt := (tileFmtOf s.me.mfmt.toNat).getD .tap8, kv := 0
    aOff := 0, aScale := [], bad := none, handle := 0, ctx := s.me.ctx, sup := s.me.st.sup, launch := s.me.launch, join := 0 }

/-- A command is outstanding, claims its accumulator and enters the queue. -/
def State.queueTile (s : State) (c : TileCmd) (locks : Nat → List RangeLock) : State :=
  let (id, s) := s.begin_ .tileCommand 0 0
  let s := s.claim c.acc
  (s.modMyCore (fun k => { k with
    tile := { k.tile with queue := k.tile.queue ++ [{ c with id := id }] }
    locks := k.locks ++ locks id })).wakeTile s.cur.core

/-- A command without operands in memory. -/
def tileSimple (op : TileOp) (a : Fin 4) (reads : Bool) (s : State) : Result :=
  match s.accTrap a reads with
  | some s => .next s
  | none => .next (s.queueTile (s.newTileCmd op a) (fun _ => []))

/-- The number of the next gmma of a launch on a core (R189). -/
def TileUnit.joinNumber (u : TileUnit) (launch : Nat) : Nat := (getKey u.joins launch).getD 0

/-- The launch places four cores in every quad (R181). -/
def State.fourPerQuad (s : State) : Bool := (s.launch? s.me.launch).any (fun l => wordBits (l.record.getD 1 0) 5 4 = 3)

/-- The address of a scratchpad byte in the form that names its core (R100). -/
def remoteAddr (c : CoreKey) (off : Nat) : Word := BitVec.ofNat 64 (2 ^ 63 + (c / 1536 * 2 ^ 29 + c / 384 % 4 * 2 ^ 27 + c / 16 % 24 * 2 ^ 22 + c % 16 * 2 ^ 18) + off)

/-- The first poisoned scale byte of A that the operation uses, with its source (R220). -/
def Core.poisonedScale (k : Core) (c : CoreKey) (off n kv : Nat) : Option (Word × Nat) :=
  (List.range (32 * n)).findSome? (fun i =>
    if kv ≤ 32 * (i % n) then none else (k.spadPoisonIn (off + i) 1).map (fun src => (remoteAddr c (off + i), src)))

/-- Check 4 of R181: the offset of A, or the cause and the address. -/
def State.tileA (s : State) (f : TileFmt) (sparse : Bool) (ga : Word) : (Nat × Word) ⊕ Nat :=
  match wordBits ga 63 62, s.classify s.cur.core ga with
  | 0, _ => .inl (0x063, ga)
  | _, .global => .inl (0x063, ga)
  | _, .bad _ => .inl (0x062, ga)
  | _, .spad t off =>
    let sc := s.me.ascl.toNat
    if t ≠ s.cur.core then .inl (0x063, ga)
    else if off % 64 ≠ 0 then .inl (0x061, ga)
    else if 262144 < off + 32 * tileRow sparse then .inl (0x062, ga)
    else if 262144 < sc + 32 * tileScales f sparse then .inl (0x062, BitVec.ofNat 64 (3 * 2 ^ 62 + sc))
    else .inr off

/-- A handle that names no record in the weight store (R183). -/
def badHandle (f : TileFmt) (sparse : Bool) (h : Word) : Bool :=
  wordBits h 63 24 ≠ 0 || wordBits h 5 0 ≠ 0 || 2 ^ 24 < h.toNat + tileRecord f sparse

/-- mma, gmma and mmas at issue: the checks of R181 in order, the samples, the lock on A, the claim. -/
def tileMultiply (op : TileOp) (a : Fin 4) (x y : Fin 32) (s : State) : Result :=
  let sparse : Bool := op = .mmas
  match tileFmtOf s.me.mfmt.toNat with
  | none => .next (s.trap 0x0C1 (s.readCR 0x020) 0)
  | some f =>
    if sparse ∧ f ≠ .tap8 ∧ f ≠ .int8 then .next (s.trap 0x0C1 (s.readCR 0x020) 0)
    else match s.accTrap a true with
    | some s => .next s
    | none =>
      let h := s.gval y
      match s.tileA f sparse (s.gval x) with
      | .inl (cause, v) => .next (s.trap cause v 0)
      | .inr off =>
        if badHandle f sparse h then .next (s.trap 0x0C2 h 0)
        else if (s.myCore.locksMet .weights h.toNat (h.toNat + tileRecord f sparse)).any (fun l => l.write) then .next (s.trap 0x0A1 h 0)
        else if op = .gmma ∧ !s.fourPerQuad then .next (s.trap 0x0C7 0 0)
        else
          let leads : Bool := op != .gmma || s.cur.core % 4 = 0
          if leads ∧ 16 ≤ s.myCore.locks.length then .next s.park
          else
            let n := tileScales f sparse
            let sc := s.me.ascl.toNat
            let kv := min s.me.kval.toNat (tileKfull f sparse)
            let join := s.myCore.tile.joinNumber s.me.launch
            let c := { s.newTileCmd op a with
              fmt := f, kv := kv, aOff := off, aScale := s.myCore.spadRead sc (32 * n), bad := s.myCore.poisonedScale s.cur.core sc n kv
              handle := h.toNat, join := join }
            let s := if op = .gmma then
                s.modMyCore (fun k => { k with tile := { k.tile with joins := setKey k.tile.joins s.me.launch (join + 1) } })
              else s
            .next (s.queueTile c (fun id =>
              if leads then [{ space := .spad s.cur.core, lo := off, hi := off + 32 * tileRow sparse, write := false, owner := id }] else []))

/-! ### The instructions (R177) -/

/-- mma (R185). -/
def execMma (d : Fin 4) (a b : Fin 32) (s : State) : Result := tileMultiply .mma d a b s
/-- gmma (R189). -/
def execGmma (d : Fin 4) (a b : Fin 32) (s : State) : Result := tileMultiply .gmma d a b s
/-- mmas (R184). -/
def execMmas (d : Fin 4) (a b : Fin 32) (s : State) : Result := tileMultiply .mmas d a b s
/-- mzero (R191). -/
def execMzero (d : Fin 4) (s : State) : Result := tileSimple .mzero d false s
/-- mdrain (R192). -/
def execMdrain (d : Fin 4) (a b : Fin 32) (s : State) : Result := tileSimple (.mdrain false false (wordBits (s.gval a) 9 0) (s.gval b)) d true s
/-- mdrain.z (R192). -/
def execMdrainZ (d : Fin 4) (a b : Fin 32) (s : State) : Result := tileSimple (.mdrain true false (wordBits (s.gval a) 9 0) (s.gval b)) d true s
/-- mdrain.rel (R192). -/
def execMdrainRel (d : Fin 4) (a b : Fin 32) (s : State) : Result := tileSimple (.mdrain false true (wordBits (s.gval a) 9 0) (s.gval b)) d true s
/-- The row and the half that gi names (R190). -/
def mvaPlace (gi : Word) : Nat × Nat := (wordBits gi 4 0, wordBits gi 5 5)
/-- mva accN, vs, gi (R190). -/
def execMvaToAccumulator (d : Fin 4) (a : Fin 16) (b : Fin 32) (s : State) : Result :=
  tileSimple (.mvaWrite (mvaPlace (s.gval b)).1 (mvaPlace (s.gval b)).2 (s.vval a)) d false s

/-! ### Waiting for commands (R190, R193) -/

/-- Commands of a thread on an accumulator that have not completed. -/
def Core.tilePending (k : Core) (t : ThreadRef) (a : Fin 4) : List TileCmd :=
  (k.tile.queue ++ (k.tile.run.map TileRun.cmd).toList ++ k.tile.drains).filter (fun c => c.thread = t && c.acc = a)

/-- The head of the queue is a gmma whose turn to start has come and whose join has not. -/
def Core.unjoined (k : Core) (cycle : Nat) : Bool :=
  match k.tile.run, k.tile.queue with
  | none, c :: _ => c.op = .gmma && max (c.issue + 8) (k.tile.lastEnd + 1) ≤ cycle
  | _, _ => false

/-- What remains of a thread's wait on an accumulator is gmma commands that wait for their join (R193). -/
def Core.onlyJoins (k : Core) (t : ThreadRef) (a : Fin 4) (cycle : Nat) : Bool :=
  k.unjoined cycle && (k.tilePending t a).all (fun c => c.op = .gmma)

/-- The thread parks behind commands on an accumulator; the count of R193 is kept at the end of every cycle. -/
def State.parkTile (s : State) (a : Fin 4) : State :=
  (s.modMe (fun sl => if sl.parkLimit.isSome then sl else { sl with parkLimit := some { acc := a, since := none } })).park

/-- The count of a slot parked on an accumulator: it starts in the first cycle in which only joins hold the thread, and ends with that (R193). -/
def State.joinLimit (s : State) (c : CoreKey) (i : Nat) : State :=
  let sl := s.slot c i
  match sl.parkLimit with
  | none => s
  | some p =>
    let set (n : Option Nat) : State := s.modSlot c i (fun sl => { sl with parkLimit := some { p with since := n } })
    if sl.occ ≠ .thread ∨ !(s.core c).onlyJoins (s.refOf c i) p.acc s.cycle then set none
    else if p.since.isSome then s
    else (set (some s.cycle)).postAt (s.cycle + max 1 sl.wlim.toNat) (2 ^ 61) (.tileWaitLimit (s.refOf c i))

/-- The counts of every parked thread, at the end of a cycle (R193). -/
def State.joinLimits (s : State) : State :=
  s.coreKeys.foldl (fun s c => (List.range 16).foldl (fun s i => s.joinLimit c i) s) s

/-- A parked mwait or mva whose wait has only been for joins since its count began, and still is, traps (R193). -/
def execTileWaitLimit (t : ThreadRef) (s : State) : Result :=
  let sl := s.slot t.core t.slot
  match sl.parkLimit with
  | some { acc := a, since := some n } =>
    if !s.matches_ t ∨ sl.occ ≠ .thread ∨ s.cycle < n + max 1 sl.wlim.toNat ∨ !(s.core t.core).onlyJoins t a s.cycle then .next s
    else .next ((s.deliver t.core t.slot sl.pc { cause := 0x0C6, tval := BitVec.ofNat 64 a.val, tinf := 0 }).clearWaits t.core t.slot)
  | _ => .next s

/-- An instruction that waits for the thread's commands on an accumulator: its owner is checked first, a record once the wait has ended (R186, R192). -/
def afterTile (a : Fin 4) (reads : Bool) (f : State → State) (s : State) : Result :=
  if (s.foreignOwner a).isSome then .next ((s.accTrap a reads).getD s)
  else if s.myCore.tilePending s.meRef a != [] then .next (s.parkTile a)
  else .next ((s.accTrap a reads).getD (f s))

/-- mva vd, accN, gi: 16 elements of a row into lanes (R190). -/
def execMvaToVector (d : Fin 16) (a : Fin 4) (b : Fin 32) (s : State) : Result :=
  let (r, h) := mvaPlace (s.gval b)
  let v := ofLanes (fun i => accElem (s.myCore.acc[a]) (32 * r + 16 * h + i))
  afterTile a true (fun s => (s.claim a).putV d v) s

/-- mwait and mwait.rel: on an unowned accumulator they neither claim it nor wait, and a record is judged at once (R186, R192). -/
def waitTile (a : Fin 4) (f : State → State) (s : State) : Result :=
  if (s.myCore.accOwn[a]).isNone then .next ((s.accTrap a false).getD s) else afterTile a false f s

/-- mwait (R193). -/
def execMwait (d : Fin 4) (s : State) : Result := waitTile d (fun s => s) s

/-- mwait.rel queues a release step and waits for it (R193); a shadow's accumulator is freed with its primary's. -/
def execMwaitRel (d : Fin 4) (s : State) : Result :=
  waitTile d (fun s =>
    if s.myCore.shadowOf.isSome then s
    else if 2 ≤ s.myCore.tile.queue.length then s.park
    else
      let s := s.wait .engine
      let (id, s) := s.takeFresh
      (s.modMyCore (fun k => { k with tile := { k.tile with queue := k.tile.queue ++ [releaseCmd id s.meRef d s.cycle] } })).wakeTile s.cur.core) s

/-! ### The unit's schedule (R187–R189) -/

/-- The head of a core's queue begins in this cycle, its operands those of a leading command. -/
def State.beginTile (s : State) (c : CoreKey) (lead : Option TileCmd) : State :=
  match (s.core c).tile.queue with
  | [] => s
  | q :: rest =>
    let s := s.modCore c (fun k => { k with tile := { k.tile with queue := rest, run := some { cmd := q, next := 0, at_ := s.cycle, lead := lead.getD q } } })
    match q.op with
    | .mdrain _ _ fid arg =>
      s.post s.now 0 (.drainArrival { thread := q.thread, cmd := q.id, acc := q.acc, fid := fid, arg := arg, ctx := q.ctx, sup := q.sup
                                      int8 := q.fmt = .int8, cluster := cluOf c, time := (s.core c).time })
    | _ => s

/-- The first cycle in which the head of the queue may start. -/
def TileUnit.headStart (u : TileUnit) : Option (TileCmd × Nat) :=
  match u.run, u.queue with
  | none, q :: _ => some (q, max (q.issue + 8) (u.lastEnd + 1))
  | _, _ => none

/-- The head of the queue starts once the command before it has ended; a gmma asks for its join (R187, R189). -/
def execTileCommandStart (core : CoreKey) (s : State) : Result :=
  match (s.core core).tile.headStart with
  | none => .next s
  | some (q, n) =>
    if s.cycle < n then .next s
    else if q.op = .gmma then .next (s.post s.now 0 (.gmmaJoin (core / 4)))
    else .next (s.beginTile core none)

/-- The gmma at the head of a core's queue that may start now. -/
def State.joinHead (s : State) (c : CoreKey) : Option TileCmd :=
  match (s.core c).tile.headStart with
  | some (q, n) => if q.op = .gmma ∧ n ≤ s.cycle then some q else none
  | none => none

/-- The four cores of a quad start their gmma together, with the operands of core 0's (R189). -/
def execGmmaJoin (quad : CoreKey) (s : State) : Result :=
  let cores := (List.range 4).map (fun i => 4 * quad + i)
  match s.joinHead (4 * quad) with
  | none => .next s
  | some l =>
    if cores.all (fun c => (s.joinHead c).any (fun q => q.launch = l.launch && q.join = l.join)) then
      .next (cores.foldl (fun s c => s.beginTile c (some l)) s)
    else .next s

/-! ### Unit cycles (R185, R188, R192) -/

/-- The source of the first poisoned word that bytes of the weight store meet. -/
def poisonIn (l : List (Nat × Nat)) (off n : Nat) : Option Nat := (l.find? (fun e => off / 8 ≤ e.1 && e.1 ≤ (off + n - 1) / 8)).map Prod.snd

/-- The first poisoned operand of a unit cycle: A's elements by row, then B's elements and scale bytes by column; its address and source (R220). -/
def State.tilePoison (s : State) (c : CoreKey) (r : TileRun) (cols : List (List (Nat × FpVal))) : Option (Word × Nat) :=
  let l := r.lead
  let sparse : Bool := l.op = .mmas
  let ks := (cols.flatMap (fun ts => ts.map Prod.fst)).eraseDups
  let k := s.core l.thread.core
  let w := (s.clu (cluOf c)).weightPoison
  let h := r.cmd.handle
  let atW (o n : Nat) : Option (Word × Nat) := (poisonIn w o n).map (fun src => (BitVec.ofNat 64 o, src))
  let inA := (List.range 32).findSome? (fun i => ks.findSome? (fun x =>
    let (o, n) := elemBytes l.fmt x
    let a := l.aOff + i * tileRow sparse + o
    (k.spadPoisonIn a n).map (fun src => (remoteAddr l.thread.core a, src))))
  let inB := (numbered cols).findSome? (fun (j, ts) =>
    (if sparse then atW (h + j * 528 + r.next / 2 * 22) 22
      else ts.findSome? (fun (x, _) => let (o, n) := elemBytes l.fmt x; atW (h + j * 384 + o) n)).or
    (ts.findSome? (fun (x, _) =>
      if tileScales l.fmt sparse = 0 then none else atW (h + tileElements sparse + j * tileScales l.fmt sparse + x / 32) 1)))
  ((if r.next = 0 then l.bad else none).or inA).or inB

/-- A unit cycle that multiplies (R185), with what it sets in cr.mstat and the poison it meets. -/
def State.multiplyCycle (s : State) (c : CoreKey) (r : TileRun) : State :=
  let l := r.lead
  let a := r.cmd.acc
  let sparse : Bool := l.op = .mmas
  let w := (s.clu (cluOf c)).weights
  let cols := (List.range 32).map (columnTerms l.fmt sparse l.kv w r.cmd.handle r.next)
  let s := match s.tilePoison c r cols with
    | some (v, src) => s.record r.cmd.thread a { cause := 0x1A1, tval := v, tinf := BitVec.ofNat 64 src }
    | none => s
  let s := if sparse && r.next % 2 = 0 && (List.range 32).any (fun j => 16 < (groupBits w r.cmd.handle j (r.next / 2)).length) then
      s.setMstat r.cmd.thread 4
    else s
  (s.pairOf c).foldl (fun s d =>
    let spad := (s.core (if l.thread.core = c then d else l.thread.core)).spad
    let (x, sat) := unitCycle l.fmt ((s.core d).acc[a]) (l.elemA spad) cols
    let s := s.modCore d (fun k => k.setAcc a x false)
    if sat then s.setMstat r.cmd.thread 1 else s) s

/-- The accumulator with 16 elements of a row replaced (R190). -/
def accWrite (acc : List (BitVec 32)) (row half : Nat) (v : VWord) : List (BitVec 32) :=
  (List.range 1024).map (fun i => if 32 * row + 16 * half ≤ i ∧ i < 32 * row + 16 * half + 16 then lane v (i - (32 * row + 16 * half)) else accElem acc i)

/-- One beat of a drain; a drain answered with a fault has no sink, and its completion returns 18 cycles after its last unit cycle (R192, R305, log 45). -/
def State.drainCycle (s : State) (c : CoreKey) (cmd : TileCmd) (t : Nat) (fid : Nat) (arg : Word) : State :=
  let clu := cluOf c
  let vals := (List.range 16).map (fun i => accElem ((s.core c).acc[cmd.acc]) (16 * t + i))
  let s := match (s.core c).mirror with
    | some m => if vals = (List.range 16).map (fun i => accElem ((s.core m.shadow).acc[cmd.acc]) (16 * t + i)) then s
        else s.post s.now 0 (.mirroredRollback c cmd.thread.slot (s.slot c cmd.thread.slot).pc)
    | none => s
  match getKey (s.clu clu).lostDrains cmd.id with
  | none => s.drainBeat clu cmd.id (t / 2) (t % 2) vals
  | some f =>
    if t = 63 then
      let d : DrainMsg := { thread := cmd.thread, cmd := cmd.id, acc := cmd.acc, fid := fid, arg := arg, ctx := cmd.ctx, sup := cmd.sup
                            int8 := cmd.fmt = .int8, cluster := clu, time := 0 }
      (s.modClu clu (fun k => { k with lostDrains := delKey k.lostDrains cmd.id })).post (4 * (s.cycle + 18) + 2) 0 (.drainCompletion d (some f))
    else s

/-- The work of a unit cycle. -/
def State.unitWork (s : State) (c : CoreKey) (r : TileRun) : State :=
  let cmd := r.cmd
  match cmd.op with
  | .mzero => s.setAcc c cmd.acc []
  | .mvaWrite row half v =>
    (s.pairOf c).foldl (fun s d => s.modCore d (fun k => k.setAcc cmd.acc (accWrite (k.acc[cmd.acc]) row half v) false)) s
  | .mdrain zero _ fid arg =>
    if 64 ≤ r.next then s
    else
      let s := s.drainCycle c cmd r.next fid arg
      if zero ∧ r.next = 63 then s.setAcc c cmd.acc [] else s
  | .release => s
  | _ => s.multiplyCycle c r

/-- The unit cycle of a core's running command that falls in this cycle: a multiply waits out a refresh window (R188), a drain waits for its sink (R305). Called at the end of every cycle. -/
def State.tileUnitCycle (s : State) (c : CoreKey) : State :=
  match (s.core c).tile.run with
  | none => s
  | some r =>
    let again (s : State) (n : Nat) : State := s.modCore c (fun k => { k with tile := { k.tile with run := some { r with at_ := n } } })
    let phase := s.cyc (pkgOf c) % 2048
    let drains : Bool := match r.cmd.op with
      | .mdrain _ _ _ _ => r.next < 64
      | _ => false
    if r.at_ ≠ s.cycle then s
    else if tileMultiplies r.cmd.op && phase < 24 then again (s.setMstat r.cmd.thread 2) (s.cycle + 24 - phase)
    else if drains && !s.drainReady (cluOf c) r.cmd.id then again s (s.cycle + 1)
    else
      let s := s.unitWork c r
      let s := s.modCore c (fun k => { k with tile := { k.tile with run := some { r with next := r.next + 1, at_ := s.cycle + 1 } } })
      if r.next + 1 = { r.lead with op := r.cmd.op }.cycles then s.post s.now 0 (.tileCommandCompletion c) else s

/-! ### Completions -/

/-- The last unit cycle of a command is past: its lock is released, it is no longer outstanding (but for a drain; DESIGN CHOICE between R26 and R187, log 138), a release step frees its accumulator, and the next command may start (R187, R192). -/
def execTileCommandCompletion (core : CoreKey) (s : State) : Result :=
  match (s.core core).tile.run with
  | none => .next s
  | some r =>
    let cmd := r.cmd
    let drain : Bool := match cmd.op with
      | .mdrain _ _ _ _ => true
      | _ => false
    let frees : Bool := match cmd.op with
      | .mdrain _ rel _ _ => rel
      | .release => true
      | _ => false
    let s := s.modCore core (fun k => { k with
      tile := { k.tile with run := none, lastEnd := s.cycle, drains := if drain then k.tile.drains ++ [cmd] else k.tile.drains }
      locks := k.locks.filter (fun l => l.owner != cmd.id) })
    let s := if drain then s else (s.finish cmd.thread cmd.id)
    let s := if frees then s.post s.now 0 (.accumulatorReleaseStep core cmd.acc) else s
    .next (s.wakeTile core)

/-- mwait.rel on an accumulator. -/
def isMwaitRel (i : Instr) (acc : Fin 4) : Bool :=
  match i with
  | .mwaitRel a => a = acc
  | _ => false

/-- The end of a release step: the accumulator is all zero bits and unowned, and an mwait.rel that waits for it goes on (R186, R193). -/
def execAccumulatorReleaseStep (core : CoreKey) (acc : Fin 4) (s : State) : Result :=
  let s := (s.setAcc core acc []).setOwner core acc none
  let waits (i : Nat) : Bool := match (s.slot core i).block with
    | some b => b.kind = .engine && isMwaitRel b.cur.instr acc
    | none => false
  match (List.range 16).find? waits with
  | none => .next s
  | some i => .next (s.endWait (s.refOf core i) (fun sl => { sl with readyAt := max sl.readyAt (s.cycle + 1) }))

/-- A drain's completion token returns: the command is complete, and a poisoned one leaves a record (R192). -/
def execDrainCompletion (d : DrainMsg) (fault : Option FaultRec) (s : State) : Result :=
  let core := d.thread.core
  let s := s.modCore core (fun k => { k with tile := { k.tile with drains := k.tile.drains.filter (fun c => c.id != d.cmd) } })
  let s := match fault with
    | some f => s.record d.thread d.acc { cause := 0x0E2, tval := f.addr, tinf := serverInfo f d.fid }
    | none => s
  .next ((s.finish d.thread d.cmd))

/-- A refresh window of a package's weight stores begins; the unit cycles it meets move in State.tileUnitCycle and the writes of wsld in refreshWait, so the event itself changes nothing (R188, R260). -/
def execWeightStoreRefresh (_pkg : PkgKey) (s : State) : Result := .next s

end Sys2Proof.Machine
end

