-- ==== Sys2Proof/Machine/Launch.lean ====
section
/-! DEFINITION. The launch unit: launch records and their validity (R315–R321), numbers and queues (R322–R324), candidates and admission (R325–R328, R417), the start of threads (R329, R330, R336), completion, reports and abort (R331–R334), runtime requests (R337). -/

namespace Sys2Proof.Machine

open Sys2Proof

/-! ### Fields of a record (R315–R318) -/

/-- Doubleword i of a record. -/
def recDw (r : List Word) (i : Nat) : Word := r.getD i 0
/-- ENTRY. -/
def recEntry (r : List Word) : Word := recDw r 0
/-- Threads per core. -/
def recTpc (r : List Word) : Nat := wordBits (recDw r 1) 3 0 + 1
/-- Cores per quad. -/
def recCpq (r : List Word) : Nat := wordBits (recDw r 1) 5 4 + 1
/-- Quads per cluster. -/
def recQpc (r : List Word) : Nat := wordBits (recDw r 1) 7 6 + 1
/-- Clusters per die. -/
def recCpd (r : List Word) : Nat := wordBits (recDw r 1) 12 8 + 1
/-- Dies. -/
def recDies (r : List Word) : Nat := wordBits (recDw r 1) 14 13 + 1
/-- Packages. -/
def recPkgs (r : List Word) : Nat := wordBits (recDw r 1) 23 15 + 1
/-- PRI. -/
def recPri (r : List Word) : Nat := wordBits (recDw r 2) 1 0
/-- SNAP. -/
def recSnap (r : List Word) : Bool := (recDw r 2).getLsbD 2
/-- MIRR. -/
def recMirr (r : List Word) : Bool := (recDw r 2).getLsbD 3
/-- NDEP. -/
def recNdep (r : List Word) : Nat := wordBits (recDw r 2) 6 4
/-- WIN. -/
def recWin (r : List Word) : Bool := (recDw r 2).getLsbD 7
/-- NWS. -/
def recNws (r : List Word) : Nat := wordBits (recDw r 2) 15 8
/-- NTFY. -/
def recNtfy (r : List Word) : Bool := (recDw r 2).getLsbD 16
/-- The context number. -/
def recCtx (r : List Word) : Nat := wordBits (recDw r 12) 15 0
/-- DONE. -/
def recDone (r : List Word) : Word := recDw r 17
/-- The dependences used. -/
def recDeps (r : List Word) : List Word := (List.range (recNdep r)).map (fun j => recDw r (18 + j))
/-- WSL. -/
def recWsl (r : List Word) : Word := recDw r 22
/-- GRAPH. -/
def recGraph (r : List Word) : Word := recDw r 23
/-- The launch opens a load window (R330). -/
def recWindow (r : List Word) : Bool := recWin r || recNws r != 0

/-- The dies that a launch received by die d spans: in each package those from d upward, modulo 4; listed in ascending order, which is that of IDX (R327, R328). -/
def launchDies (d : DieKey) (r : List Word) : List DieKey :=
  (List.range (recPkgs r)).flatMap (fun p => ((List.range 4).filter (fun x => (x + 4 - d % 4) % 4 < recDies r)).map (fun x => (d / 4 + p) * 4 + x))

/-! ### Reading at physical addresses -/

/-- A package-local physical address that a register of the launch unit holds. -/
def unitPa (d : DieKey) (w : Word) (align : Nat) : PhysAddr := d / 4 * 2 ^ 42 + w.toNat % 2 ^ 42 / align * align

/-- The first poisoned sector of n bytes. -/
def State.poisonAt (s : State) (pa n : Nat) : Option PhysAddr :=
  (((List.range ((pa % 64 + n + 63) / 64)).map (fun i => sectorOf pa + 64 * i)).find? (fun a => (s.sector a).poison.isSome))

/-- The largest wts of the sectors of n bytes. -/
def State.wtsAt (s : State) (pa n : Nat) : Nat :=
  maxOf ((List.range ((pa % 64 + n + 63) / 64)).map (fun i => (s.sector (sectorOf pa + 64 * i)).wts))

/-- A launch unit's time rises to at least t (R267, R329, R331). -/
def State.raiseDie (s : State) (d : DieKey) (t : Nat) : State := s.modDie d (fun k => { k with time := max k.time t })

/-- A launch unit reads the sectors that bytes meet as an ordered load reads: each grants its lease, and the unit's time rises to its wts (R114, R329). -/
def State.readAsUnit (s : State) (d : DieKey) (pa n : Nat) : State :=
  let t := (s.die d).time
  ((List.range ((pa % 64 + n + 63) / 64)).foldl (fun s i => s.grant (sectorOf pa + 64 * i) (t + 256)) s).raiseDie d (s.wtsAt pa n)

/-- The same of a context's memory. -/
def State.raiseByRead (s : State) (d : DieKey) (ctx : Nat) (va : Word) (n : Nat) : State :=
  (sectorPieces va n).foldl (fun s (a, k) => match s.leafOf (d / 4) ctx a with
    | some e => s.readAsUnit d (e.phys a.toNat) k
    | none => s) s

/-- Where the record at an index of a host queue lies (R323). -/
def HostQueue.recordAt (q : HostQueue) (d : DieKey) (i : BitVec 32) : PhysAddr :=
  unitPa d q.qbase 256 + 256 * (i.toNat % 2 ^ min 12 q.qlog.toNat)

/-- A host queue of a die. -/
def Die.queue (k : Die) (q : Nat) : HostQueue := (k.queues[q]?).getD HostQueue.init
/-- The state with a host queue changed. -/
def State.modQueue (s : State) (d : DieKey) (q : Nat) (f : HostQueue → HostQueue) : State :=
  s.modDie d (fun k => { k with queues := k.queues.setIfInBounds q (f (k.queue q)) })

/-- The record at the head of a host queue. -/
def State.headRecord (s : State) (d : DieKey) (q : Nat) : List Word :=
  let k := (s.die d).queue q
  bytesWords (Memory.getN s.mem (k.recordAt d k.head) 256)

/-! ### Context descriptors (R339) -/

/-- The descriptor of a context, as memory holds it: none when it is not valid. -/
def State.readDescriptor (s : State) (p : PkgKey) (ctx : Nat) : Option CtxDesc :=
  let base := (s.pkg p).cdtb.toNat % 2 ^ 42 / 2 ^ 22 * 2 ^ 22
  let ws := bytesWords (Memory.getN s.mem (p * 2 ^ 42 + base + 64 * ctx) 64)
  let w := ws.getD 0 0
  if w.getLsbD 0 then
    some { root := p * 2 ^ 42 + wordBits w 41 16 * 65536
           fmap := BitVec.ofNat 64 (wordBits (ws.getD 2 0) 54 14 * 16384), psa := BitVec.ofNat 64 (wordBits (ws.getD 3 0) 54 16 * 65536) }
  else none

/-- Some launch of a context is live on a package. -/
def State.ctxLive (s : State) (p : PkgKey) (ctx : Nat) : Bool :=
  s.launches.any (fun l => l.ctx = ctx && l.slots.any (fun e => pkgOf e.1 = p))

/-- The descriptor of a context stands in a package's launch unit, kept while the context is live; false when it is not valid (R339). -/
def State.loadDescriptor (s : State) (p : PkgKey) (ctx : Nat) : Bool × State :=
  if s.ctxLive p ctx && (getKey (s.pkg p).ctxs ctx).isSome then (true, s)
  else match s.readDescriptor p ctx with
    | some d => (true, s.modPkg p (fun k => { k with ctxs := setKey k.ctxs ctx d }))
    | none => (false, s)

/-! ### Lists and graphs (R319, R320) -/

/-- The entries of a weight-load list: source, offset, third doubleword. -/
def wslEntries (ws : List Word) (n : Nat) : List (Word × Word × Word) :=
  (List.range n).map (fun i => (ws.getD (3 * i) 0, ws.getD (3 * i + 1) 0, ws.getD (3 * i + 2) 0))

/-- An entry of a weight-load list that R319 does not allow. -/
def wslBad (e : Word × Word × Word) : Bool :=
  wordBits e.1 63 55 ≠ 0 || e.1.toNat % 64 != 0 || e.2.1.toNat % 64 != 0 || wordBits e.2.2 31 0 = 0 || wordBits e.2.2 31 0 % 64 != 0 || wordBits e.2.2 63 33 != 0

/-- The rook that an entry of a graph table names, in a pod with this package 0 (R320, R377). -/
def graphRook (pod0 : PkgKey) (w : Word) : RookKey := (((pod0 + wordBits w 27 19) * 4 + wordBits w 18 17) * 24 + wordBits w 16 12) * 4 + wordBits w 11 10

/-- The outbound join of channel c of a graph entry: target entry and channel, when valid. -/
def graphJoin (e : List Word) (c : Nat) : Option (Nat × Nat) :=
  let x := if c ≤ 4 then wordBits (e.getD 1 0) (16 * c - 1) (16 * (c - 1)) else wordBits (e.getD 2 0) (16 * (c - 4) - 1) (16 * (c - 5))
  if x / 2 ^ 15 = 1 then some (x % 2 ^ 12, x / 2 ^ 12 % 8) else none

/-- The image that a rook of a graph loads. -/
def State.graphImage (s : State) (pod0 : PkgKey) (ctx : Nat) (w : Word) : Option (List Word) :=
  let clu := graphRook pod0 w / 4
  match (s.clu clu).cached ctx (wordBits w 9 0) with
  | some img => some img
  | none => match s.findImage clu ctx (wordBits w 9 0) with
    | .image img _ => some img
    | _ => none

/-- The entries of a graph table. -/
def graphEntries (ws : List Word) (n : Nat) : List (List Word) := (List.range n).map (fun i => (ws.drop (4 * i)).take 4)

/-- The rooks of a graph, in the order of its entries. -/
def graphRooks (pod0 : PkgKey) (es : List (List Word)) : List RookKey := es.map (fun e => graphRook pod0 (e.getD 0 0))

/-- The clusters of a graph's rooks, each with the function that the rook loads. -/
def graphFids (pod0 : PkgKey) (es : List (List Word)) : List (ClusterKey × Nat) := es.map (fun e => (graphRook pod0 (e.getD 0 0) / 4, wordBits (e.getD 0 0) 9 0))

/-- A graph table that R320 allows: each entry in form and within the pod, its image in stream mode, and each join between an outbound and an inbound channel of the images; no rook twice, and no function twice in a cluster (R301, log 150). -/
def State.graphOk (s : State) (p : PkgKey) (ctx : Nat) (es : List (List Word)) : Bool :=
  let p0 := s.pod0 p
  (graphRooks p0 es).eraseDups.length = es.length && (graphFids p0 es).eraseDups.length = es.length &&
  let imgs := es.map (fun e => s.graphImage p0 ctx (e.getD 0 0))
  let dir (i c : Nat) : Nat := (imgs.getD i none).elim 0 (fun img => linkDir img c)
  (numbered es).all (fun (i, e) =>
    let w := e.getD 0 0
    wordBits w 63 28 = 0 && wordBits (e.getD 2 0) 63 48 = 0 && e.getD 3 0 = 0 && wordBits w 16 12 < 24 && wordBits w 27 19 ≤ (s.pkg p).podN
      && (imgs.getD i none).any (fun img => imgMode img = 1)
      && (List.range 7).all (fun c => match graphJoin e (c + 1) with
        | none => true
        | some (t, k) => t < es.length && dir i (c + 1) = 2 && k != 0 && dir t k = 1))

/-! ### Validity (R321, R326) -/

/-- What the check of a record answers: valid, with its weight-load list and graph table; invalid with the cause of a failed read, and the address of poisoned bytes; its entry line unpublished; or a list waits for a commit's lock (R279). -/
inductive Verdict where
  | ok (wsl : List (Word × Word × Word)) (graph : List (List Word))
  | invalid (cause : Nat) (poison : Option Word)
  | unpublished
  | wait
  deriving DecidableEq, Repr

/-- The verdict on a failed read of a unit (R326, R418). -/
def readVerdict (sub : Nat) (addr : Word) : Verdict :=
  if sub = 4 then .invalid 0x1A1 (some addr) else .invalid (if sub = 1 then 0x081 else 0x082) none

/-- A launch unit reads bytes of a context, with its own time; a malformed page-table entry in the way is logged (R279, R344, R418). -/
def State.readList (s : State) (d : DieKey) (ctx : Nat) (va : Word) (n : Nat) : (Verdict ⊕ List Word) × State :=
  match s.unitRead (d / 4) ctx (s.die d).time va n with
  | .ok bs => (.inr (bytesWords bs), s.raiseByRead d ctx va n)
  | .wait => (.inl .wait, s)
  | .fail sub a => (.inl (readVerdict sub a), if sub = 1 then s.logWalk (24 * d) ctx a else s)

/-- A record whose own fields make it invalid (R321). -/
def State.formBad (s : State) (d : DieKey) (r : List Word) (lnch : Bool) : Bool :=
  wordBits (recEntry r) 63 55 ≠ 0 || (recEntry r).toNat % 8 != 0
    || wordBits (recDw r 1) 63 24 ≠ 0 || wordBits (recDw r 2) 63 17 ≠ 0 || wordBits (recDw r 12) 63 16 ≠ 0 || wordBits (recDw r 14) 63 12 ≠ 0
    || (List.range 8).any (fun i => recDw r (24 + i) != 0)
    || 4 < recNdep r
    || (recDeps r).any (fun x => wordBits x 62 32 ≠ 0 || (x.getLsbD 63 && (lnch || wordBits x 15 0 = 0)))
    || (lnch && recPkgs r != 1) || (recMirr r && 2 < recCpq r)
    || (s.pkg (d / 4)).podN < (s.pkg (d / 4)).podPkg + recPkgs r - 1 || 24 < recCpd r
    || (recNws r != 0 && (recWsl r).toNat % 8 != 0) || (recGraph r).toNat % 8 != 0 || (recDone r).toNat % 8 != 0

/-- The entries of a record's weight-load list, or the verdict when it cannot be read or breaks R319. -/
def State.readWsl (s : State) (d : DieKey) (r : List Word) : (Verdict ⊕ List (Word × Word × Word)) × State :=
  if recNws r = 0 then (.inr [], s)
  else match s.readList d (recCtx r) (recWsl r) (24 * recNws r) with
    | (.inl v, s) => (.inl v, s)
    | (.inr ws, s) =>
      let es := wslEntries ws (recNws r)
      (if es.any wslBad then .inl (.invalid 0 none) else .inr es, s)

/-- The entries of a record's graph table, none without one, or the verdict when it cannot be read or breaks R320. -/
def State.readGraph (s : State) (d : DieKey) (r : List Word) : (Verdict ⊕ List (List Word)) × State :=
  if recGraph r = 0 then (.inr [], s)
  else match s.readList d (recCtx r) (recGraph r) 8 with
    | (.inl v, s) => (.inl v, s)
    | (.inr ws, s) =>
      let n := (ws.getD 0 0).toNat
      if n = 0 ∨ 4096 < n then (.inl (.invalid 0 none), s)
      else match s.readList d (recCtx r) (recGraph r + 8) (32 * n) with
        | (.inl v, s) => (.inl v, s)
        | (.inr ws, s) =>
          let es := graphEntries ws n
          (if s.graphOk (d / 4) (recCtx r) es then .inr es else .inl (.invalid 0 none), s)

/-- What ENTRY makes of a record: translated, with X and U, on a line that is not Written (R129, R321, R326, R372); none when it stands. -/
def State.entryVerdict (s : State) (p : PkgKey) (ctx : Nat) (entry : Word) : Option Verdict :=
  match s.leafOf p ctx entry with
  | none => some (.invalid 0x081 none)
  | some e =>
    if !e.x then some (.invalid 0x162 none)
    else if !e.u then some (.invalid 0x082 none)
    else if s.line (e.phys entry.toNat) = .written then some .unpublished else none

/-- The check of a record (R321, R326), its own bytes known to be clean. -/
def State.judgeRecordOf (s : State) (d : DieKey) (r : List Word) (lnch : Bool) : Verdict × State :=
  let p := d / 4
  let ctx := recCtx r
  if s.formBad d r lnch then (.invalid 0 none, s)
  else
    let (okc, s) := (launchDies d r).foldl (fun (ok, s) x => let (b, s) := s.loadDescriptor (x / 4) ctx; (ok && b, s)) (true, s)
    if !okc then (.invalid 0 none, s)
    else match s.readWsl d r with
      | (.inl v, s) => (v, s)
      | (.inr wsl, s) => match s.readGraph d r with
        | (.inl v, s) => (v, s)
        | (.inr es, s) => match s.entryVerdict p ctx (recEntry r) with
          | some v => (v, if v = .invalid 0x081 none then s.logWalk (24 * d) ctx (recEntry r) else s)
          | none => (.ok wsl es, s)

/-! ### Numbers (R322) -/

/-- The next launch number of a die, as a key. -/
def State.takeNumber (s : State) (d : DieKey) : Nat × State :=
  let n := (s.die d).seq
  (d / 4 * 2 ^ 32 + d % 4 * 2 ^ 30 + n, s.modDie d (fun k => { k with seq := if n + 1 = 2 ^ 30 then 1 else n + 1 }))

/-- A launch number is in use: a live launch, or a record in a device queue. -/
def State.numberLive (s : State) (key : Nat) : Bool :=
  s.launches.any (fun l => l.num = key) || s.dies.any (fun e => e.2.devq.any (fun r => r.launch = key))

/-! ### Dependences (R318) -/

/-- A dependence of a record on a die; q names its host queue. -/
def State.depMet (s : State) (d : DieKey) (q : Option Nat) (x : Word) : Bool :=
  if x.getLsbD 63 then
    match q with
    | none => true
    | some q =>
      let k := (s.die d).queue q
      match k.given.find? (fun e => e.1 = k.head - BitVec.ofNat 32 (wordBits x 15 0)) with
      | some (_, key) => !s.numberLive key
      | none => true
  else !s.numberLive (d / 4 * 2 ^ 32 + wordBits x 31 0)

/-! ### The launch unit's work in a cycle -/

/-- Every launch unit that has candidates judges them. -/
def State.wakeUnits (s : State) : State := s.dies.foldl (fun s e => s.wakeUnit e.1 (s.cycle + 1)) s

/-- A new TAIL makes records available; the unit's time rises to that of die 0 of its package (R267, R323). -/
def execQueueDoorbell (die : DieKey) (queue : Nat) (tail : BitVec 32) (s : State) : Result :=
  let s := s.raiseDie die (s.die (die / 4 * 4)).time
  let s := s.modQueue die queue (fun q => { q with tail := tail, entered := if tail = q.tail then q.entered else q.entered ++ [(tail, s.cycle)] })
  .next (s.wakeUnit die (s.cycle + 1))

/-- Room in the completion ring of a host queue (R323). -/
def HostQueue.hasRoom (q : HostQueue) : Bool := (q.ctail - q.chead).toNat < 2 ^ min 12 q.clog.toNat

/-- A new CHEAD frees room in a completion ring: the reports of its die and the runtime requests of every die that wait for it are written (R323, R337). -/
def execCompletionRingRelease (die : DieKey) (queue : Nat) (chead : BitVec 32) (s : State) : Result :=
  let s := s.modQueue die queue (fun q => { q with chead := chead })
  let waits := (s.dies.filter (fun e => e.1 != die && e.2.hcalls.any (fun h => h.1 = some (die, queue)))).map Prod.fst
  .next (((die :: waits).foldl (fun s d => s.post s.now 0 (.completionReport d)) s).wakeUnit die (s.cycle + 1))

/-! ### lnch (R146, R324) -/

/-- The thread in the latch with a privilege. -/
def State.asSup (s : State) (b : Bool) : State := s.modMe (fun sl => { sl with st := { sl.st with sup := b } })

/-- The checks of the four sectors of a record that lnch reads (R101): its physical sectors, in order. -/
def State.checkRecord (s : State) (va : Word) : Nat → Checked × List PhysAddr
  | 0 => (.spad 0 0, [])
  | n + 1 =>
    match s.checkRecord va n with
    | (.trap v, l) => (.trap v, l)
    | (.park s, l) => (.park s, l)
    | (prev, l) =>
      let s' := match prev with
        | .global _ _ t => t
        | _ => s
      match s'.checkAccess (va + BitVec.ofNat 64 (64 * n)) 64 .load .globalOnly .forbidden with
      | .global e pa t => (.global e pa t, l ++ [pa])
      | c => (c, l)

/-- lnch checks its record as a load, but with supervisor privilege, since the launch unit reads it; it waits as a release, and submits the record to the die's launch unit, which answers 200 cycles after issue (R146, R324, R418). -/
def execLnch (d a : Fin 32) (s : State) : Result :=
  let va := s.gval a
  match (s.asSup true).checkRecord va 4 with
  | (.trap v, _) => .next (s.trapV v)
  | (.park t, _) => .next (t.asSup s.me.st.sup).park
  | (.spad _ _, _) => .next s
  | (.global _ _ t, pas) =>
    if s.mustRelease then .next ((s.wantCheckpoint s.cur.core).wait .release)
    else
      let (id, s) := (t.asSup s.me.st.sup).begin_ .long 0 0
      let s := s.modMe (fun sl => { sl with regs := sl.regs.retag .pending (.g d) })
      let m : LnchMsg := { thread := s.meRef, id := id, dst := d, va := va, sectors := pas, time := (s.core s.cur.core).time, issue := s.cycle }
      .next (s.postAt (s.cycle + 100) (senderRank s.cur.core s.cur.slot) (.lnchSubmission m))

/-- The record of lnch with what the launch unit replaces (R324). -/
def lnchRecord (r issuer : List Word) : List Word :=
  let ctl := recDw r 2
  let pri := min (recPri r) (recPri issuer)
  ((((r.set 2 (ctl &&& ~~~3#64 ||| BitVec.ofNat 64 pri)).set 12 (recDw issuer 12)).set 13 (recDw issuer 13)).set 14 (recDw issuer 14)).set 15 (recDw issuer 15)
    |>.set 16 (recDw issuer 16)

/-- Poisoned bytes that a launch unit has read are logged (R324, R326). -/
def State.logLaunch (s : State) (d : DieKey) (addr : Word) : State := s.logError d { LogEvent.ofClu 3 0x1A1 0 (d * 24) addr 0 with cluster := 0 }

/-- The launch unit reads a record, waiting for locks, takes it into the device queue of 64 and answers (R146, R279, R324). -/
def execLnchSubmission (m : LnchMsg) (s : State) : Result :=
  let t := m.thread
  let d := dieOf t.core
  let answer (s : State) (x : Nat) : Result :=
    .next (s.postAt (max (m.issue + 200) s.cycle) (completionRank m.issue 0)
      (.longOperationCompletion { thread := t, id := m.id, dst := .g m.dst, va := m.va, val := BitVec.ofNat 512 x, mark := none, raise := 0, issue := m.issue, word := 0 }))
  let launch := (s.slot t.core t.slot).launch
  match s.launch? launch with
  | none => answer s (2 ^ 63 + 2)
  | some l =>
    if 64 ≤ (s.die d).devq.length then answer s (2 ^ 63 + 1)
    else if m.sectors.any (s.unitLocked (s.die d).time) then .next (s.postAt (s.cycle + 1) (senderRank t.core t.slot) (.lnchSubmission m))
    else if m.sectors.any (fun pa => (s.sector pa).poison.isSome) then answer (s.logLaunch d m.va) (2 ^ 63 + 2)
    else
      let r := lnchRecord (m.sectors.flatMap (fun pa => bytesWords (Memory.getN s.mem pa 64))) l.record
      let s := m.sectors.foldl (fun s pa => s.readAsUnit d pa 64) s
      match s.judgeRecordOf d r true with
      | (.wait, s) => .next (s.postAt (s.cycle + 1) (senderRank t.core t.slot) (.lnchSubmission m))
      | (.unpublished, s) => answer s (2 ^ 63 + 3)
      | (.invalid _ p, s) => answer (p.elim s (s.logLaunch d)) (2 ^ 63 + 2)
      | (.ok _ _, s) =>
        let (key, s) := s.takeNumber d
        let x : DevRecord := { record := r, from_ := t, addr := m.va, launch := key, queue := l.queue, ctx := l.ctx, entered := s.cycle, time := m.time }
        answer ((s.modDie d (fun k => { k with devq := k.devq ++ [x] })).wakeUnit d (s.cycle + 1)) (key % 2 ^ 32)

/-! ### Placement (R327, R330, R394) -/

/-- A cluster admits nothing now: a load window of another launch, a pre-emption, a retirement (R327, R330, R350, R401). -/
def State.cluClosed (s : State) (k : ClusterKey) : Bool :=
  (s.clu k).window.isSome || (s.clu k).retiring || (s.pkg (pkgOfClu k)).preempt.any (fun x => x.clusters.contains k)

/-- A core holds no thread and no context of another context number (R327). -/
def Core.onlyCtx (k : Core) (ctx : Nat) : Bool :=
  (List.range 16).all (fun i => (k.slot i).occ = .free || (k.slot i).occ = .scrubbing || (k.slot i).ctx = ctx)
    && (k.arrivals ++ k.spilled ++ k.installs.map Install.ctx).all (fun m => m.ctx = ctx) && k.scrubUntil.isNone

/-- A core holds nothing at all (R394). -/
def Core.empty (k : Core) : Bool := !k.live && (List.range 16).all (fun i => (k.slot i).occ = .free) && k.scrubUntil.isNone

/-- The free slots of a core. -/
def Core.freeSlots (k : Core) : List Nat := (List.range 16).filter (fun i => (k.slot i).occ = .free)

/-- A core is eligible: for a mirrored launch the pair that it leads is empty (R327, R394). -/
def State.coreEligible (s : State) (c : CoreKey) (ctx tpc : Nat) (mirr : Bool) : Bool :=
  let k := s.core c
  k.mirror.isNone && k.shadowOf.isNone && tpc ≤ k.freeSlots.length && k.onlyCtx ctx
    && (!mirr || (c % 2 = 0 && k.empty && (s.core (c + 1)).empty && (s.core (c + 1)).mirror.isNone && (s.core (c + 1)).shadowOf.isNone))

/-- The eligible cores of a quad. -/
def State.quadCores (s : State) (q : Nat) (r : List Word) : List CoreKey :=
  ((List.range 4).map (fun i => 4 * q + i)).filter (fun c => s.coreEligible c (recCtx r) (recTpc r) (recMirr r))

/-- The eligible quads of a cluster. -/
def State.cluQuads (s : State) (k : ClusterKey) (r : List Word) : List Nat :=
  ((List.range 4).map (fun i => 4 * k + i)).filter (fun q => recCpq r ≤ (s.quadCores q r).length)

/-- A cluster runs a tile command or holds a thread of another launch, one that has yet to start among them (R330). -/
def State.cluBusy (s : State) (k : ClusterKey) : Bool :=
  (List.range 16).any (fun i =>
    let x := s.core (16 * k + i)
    x.live || x.hasReserved || x.tile.run.isSome || !x.tile.queue.isEmpty || !x.tile.drains.isEmpty)

/-- The placement of a record on one die, in the order of IDX; none while it does not exist, or while R330 holds it back (R327, R328). -/
def State.placeDie (s : State) (d : DieKey) (r : List Word) : Option (List (CoreKey × Nat)) :=
  let clus := ((List.range 24).map (fun i => 24 * d + i)).filter (fun k => !s.cluClosed k && recQpc r ≤ (s.cluQuads k r).length)
  if clus.length < recCpd r then none
  else
    let used := clus.take (recCpd r)
    if recWindow r && used.any s.cluBusy then none
    else some (used.flatMap (fun k => ((s.cluQuads k r).take (recQpc r)).flatMap (fun q =>
      ((s.quadCores q r).take (recCpq r)).flatMap (fun c => ((s.core c).freeSlots.take (recTpc r)).map (fun i => (c, i))))))

/-- The slots that a placement takes until its threads start: of a mirrored launch every slot of its pairs (R394). -/
def heldSlots (mirr : Bool) (l : List (CoreKey × Nat)) : List (CoreKey × Nat) :=
  if mirr then (l.map Prod.fst).eraseDups.flatMap (fun c => (List.range 16).flatMap (fun i => [(c, i), (c + 1, i)])) else l

/-- Slots are reserved for an admission, in the name of a launch once it has its number (R326). -/
def State.reserveSlots (s : State) (launch ctx : Nat) (l : List (CoreKey × Nat)) : State :=
  l.foldl (fun s (c, i) => s.modSlot c i (fun sl => { sl with occ := .reserved, ctx := ctx, launch := launch })) s

/-- Reserved slots are free again (R417). -/
def State.freeSlotsOf (s : State) (l : List (CoreKey × Nat)) : State :=
  l.foldl (fun s (c, i) => (s.modSlot c i (fun sl => { Slot.init with gen := sl.gen })).slotFreed c) s

/-! ### Rounds (R367, R417) -/

/-- The way between two launch units (DESIGN CHOICE: that between the first cores of their dies, log 50). -/
def State.unitTravel (s : State) (a b : DieKey) : Nat := s.oneWay (384 * a) (384 * b)

/-- The owner under which a package holds a registry entry for a round (R367). -/
def heldOwner (round : Nat) : RegOwner := .launch (2 ^ 64 + round)

/-- Every part and every held registry entry of a round is released, and its requests are withdrawn (R367, R417). -/
def State.dropRound (s : State) (d : DieKey) (round : Nat) : State :=
  let s := s.modDie d (fun k => { k with round := none })
  let s := s.dies.foldl (fun s (x, k) =>
    let mine := k.parts.filter (fun p => p.round = round)
    let s := s.modDie x (fun k => { k with parts := k.parts.filter (fun p => p.round != round), requests := k.requests.filter (fun m => m.round != round) })
    mine.foldl (fun s p => s.freeSlotsOf (heldSlots p.mirr p.slots)) s) s
  let s := s.pkgs.foldl (fun s (p, _) => s.releaseEntries p (fun e => e.owner = heldOwner round)) s
  s.keepEvents (fun e => match e with
    | .placementRequest m => m.round != round
    | .placementAnswer m _ _ => m.round != round
    | _ => true)

/-- The receiving unit asks every other die of the launch (R417). -/
def State.startRound (s : State) (d : DieKey) (r : List Word) : State :=
  let (n, s) := s.takeFresh
  let others := (launchDies d r).filter (fun x => x != d)
  let s := s.modDie d (fun k => { k with round := some { num := n, waiting := others, ready := [], notReady := [], full := [], times := [] } })
  others.foldl (fun s x =>
    let m : PlaceMsg := { round := n, home := d, die := x, record := r, ctx := recCtx r, pri := recPri r
                          snap := recSnap r && x / 4 != d / 4 && others.find? (fun y => y / 4 = x / 4) = some x }
    s.sendAt 1 (24 * d) (24 * x) (s.cycle + s.unitTravel d x) (senderRank (384 * d) 16) (.placementRequest m)) s

/-- A placement request: on its arrival a candidate; once selected, its part is reserved and answered ready, or it is answered not ready, with 1 for a full registry (R367, R417). -/
def execPlacementRequest (m : PlaceMsg) (s : State) : Result :=
  let k := s.die m.die
  if !k.requests.contains m then .next ((s.modDie m.die (fun k => { k with requests := k.requests ++ [m] })).wakeUnit m.die (s.cycle + 1))
  else
    let s := s.modDie m.die (fun k => { k with requests := k.requests.erase m })
    let answer (s : State) (ok : Bool) (t : Nat) : Result :=
      .next ((s.sendAt 1 (24 * m.die) (24 * m.home) (s.cycle + s.unitTravel m.die m.home) (senderRank (384 * m.die) 16) (.placementAnswer m ok t)).wakeUnit m.die (s.cycle + 1))
    let p := m.die / 4
    match s.placeDie m.die m.record with
    | none => answer s false 0
    | some l =>
      let time := k.time
      if m.snap && 4096 ≤ (s.pkg p).registry.length then answer s false 1
      else
        let s := if m.snap then s.modPkg p (fun x => { x with registry := x.registry ++ [{ time := time, owner := heldOwner m.round }] }) else s
        let mirr := recMirr m.record
        let s := (s.reserveSlots 0 m.ctx (heldSlots mirr l)).modDie m.die (fun k => { k with parts := k.parts ++ [{ round := m.round, slots := l, mirr := mirr }] })
        answer s true (if m.snap then time else 0)

/-- A round is given up; a new one waits for a slot, or a registry entry, to become free where the answer was not ready (R367, R417). -/
def State.holdRound (s : State) (d : DieKey) (x : Round) (notReady : List DieKey) (full : List PkgKey) : State :=
  (s.dropRound d x.num).modDie d (fun k => { k with round := some { x with waiting := [], ready := [], notReady := notReady, full := full, times := [] } })

/-- An answer reaches the receiving unit; one that is not ready releases the round's parts (R417). -/
def execPlacementAnswer (m : PlaceMsg) (ready : Bool) (time : Nat) (s : State) : Result :=
  match (s.die m.home).round with
  | none => .next s
  | some x =>
    if x.num ≠ m.round then .next s
    else if ready then
      .next ((s.modDie m.home (fun k => { k with round := some { x with
        waiting := x.waiting.filter (· != m.die), ready := x.ready ++ [m.die], times := x.times ++ [time] } })).wakeUnit m.home (s.cycle + 1))
    else if time = 0 then .next (s.holdRound m.home x [m.die] [])
    else .next (s.holdRound m.home x [] [m.die / 4])

/-! ### Candidates and selection (R325) -/

/-- A candidate: its source, PRI, the cycle in which it entered (0 for a request of another die), its queue number. -/
abbrev Candidate := RecSource × Nat × Nat × Nat

/-- A queue offers a candidate: its completion ring has room, and no entry waits for it (R323). -/
def Die.offers (k : Die) (q : Nat) : Bool := (k.queue q).hasRoom && !k.reports.any (fun r => r.queue = some q)

/-- The candidates of a die whose dependences are met (R323, R325). -/
def State.candidates (s : State) (d : DieKey) : List Candidate :=
  let k := s.die d
  let qs := (List.range 16).filterMap (fun q =>
    let x := k.queue q
    if x.head = x.tail || !k.offers q then none
    else
      let r := s.headRecord d q
      if (recDeps r).all (s.depMet d (some q)) then some (.queue q, recPri r, 1 + ((x.entered.head?.map Prod.snd).getD 0), q) else none)
  let dv := match k.devq with
    | [] => []
    | x :: _ => if (recDeps x.record).all (s.depMet d none) then [(RecSource.device, recPri x.record, 1 + x.entered, 16)] else []
  qs ++ dv ++ (numbered k.requests).map (fun (i, m) => (RecSource.request m, m.pri, 0, i))

/-- One candidate stands before another (R325). -/
def Candidate.before (a b : Candidate) : Bool :=
  b.2.1 < a.2.1 || (a.2.1 = b.2.1 && (a.2.2.1 < b.2.2.1 || (a.2.2.1 = b.2.2.1 && a.2.2.2 < b.2.2.2)))

/-- The first of the candidates. -/
def firstCandidate (l : List Candidate) : Option Candidate :=
  l.foldl (fun a x => match a with
    | none => some x
    | some y => if Candidate.before x y then some x else some y) none

/-- The record of a source, and the address of its bytes. -/
def State.sourceRecord (s : State) (d : DieKey) (src : RecSource) : Option (List Word × Word) :=
  match src with
  | .queue q =>
    let k := (s.die d).queue q
    if k.head = k.tail then none else some (s.headRecord d q, BitVec.ofNat 64 (k.recordAt d k.head % 2 ^ 42))
  | .device => (s.die d).devq.head?.map (fun x => (x.record, x.addr))
  | .request _ => none

/-- HEAD of a queue advances past the record it held, which received a number, or 0 for none; numbers are kept as far back as a dependence may name (R318, R323). -/
def State.advanceHead (s : State) (d : DieKey) (q : Nat) (key : Nat) : State :=
  s.modQueue d q (fun k => { k with
    head := k.head + 1
    given := (if key = 0 then [] else [(k.head, key)]) ++ k.given.filter (fun e => e.1 != k.head && (k.head - e.1).toNat < 65535)
    entered := k.entered.filter (fun e => e.1 != k.head + 1) })

/-- A report waits for its ring (R332). -/
def State.report (s : State) (d : DieKey) (r : Report) : State :=
  (s.modDie d (fun k => { k with reports := k.reports ++ [r] })).post s.now (2 ^ 51) (.completionReport d)

/-- Doubleword 0 of a completion entry (R332). -/
def reportWord (number state cause : Nat) : Word := BitVec.ofNat 64 (number % 2 ^ 32 + state * 2 ^ 32 + cause * 2 ^ 35)

/-- A record is refused: a host record gets its completion entry and HEAD advances; one of lnch writes nothing (R326, R332). The phase time of a refused record is a free value (log 51). -/
def State.refuseRecord (s : State) (d : DieKey) (src : RecSource) (addr : Word) (state cause : Nat) (poison : Option Word) : State :=
  let s := (poison.elim s (s.logLaunch d)).modDie d (fun k => { k with selected := none })
  match src with
  | .queue q =>
    let (n, s) := s.takeFree
    (s.advanceHead d q 0).report d
      { queue := some q, entry := [reportWord 0 state cause, BitVec.ofNat 64 (Config.freeNat n), addr, 0], done := 0, doneTime := 0, ctx := 0 }
  | _ => s.modDie d (fun k => { k with devq := k.devq.drop 1 })

/-- Where a selected record lies, when the launch unit reads it at a physical address. -/
def State.recordPlace (s : State) (d : DieKey) (src : RecSource) : Option PhysAddr :=
  match src with
  | .queue q => some (((s.die d).queue q).recordAt d ((s.die d).queue q).head)
  | _ => none

/-- The unit reads and checks a record that it selects (R326); its time rises to what the reads return (R329). One whose bytes or lists wait for a lock is selected anew in the next cycle (R279). -/
def State.checkSelected (s : State) (d : DieKey) (src : RecSource) (r : List Word) (addr : Word) : State :=
  let at_ := s.recordPlace d src
  if at_.any (fun pa => (List.range 4).any (fun i => s.unitLocked (s.die d).time (pa + 64 * i))) then s
  else
    let s := at_.elim s (fun pa => s.readAsUnit d pa 256)
    match at_.bind (fun pa => s.poisonAt pa 256) with
    | some pa => s.refuseRecord d src addr 3 0x1A1 (some (BitVec.ofNat 64 (pa % 2 ^ 42)))
    | none =>
      match s.judgeRecordOf d r (src = .device) with
      | (.ok wsl es, s) => s.modDie d (fun k => { k with selected := some { src := src, record := r, addr := addr, wsl := wsl, graph := es } })
      | (.unpublished, s) => s.refuseRecord d src addr 4 0 none
      | (.invalid c p, s) => s.refuseRecord d src addr 3 c p
      | (.wait, s) => s

/-- The selected record is selected no more; its round is given up. -/
def State.deselect (s : State) (d : DieKey) : State :=
  let s := (s.die d).round.elim s (fun r => s.dropRound d r.num)
  s.modDie d (fun k => { k with selected := none })

/-- The selected record stands while its queue offers it, unless a candidate of higher PRI has come (R323, R325). -/
def State.select (s : State) (d : DieKey) : State :=
  let s := match (s.die d).selected.map Selected.src with
    | some (.queue q) => if (s.die d).offers q then s else s.deselect d
    | _ => s
  match firstCandidate (s.candidates d) with
  | none => s
  | some (src, pri, _, _) =>
    if (s.die d).selected.any (fun x => pri ≤ recPri x.record) then s
    else
      let s := s.deselect d
      match src with
      | .request m => s.modDie d (fun k => { k with selected := some { src := src, record := m.record, addr := 0, wsl := [], graph := [] } })
      | _ => match s.sourceRecord d src with
        | some (r, addr) => s.checkSelected d src r addr
        | none => s

/-! ### Admission (R326, R329, R330, R336) -/

/-- A core takes a launch's registers while LIVE = 0; its time rises to τ (R329). -/
def State.prepareCore (s : State) (c : CoreKey) (tau : Nat) (r : List Word) : State :=
  let s := if (s.core c).live then s
    else
      let s := match execMboxWrite c (recDw r 15) s with
        | .next s => s
        | _ => s
      let w := recDw r 16
      let base := wordBits w 17 7
      let cap := wordBits w 24 18
      if cap ≤ 64 ∧ base * 128 + cap * 128 ≤ 262144 then
        s.modCore c (fun k => { k with spillBase := BitVec.ofNat 11 base, spillCap := BitVec.ofNat 7 cap, spillHead := 0 })
      else s
  s.raiseTime c tau

/-- Whether a placed core needs its scratchpad scrubbed: its last thread belonged to another context (R336). -/
def Core.needsScrub (k : Core) (ctx : Nat) : Bool := k.tenant && k.ctxLast != ctx

/-- Whether a cluster's weight store was last written by another context (R336). -/
def Cluster.stale (k : Cluster) (ctx : Nat) : Bool := k.weightCtx.any (fun c => c != ctx)

/-- The cores and clusters of a placement that need a scrub are scrubbed, all at once: the cycles that it takes (R329, R336; log 52). -/
def State.scrubPlacement (s : State) (cores : List CoreKey) (clus : List ClusterKey) (ctx : Nat) : Nat × State :=
  let n := max (if cores.any (fun c => (s.core c).needsScrub ctx) then 4096 else 0) (if clus.any (fun k => (s.clu k).stale ctx) then 2731 else 0)
  let s := cores.foldl (fun s c => if (s.core c).needsScrub ctx then s.modCore c Core.scrubSpad else s) s
  (n, clus.foldl (fun s k => s.modClu k (fun x => if x.stale ctx then { x with weights := [], weightPoison := [], weightCtx := none } else x)) s)

/-- One sector that the weight-load list moves: into the weight store, poison included. -/
def State.wslSector (s : State) (clu : ClusterKey) (ctx : Nat) (pa : PhysAddr) (off : Nat) : State :=
  s.modClu clu (fun k => { k with
    weights := Memory.setN k.weights off (Memory.getN s.mem pa 64), weightCtx := some ctx
    weightPoison := match (s.sector pa).poison with
      | some src => (List.range 8).foldl (fun l i => setKey l (off / 8 + i) src) (clearPoison k.weightPoison off 64)
      | none => clearPoison k.weightPoison off 64 })

/-- The sectors of an entry's source in order, or the cause of the first that cannot be read (R198, R418). -/
def State.wslSource (s : State) (p : PkgKey) (ctx : Nat) (va : Word) (n : Nat) : Nat ⊕ List PhysAddr :=
  (List.range (n / 64)).foldr (fun i rest =>
    let a := va + BitVec.ofNat 64 (64 * i)
    match s.unitXlat p ctx 0 a (fun e => e.r), rest with
    | .entry e, .inr l => .inr (e.phys a.toNat :: l)
    | .entry _, .inl c => .inl c
    | .fail 1, _ => .inl 0x081
    | _, _ => .inl 0x082) (.inr [])

/-- One entry of the list on one cluster (R198, R199, R319): how many cycles it has taken, a failing cause, the state. -/
def State.wslEntry (s : State) (clu : ClusterKey) (ctx : Nat) (e : Word × Word × Word) (start : Nat) : Nat × Option Nat × State :=
  let n := wordBits e.2.2 31 0
  let off := e.2.1.toNat
  if 2 ^ 24 < off + n then (start, some 0x0A2, s)
  else match s.wslSource (pkgOfClu clu) ctx e.1 n with
    | .inl c => (start, some c, s)
    | .inr pas =>
      if e.2.2.getLsbD 32 ∧ (sparseFault (pas.flatMap (fun pa => Memory.getN s.mem pa 64))).isSome then (start, some 0x0A5, s)
      else
        let (t, s) := (numbered pas).foldl (fun (t, s) (i, pa) =>
          (t + refreshWait (s.cyc (pkgOfClu clu) + t) (off + 64 * i) + 1, s.wslSector clu ctx pa (off + 64 * i))) (start, s)
        (t, none, s)

/-- The list of a record on one cluster. -/
def State.wslCluster (s : State) (clu : ClusterKey) (ctx : Nat) (es : List (Word × Word × Word)) (start : Nat) : Nat × Option Nat × State :=
  es.foldl (fun (t, bad, s) e => match bad with
    | some _ => (t, bad, s)
    | none => s.wslEntry clu ctx e t) (start, none, s)

/-- A sector of a list's sources is locked against a read at τ: the list waits (R279). -/
def State.wslHeld (s : State) (p : PkgKey) (ctx tau : Nat) (es : List (Word × Word × Word)) : Bool :=
  es.any (fun e => (List.range (wordBits e.2.2 31 0 / 64)).any (fun i =>
    (s.leafOf p ctx (e.1 + BitVec.ofNat 64 (64 * i))).any (fun x => s.unitLocked tau (x.phys (e.1 + BitVec.ofNat 64 (64 * i)).toNat))))

/-- The cores of a mirrored placement's pairs, or of any other placement. -/
def Launch.allCores (l : Launch) : List CoreKey := l.cores ++ (if recMirr l.record then l.cores.map (· + 1) else [])

/-- Steps 3 and 4 of R329 on one die's part: the cycles they take, a failing cause, the state. -/
def State.prepareDie (s : State) (l : Launch) (d : DieKey) (tau : Nat) : Nat × Option Nat × State :=
  let (t, bad, s) := (l.clusters.filter (fun k => dieOfClu k = d)).foldl (fun (t, bad, s) k =>
    let (t', b, s) := s.wslCluster k l.ctx l.wsl 0
    (max t t', bad.or b, s)) (0, none, s)
  (t, bad, (l.allCores.filter (fun c => dieOf c = d)).foldl (fun s c => s.prepareCore c tau l.record) s)

/-- Steps 2 to 6 of R329, once the scrubs are over: τ is fixed and its snapshot registered, the lists run, and each die's threads start 40 cycles after its own work (log 52). -/
def State.fixStart (s : State) (launch : Nat) : State :=
  match s.launch? launch with
  | none => s
  | some l =>
    let d := l.die
    let tau := max 1 (max (s.die d).time l.base)
    let dies := (l.slots.map (fun e => dieOf e.1)).eraseDups
    if dies.any (fun x => s.wslHeld (x / 4) l.ctx tau l.wsl) then s.modLaunch launch (fun l => { l with scrubs := s.cycle + 1 })
    else
      let s := s.raiseDie d tau
      let s := s.modLaunch launch (fun l => { l with tau := tau, snap := if recSnap l.record then tau else 0 })
      let s := s.pkgs.foldl (fun (s : State) (e : Nat × Package) => s.modPkg e.1 (fun k => { k with registry := k.registry.map (fun (x : RegEntry) =>
        if x.owner = .launch launch then { x with time := tau } else x) })) s
      dies.foldl (fun s x =>
        let (n, bad, s) := s.prepareDie l x tau
        match bad with
        | some cause => s.postAt (s.cycle + n) (2 ^ 52) (.abort launch cause)
        | none => s.sendAt 1 (24 * d) (24 * x) (s.cycle + n + 40) 0 (.launchStart launch x)) s

/-- The launches of a die whose scrubs are over get their start time (R329). -/
def State.fixStarts (s : State) (d : DieKey) : State :=
  (s.launches.filter (fun l => l.die = d && l.tau = 0 && l.scrubs ≤ s.cycle && l.aborted.isNone)).foldl (fun s l => s.fixStart l.num) s

/-- A rook of a cluster, other than one that a graph takes, holds or loads a function of a context. -/
def State.otherHolder (s : State) (ctx : Nat) (rook : RookKey) (fid : Nat) : Option RookKey :=
  ((List.range 4).map (fun i => rook / 4 * 4 + i)).find? (fun k => k != rook
    && ((s.rook k).cfg.any (fun c => c.ctx = ctx && c.fid = fid) || (s.rook k).load.any (fun l => l.cfg.ctx = ctx && l.cfg.fid = fid)))

/-- The rooks of a graph take their images and their joins; a load in progress in one of them is interrupted, and a rook that holds the same function gives it up (R301, R306, R320). -/
def State.loadGraph (s : State) (launch ctx : Nat) (es : List (List Word)) : State :=
  let rooks := graphRooks (s.pod0 (launch / 2 ^ 32)) es
  let s := rooks.foldl (fun s r => s.modRook r (fun x => { x with
    reserved := some launch, phaseEnded := false, running := false, begun := false, exhausted := false, next := none, phaseTime := 0 })) s
  let s := rooks.foldl State.abandonLoad s
  let s := (numbered es).foldl (fun s (i, e) =>
    match s.otherHolder ctx (rooks.getD i 0) (wordBits (e.getD 0 0) 9 0) with
    | some o => (s.abandonLoad o).modRook o (fun x => { Rook.init with used := x.used, reserved := x.reserved, load := x.load, links := x.links })
    | none => s) s
  let s := (numbered es).foldl (fun s (i, e) =>
    (List.range 7).foldl (fun s c => match graphJoin e (c + 1) with
      | none => s
      | some (t, k) =>
        let a := rooks.getD i 0
        let b := rooks.getD t 0
        let s := s.modRook a (fun x => { x with links := x.links.setIfInBounds c { (x.link (c + 1)) with peer := some (b, k) } })
        s.modRook b (fun x => { x with links := x.links.setIfInBounds (k - 1) { (x.link k) with peer := some (a, c + 1) } })) s) s
  (numbered es).foldl (fun s (i, e) =>
    let rook := rooks.getD i 0
    let fid := wordBits (e.getD 0 0) 9 0
    match (s.clu (rook / 4)).cached ctx fid, s.findImage (rook / 4) ctx fid with
    | some img, _ => s.beginLoad rook { ctx := ctx, fid := fid, img := img } 0 [] false
    | none, .image img lat => s.beginLoad rook { ctx := ctx, fid := fid, img := img } lat [] false
    | none, _ => s) s

/-- The launch number that a dependence of a record at the head of a queue names, if any (R318). -/
def State.depKey (s : State) (d : DieKey) (q : Option Nat) (x : Word) : Option Nat :=
  if x.getLsbD 63 then
    q.bind (fun q =>
      let k := (s.die d).queue q
      (k.given.find? (fun e => e.1 = k.head - BitVec.ofNat 32 (wordBits x 15 0))).map Prod.snd)
  else some (d / 4 * 2 ^ 32 + wordBits x 31 0)

/-- The phase time of a launch of a package that has completed; 0 for none (R329, R335). -/
def State.phaseOf (s : State) (p : PkgKey) (key : Nat) : Nat :=
  maxOf ((List.range 4).map (fun i => (getKey (s.die (4 * p + i)).phases key).getD 0))

/-- What the start time reaches besides the unit's own time: the phase times of the dependences, the sender's time, the times answered (R329, R335, R367). -/
def State.startBase (s : State) (d : DieKey) (src : RecSource) (r : List Word) (times : List Nat) : Nat :=
  let q := match src with
    | .queue q => some q
    | _ => none
  let deps := (recDeps r).map (fun x => ((s.depKey d q x).map (s.phaseOf (d / 4))).getD 0)
  max (maxOf deps) (max (maxOf times) (match src with
    | .device => ((s.die d).devq.head?.map DevRecord.time).getD 0
    | _ => 0))

/-- The selected record is admitted with its placement on every die: its number, its slots and rooks, its registry entries, its window, its scrubs (R326, R329, R330, R336, R367). -/
def State.admitRecord (s : State) (d : DieKey) (x : Selected) (slots : List (CoreKey × Nat)) (round : Option Round) : State :=
  let r := x.record
  let ctx := recCtx r
  let dev := if x.src = .device then (s.die d).devq.head? else none
  let base := s.startBase d x.src r ((round.map Round.times).getD [])
  let (key, s) := match dev with
    | some e => (e.launch, s)
    | none => s.takeNumber d
  let s := if recSnap r then s.modPkg (d / 4) (fun k => { k with registry := k.registry ++ [{ time := (s.die d).time, owner := .launch key }] }) else s
  let s := match round with
    | some o => s.pkgs.foldl (fun (s : State) (e : Nat × Package) => s.modPkg e.1 (fun k => { k with registry := k.registry.map (fun (e : RegEntry) =>
        if e.owner = heldOwner o.num then { e with owner := .launch key } else e) })) s
    | none => s
  let queue := match x.src with
    | .queue q => some (d, q)
    | _ => dev.bind DevRecord.queue
  let s := match x.src with
    | .queue q => s.advanceHead d q key
    | _ => s.modDie d (fun k => { k with devq := k.devq.drop 1 })
  let s := s.modDie d (fun k => { k with selected := none, round := none })
  let s := match round with
    | some o => s.dies.foldl (fun (s : State) (e : Nat × Die) => s.modDie e.1 (fun k => { k with parts := k.parts.filter (fun (p : Part) => p.round != o.num) })) s
    | none => s
  let s := s.reserveSlots key ctx (heldSlots (recMirr r) slots)
  let clus := (slots.map (fun e => cluOf e.1)).eraseDups
  let rooks := graphRooks (s.pod0 (d / 4)) x.graph
  let l : Launch :=
    { num := key, die := d, ctx := ctx, record := r, recordAddr := x.addr, queue := queue, host := dev.isNone
      clusters := clus, cores := (slots.map Prod.fst).eraseDups, slots := slots, tpc := recTpc r, scrubs := 0, base := base, tau := 0, snap := 0, phase := 0
      alive := slots.length, retired := [], rooks := rooks, rooksDone := [], graph := rooks, acks := [], wsl := x.wsl, aborted := none
      notify := if recNtfy r then dev.map DevRecord.from_ else none }
  let (n, s) := s.scrubPlacement l.allCores clus ctx
  let s := { s with launches := s.launches ++ [{ l with scrubs := s.cycle + n }] }
  let s := if recWindow r then clus.foldl (fun s k => s.modClu k (fun x => { x with window := some key })) s else s
  let s := s.loadGraph key ctx x.graph
  if n = 0 then s.fixStart key else s.wakeUnit d (s.cycle + n)

/-- The conditions of R326 besides the placement: the rooks can be taken, no other rook in use holds one of their functions (R301), and the registry has an entry. -/
def State.admissible (s : State) (d : DieKey) (x : Selected) : Bool :=
  x.graph.all (fun e =>
      let rook := graphRook (s.pod0 (d / 4)) (e.getD 0 0)
      (s.rook rook).takeable && (s.otherHolder (recCtx x.record) rook (wordBits (e.getD 0 0) 9 0)).all (fun o => (s.rook o).takeable))
    && (!recSnap x.record || (s.pkg (d / 4)).registry.length < 4096)

/-- The receiving die's own part, when all other conditions of R326 hold too. -/
def State.ownPart (s : State) (d : DieKey) (x : Selected) : Option (List (CoreKey × Nat)) :=
  if s.admissible d x then s.placeDie d x.record else none

/-- The record that holds a die is admitted when all holds. A launch of several dies runs its rounds: requests go out with its selection, and once all are ready the own part decides; when that is not ready, the round is given up as for any other die (R326, R417; log 151). -/
def State.tryAdmit (s : State) (d : DieKey) (x : Selected) : State :=
  let dies := launchDies d x.record
  if dies.length = 1 then (s.ownPart d x).elim s (fun own => s.admitRecord d x own none)
  else match (s.die d).round with
    | none => s.startRound d x.record
    | some o =>
      if !o.waiting.isEmpty then s
      else if o.notReady = [d] then (if (s.ownPart d x).isSome then s.startRound d x.record else s)
      else if !o.notReady.isEmpty || !o.full.isEmpty then s
      else match s.ownPart d x with
        | none => s.holdRound d o [d] []
        | some own =>
          let part (y : DieKey) : List (CoreKey × Nat) :=
            if y = d then own else (((s.die y).parts.find? (fun p => p.round = o.num)).map Part.slots).getD []
          s.admitRecord d x (dies.flatMap part) (some o)

/-- The launch unit of a die gives launches their start times, selects, checks and admits; it looks again in the next cycle while it has something to do (R325, R326, R329). -/
def execLaunchAdmission (die : DieKey) (s : State) : Result :=
  let s := (s.fixStarts die).select die
  let s := match (s.die die).selected with
    | none => s
    | some x => match x.src with
      | .request m => (s.modDie die (fun k => { k with selected := none })).post s.now (2 ^ 50) (.placementRequest m)
      | _ => s.tryAdmit die x
  let k := s.die die
  let more : Bool := k.selected.isSome || !k.devq.isEmpty || !k.requests.isEmpty || (List.range 16).any (fun q => (k.queue q).head != (k.queue q).tail)
    || s.launches.any (fun l => l.die = die && l.tau = 0 && l.scrubs ≤ s.cycle + 1 && l.aborted.isNone)
  .next (if more then s.wakeUnit die (s.cycle + 1) else s)

/-! ### The start of threads (R329) -/

/-- A thread of a launch starts in a slot; a pre-emption of its context that is in progress interrupts it (R17, R329, R350). -/
def State.startThread (s : State) (l : Launch) (c : CoreKey) (i idx : Nat) : State :=
  let (tv, sv, sd) := s.launchVectors { Slot.init with launch := l.num }
  let args := (List.range 8).map (fun j => recDw l.record (4 + j))
  let s := s.modCore c (fun k => k.takeCtx l.ctx)
  let s := s.modPair c i (fun old => { Slot.init with
    occ := .thread, gen := (old.gen + 1) % 65536, idx := idx, launch := l.num, ctx := l.ctx, place := some c, pc := recEntry l.record
    regs := Regs.ofContext args [], st := { Status.init with mir := recMirr l.record }
    tvec := tv, svec := sv, sdeleg := sd, snap := l.snap, readyAt := s.cycle })
  if s.saving c l.ctx then s.raiseInt (s.refOf c i) 0x1E2 (BitVec.ofNat 64 l.ctx) else s

/-- LBASE and LCAP of a mirrored pair at launch: a log of 1,023 entries below 256 KiB (DESIGN CHOICE, log 49). -/
def mirrLaunch : BitVec 6 × BitVec 10 := (60, 1023)

/-- Slots of a core. -/
def Core.slotList (k : Core) : List Slot := k.slots.toList

/-- A core follows another as its shadow; what the two hold now is their first checkpoint (R394, R397). -/
def State.joinPair (s : State) (c : CoreKey) : State :=
  let sh := c + 1
  let s := s.modCore sh (fun k => { k with shadowOf := some c })
  s.modCore c (fun k => { k with
    mirror := some { shadow := sh, ckSlots := k.slotList, ckShadow := (s.core sh).slotList, ckAcc := k.acc.toList, ckAccShadow := (s.core sh).acc.toList
                     store := [], logCount := 0, logShadow := 0, mismatched := false, waits := false, ckRings := k.rings, busy := [] } })

/-- A mirrored pair begins: the slots that it kept and does not use are free; its shadow follows it, each slot with its own generation, one higher where a thread has been assigned (R246, R394). -/
def State.startPair (s : State) (launch ctx : Nat) (c : CoreKey) : State :=
  let s := s.modCore c (fun k => { k with
    slots := k.slots.map (fun sl => if sl.occ = .reserved && sl.launch = launch then { Slot.init with gen := sl.gen } else sl)
    mirrLbase := mirrLaunch.1, mirrLcap := mirrLaunch.2, mirrCkn := 0, mirrRoll := 0 })
  let follow (sl : Slot) (old : Slot) : Slot := { sl with gen := if sl.occ = .thread then (old.gen + 1) % 65536 else old.gen }
  (s.modCore (c + 1) (fun k => { k.takeCtx ctx with slots := Vector.ofFn (fun i => follow ((s.core c).slots[i]) (k.slots[i])) })).joinPair c

/-- Every thread of a launch on a die becomes ready in one cycle (R329); an aborted launch starts none (R330). -/
def execLaunchStart (launch : Nat) (die : DieKey) (s : State) : Result :=
  match s.launch? launch with
  | none => .next s
  | some l =>
    let mine := (numbered l.slots).filter (fun e => dieOf e.2.1 = die)
    if l.aborted.isSome then .next s
    else
      let s := mine.foldl (fun s (idx, c, i) => s.startThread l c i idx) s
      let cores := (mine.map (fun e => e.2.1)).eraseDups
      let s := if recMirr l.record then cores.foldl (fun s c => s.startPair launch l.ctx c) s else s
      .next (if recWin l.record then s
        else (cores.map cluOf).eraseDups.foldl (fun s k => s.modClu k (fun x => { x with window := if x.window = some launch then none else x.window })) s)

/-! ### Completion and reports (R331–R333) -/

/-- The mirrored pairs of a launch end; slots of a shadow that are still being scrubbed are free when those of its primary are (R246). -/
def State.endPairs (s : State) (l : Launch) : State :=
  if recMirr l.record then
    l.cores.foldl (fun s c =>
      let ends (s : State) (i : Nat) : State :=
        match s.agenda.find? (fun p => p.ev = .slotScrub (s.refOf c i)) with
        | some p => s.post p.due p.rank (.slotScrub (s.refOf (c + 1) i))
        | none => s
      ((List.range 16).foldl ends ((s.modCore c (fun k => { k with mirror := none })).modCore (c + 1) (fun k => { k with shadowOf := none })))) s
  else s

/-- A store of one of a launch's rooks is not yet acknowledged (R331). -/
def State.rookStores (s : State) (l : Launch) : Bool :=
  l.rooks.any (fun r => (s.rook r).reserved = some l.num && (List.range 4).any (fun p => ((s.rook r).port p).busy.any PortAccess.store))

/-- The phase time of a launch: the largest wts acknowledged to its threads and rooks, or τ (R331). -/
def State.phaseTimeOf (s : State) (l : Launch) : Nat :=
  let n := max l.phase (maxOf ((l.rooks.filter (fun r => (s.rook r).reserved = some l.num)).map (fun r => (s.rook r).phaseTime)))
  if n = 0 then l.tau else n

/-- A launch is over once every thread has retired, every rook's phase has ended and every store of its rooks is acknowledged: its phase time, its snapshot, its windows, its rooks, its barriers, its report (R331–R333). Frozen rooks stay a region until system software releases them (R309). -/
def execLaunchCompletion (launch : Nat) (s : State) : Result :=
  match s.launch? launch with
  | none => .next s
  | some l =>
    if l.alive ≠ 0 ∨ (l.aborted.isNone ∧ !l.rooks.all (fun r => l.rooksDone.contains r)) ∨ s.rookStores l then .next s
    else
      let phase := s.phaseTimeOf l
      let s := (s.raiseDie l.die phase).modDie l.die (fun k => { k with phases := setKey k.phases launch phase })
      let s := s.pkgs.foldl (fun s (p, _) => s.releaseEntries p (fun e => e.owner = .launch launch)) s
      let s := l.clusters.foldl (fun s k => s.modClu k (fun x => { x with window := if x.window = some launch then none else x.window })) s
      let s := l.rooks.foldl (fun s r =>
        (s.modRook r (fun x => if x.reserved = some launch && !x.frozen then { x with reserved := none, running := false } else x)).rookFreed (r / 4)) s
      let s := s.endPairs l
      let s := l.cores.foldl (fun s c => s.modCore c (fun k => { k with tile := { k.tile with joins := delKey k.tile.joins launch } })) s
      let s := { s with launches := s.launches.filter (fun x => x.num != launch), barriers := s.barriers.filter (fun b => b.bar.launch != launch) }
      let state := if l.aborted.isSome then 2 else 1
      let s := s.report l.die
        { queue := if l.host then l.queue.map Prod.snd else none
          entry := [reportWord launch state (l.aborted.getD 0), BitVec.ofNat 64 phase, l.recordAddr, 0]
          done := recDone l.record, doneTime := phase, ctx := l.ctx }
      let s := match l.notify with
        | some t => s.raiseInt t 0x1E0 16
        | none => s
      .next s.wakeUnits

/-- A completion entry is written into its ring (R323, R332). -/
def State.writeEntry (s : State) (d : DieKey) (q : Nat) (e : List Word) : State :=
  let k := (s.die d).queue q
  let pa := unitPa d k.cbase 32 + 32 * (k.ctail.toNat % 2 ^ min 12 k.clog.toNat)
  (s.unitWrite d pa (e.flatMap wordBytes)).modQueue d q (fun k => { k with ctail := k.ctail + 1 })

/-- DONE receives doubleword 0 with the phase time; a write that faults is dropped (R332, R418). -/
def State.writeDone (s : State) (d : DieKey) (r : Report) : State :=
  if r.done = 0 then s
  else match s.ctxWrite (.launchUnit d) (24 * d) r.ctx r.done (wordBytes (r.entry.getD 0 0)) r.doneTime [] with
    | some s => s
    | none => s.logWalk (24 * d) r.ctx r.done

/-- Reports are written in order, each once its ring has room: first the entry, then DONE; then runtime requests (R323, R332, R337). -/
def execCompletionReport (die : DieKey) (s : State) : Result :=
  let (held, s) := (s.die die).reports.foldl (fun (held, s) r =>
    match r.queue with
    | none => (held, s.writeDone die r)
    | some q =>
      if held.any (fun (x : Report) => x.queue = some q) || !((s.die die).queue q).hasRoom then (held ++ [r], s)
      else (held, (s.writeEntry die q r.entry).writeDone die r)) (([] : List Report), s)
  let s := s.modDie die (fun k => { k with reports := held })
  let (calls, s) := (s.die die).hcalls.foldl (fun (kept, s) (h : Option (DieKey × Nat) × Nat × List Word) =>
    match h.1 with
    | none => (kept, s)
    | some (d, q) =>
      if (s.die d).reports.any (fun r => r.queue = some q) || !((s.die d).queue q).hasRoom || kept.any (fun k => k.1 = h.1) then (kept ++ [h], s)
      else (kept, s.writeEntry d q (reportWord h.2.1 5 0 :: h.2.2))) (([] : List (Option (DieKey × Nat) × Nat × List Word)), s)
  .next ((s.modDie die (fun k => { k with hcalls := calls })).wakeUnit die (s.cycle + 1))

/-! ### Abort (R334) -/

/-- The contexts of a launch leave a core's arrival queue and spill area: how many, and the core without them. -/
def Core.dropContexts (k : Core) (launch : Nat) : List CtxMsg × Core :=
  let mine (m : CtxMsg) : Bool := m.launch = launch
  let kept := k.spilled.filter (fun m => !mine m)
  (k.arrivals.filter mine ++ k.spilled.filter mine,
   { k with arrivals := k.arrivals.filter (fun m => !mine m), spilled := kept, spillCnt := kept.length })

/-- The spill entries of a core stand in the ring from its head in order. -/
def State.packSpill (s : State) (c : CoreKey) : State :=
  (numbered (s.core c).spilled).foldl (fun s (i, m) => s.spadWrite c ((s.core c).spillAt ((s.core c).spillHead + i)) (s.spillBytes m)) s

/-- A thread of an aborted launch is directed to stop (R334): where an interrupt would be taken, it retires. -/
def State.stopThread (s : State) (c : CoreKey) (i : Nat) : State :=
  let t := s.refOf c i
  let s := (s.splitGang t).modSlot c i (fun sl => { sl with stopping := true })
  match (s.slot c i).block with
  | none => s
  | some b =>
    if b.interruptible || b.kind = .saved then (s.withdraw t b).beginExit c i
    else match b.kind with
      | .tagRemote _ => s.askCancel t b
      | _ => s

/-- A launch is aborted: its threads stop, its queued contexts are dropped, its slots whose threads have yet to start are free, its rooks freeze, loading ones too (R334). -/
def execAbort (launch : Nat) (cause : Nat) (s : State) : Result :=
  match s.launch? launch with
  | none => .next s
  | some l =>
    if l.aborted.isSome then .next s
    else
      let s := s.modLaunch launch (fun l => { l with aborted := some cause })
      let s := (s.cores.flatMap (fun (c, k) => ((List.range 16).filter (fun i =>
          (k.slot i).occ = .thread && (k.slot i).launch = launch && k.shadowOf.isNone)).map (fun i => (c, i)))).foldl (fun s (c, i) => s.stopThread c i) s
      let s := (s.cores.map Prod.fst).foldl (fun s c =>
        let (gone, k) := (s.core c).dropContexts launch
        if gone.isEmpty then s
        else
          let s := ((s.modCore c (fun _ => k)).drop c gone.length).packSpill c
          gone.foldl (fun s m => s.loseThread launch m.place m.idx) s) s
      let kept (e : CoreKey × Nat) : Bool := (s.slot e.1 e.2).occ = .reserved && (s.slot e.1 e.2).launch = launch
      let waiting := (l.slots.filter kept).length
      let s := s.freeSlotsOf ((heldSlots (recMirr l.record) l.slots).filter kept)
      let s := (List.range waiting).foldl (fun s _ => s.loseThread launch none 0) s
      let s := (l.rooks.filter (fun r => (s.rook r).reserved = some launch)).foldl State.freezeMember s
      .next (s.post s.now 0 (.launchCompletion launch))

/-! ### Interrupts of the host and runtime requests (R333, R337) -/

/-- A thread named by launch and IDX is interrupted; dropped when there is none (R333, R385). -/
def execInti (launch : Nat) (idx : Nat) (source : Nat) (s : State) : Result :=
  match s.cores.findSome? (fun (c, k) => ((List.range 16).find? (fun i =>
      (k.slot i).occ = .thread && (k.slot i).launch = launch && (k.slot i).idx = idx && k.shadowOf.isNone)).map (fun i => s.refOf c i)) with
  | some t => .next (s.raiseInt t 0x1E0 (BitVec.ofNat 64 source))
  | none => .next s

/-- A write to cr.hcall: the payload enters the buffer of 4, or the write is counted as dropped; a payload that cannot be read is dropped too (R337). -/
def execHcall (core : CoreKey) (slot : Nat) (addr : Word) (s : State) : Result :=
  let d := dieOf core
  let sl := s.slot core slot
  if 4 ≤ (s.die d).hcalls.length then .next (s.drop core 1)
  else match s.unitRead (d / 4) sl.ctx (s.die d).time (alignDouble addr) 24 with
    | .wait => .next (s.postAt (s.cycle + 1) 0 (.hcall core slot addr))
    | .fail _ _ => .next (s.drop core 1)
    | .ok bs =>
      let q := (s.launch? sl.launch).bind Launch.queue
      .next ((s.modDie d (fun k => { k with hcalls := k.hcalls ++ [(q, sl.launch, bytesWords bs)] })).post s.now 0 (.completionReport d))

end Sys2Proof.Machine
end

