-- ==== Sys2Proof/Machine/Preempt.lean ====
section
/-! DEFINITION. Pre-emption of a context in a package and its resumption: the save set and what is asked of it (R350), cr.psave (R351), what drains and what is saved (R352), the records of cores, rooks and weight stores (R353–R355), the header (R356), the times (R357), and the way back (R358). -/

namespace Sys2Proof.Machine

open Sys2Proof

/-! ### The save area (R353–R356) -/

/-- Bytes cut or filled with zeros to a length. -/
def fitBytes (n : Nat) (bs : List Byte) : List Byte := (bs ++ List.replicate (n - bs.length) 0).take n

/-- Doublewords as bytes. -/
def dwBytes (l : List Nat) : List Byte := l.flatMap (natBytes 8)

/-- The offset of a cluster's record in the save area (R353). -/
def clusterAt (k : ClusterKey) : Nat := 0x1000 + k % 96 * 0x15B8000
/-- The offset of a rook's record (R354). -/
def rookAt (r : RookKey) : Nat := clusterAt (r / 4) + 0x1000000 + r % 4 * 0x6000
/-- The offset of a core's record (R354). -/
def coreAt (c : CoreKey) : Nat := clusterAt (cluOf c) + 0x1018000 + c % 16 * 0x5A000

/-- An address of the save area. -/
def areaVa (psa : Word) (off : Nat) : Word := psa + BitVec.ofNat 64 off

/-- A cluster writes bytes to the save area, some of their words poisoned; a write that faults is dropped (DESIGN CHOICE, log 55). -/
def State.saveBytes (s : State) (k : ClusterKey) (ctx : Nat) (psa : Word) (off : Nat) (bs : List Byte) (ts : Nat) (poison : List (Nat × Nat)) : State :=
  (s.ctxWrite (.launchUnit (dieOfClu k)) k ctx (areaVa psa off) bs ts poison).getD s

/-- Bytes read from the save area; what cannot be read counts as 0 (DESIGN CHOICE, log 55). -/
def State.areaBytes (s : State) (p : PkgKey) (ctx : Nat) (psa : Word) (off n : Nat) : List Byte :=
  (sectorPieces (areaVa psa off) n).flatMap (fun (a, k) => match s.unitXlat p ctx 0 a (fun e => e.r) with
    | .entry e => Memory.getN s.mem (e.phys a.toNat) k
    | _ => List.replicate k 0)

/-- A doubleword of the save area. -/
def State.areaDw (s : State) (p : PkgKey) (ctx : Nat) (psa : Word) (off : Nat) : Nat := bytesNat (s.areaBytes p ctx psa off 8)

/-- The sector of an address of the save area. -/
def State.areaSector (s : State) (p : PkgKey) (ctx : Nat) (va : Word) : Option PhysAddr :=
  (s.leafOf p ctx va).map (fun e => sectorOf (e.phys va.toNat))

/-- Poison of the words that come back from n bytes of the save area. -/
def State.areaPoison (s : State) (p : PkgKey) (ctx : Nat) (psa : Word) (off n : Nat) : List (Nat × Nat) :=
  (List.range (n / 8)).filterMap (fun w => ((s.areaSector p ctx (areaVa psa (off + 8 * w))).bind (fun a => (s.sector a).poison)).map (fun src => (w, src)))

/-! ### Slot records (R354) -/

/-- The code of a tag (R10). -/
def Tag.code : Tag → Nat
  | .void => 0 | .full => 1 | .pending => 2 | .opened => 3

/-- The tag of a code. -/
def tagOf (n : Nat) : Tag := if n = 0 then .void else if n = 1 then .full else if n = 2 then .pending else .opened

/-- The tags of a slot as one number: g, then v, then m. -/
def Regs.tagBits (r : Regs) : Nat :=
  ((r.g.toList.map (fun x => Tag.code x.tag)) ++ (r.v.toList.map (fun x => Tag.code x.tag)) ++ (r.m.toList.map (fun x => Tag.code x.tag))).foldr (fun t a => t + 4 * a) 0

/-- A mark's doubleword (R354). -/
def markDw : Option Mark → Nat
  | none => 0
  | some m => m.cause.toNat + 2 ^ 9 + m.info.toNat * 2 ^ 32

/-- The mark of a doubleword. -/
def markOf (n : Nat) : Option Mark :=
  if n / 2 ^ 9 % 2 = 1 then some { cause := BitVec.ofNat 9 n, info := BitVec.ofNat 32 (n / 2 ^ 32) } else none

/-- A slot as it is saved: PC from cr.sepc, SUP and IE from cr.sstat; its transaction fails and loses its buffer (R351, R352). -/
def Slot.asSaved (sl : Slot) : Slot :=
  { sl with
    pc := alignWord sl.sepc, st := { sl.st with sup := sl.psup, ie := sl.pie }, block := none, openSince := none, parkLimit := none, hold := false
    tx := sl.tx.map (fun t => { t with sectors := [], failed := true, discards := true, votes := [], waiting := 0 }) }

/-- The stopped copy command of a thread. -/
def Core.stoppedCmd (k : Core) (t : ThreadRef) : Option CopyCmd := k.copy.cmds.find? (fun c => c.thread = t && c.stopped.isSome)

/-- The values that a command read from rd, rd + 1, rs1 and rs1 + 1; 0 for a register that its form does not read (R196, R354). -/
def CopyCmd.values (c : CopyCmd) : List Word :=
  match c.kind with
  | .cpy => [c.dst, 0, c.src, 0]
  | .cpy2 => [c.dst, c.dst2, c.src, c.src2]
  | .wsld => [c.dst, 0, c.src, 0]
  | _ => [c.dst, 0, c.src, c.src2]

/-- INDEX of a stopped command (R202). -/
def CopyCmd.index (c : CopyCmd) : Nat := (c.stopped.map (fun v => wordBits v.tinf 31 0)).getD 0

/-- Slot record of 2 KiB (R354). -/
def slotRecord (sl : Slot) (cmd : Option CopyCmd) : List Byte :=
  let r := sl.regs
  let regs := (List.finRange 32).flatMap (fun i => wordBytes (r.getG i).val) ++ (List.finRange 16).flatMap (fun i => vBytes 64 (r.getV i).val)
    ++ (List.finRange 8).flatMap (fun i => natBytes 2 (r.getM i).val.toNat)
  let marks := r.g.toList.map (fun x => markDw x.mark) ++ r.v.toList.map (fun x => markDw x.mark) ++ r.m.toList.map (fun x => markDw x.mark)
  let ctl := [(fcsrWord sl.fcsr).toNat, sl.wlim.toNat, sl.mlim.toNat, sl.mfmt.toNat, sl.ascl.toNat, sl.kval.toNat, sl.snap, sl.cause.toNat
    , sl.epc.toNat, sl.tval.toNat, sl.tinf.toNat, sl.tvec.toNat, sl.tsave.toNat, sl.svec.toNat, sl.sdeleg.toNat, sl.ssave.toNat]
  let mons := sl.monitors.toList.map (fun m => (m.map (fun x => x.va.toNat / 2 * 2 + 1)).getD 0)
  let tx := match sl.tx with
    | some t => [1, t.time, t.savedSnap]
    | none => [0, 0, 0]
  let copy := match cmd with
    | some c => [c.word.toNat + 2 ^ 63, c.gc.toNat] ++ c.values.map BitVec.toNat ++ [c.index]
    | none => List.replicate 7 0
  fitBytes 0x800 (fitBytes 0x510 regs ++ natBytes 16 r.tagBits ++ dwBytes marks
    ++ dwBytes [sl.pc.toNat, (statusWord sl.st).toNat, sl.gen * 2 ^ 24 + sl.idx + 2 ^ 63, 0] ++ dwBytes ctl ++ dwBytes mons ++ dwBytes tx ++ dwBytes copy)

/-- A number at an offset of a record. -/
def recNat (bs : List Byte) (off n : Nat) : Nat := bytesNat ((bs.drop off).take n)

/-- The registers of a slot record. -/
def recRegs (bs : List Byte) : Regs :=
  let tags := recNat bs 0x510 16
  let reg {w : Nat} (i off n : Nat) : Reg w :=
    { val := BitVec.ofNat w (recNat bs off n), tag := tagOf (tags / 4 ^ i % 4), mark := markOf (recNat bs (0x520 + 8 * i) 8) }
  { g := Vector.ofFn (fun i => reg i.val (8 * i.val) 8)
    v := Vector.ofFn (fun i => reg (32 + i.val) (0x100 + 64 * i.val) 64)
    m := Vector.ofFn (fun i => reg (48 + i.val) (0x500 + 2 * i.val) 2) }

/-- The slot of a record; what the record has no place for comes from what the core keeps (R358, log 53). Its monitors are armed again with their latches set (R352). -/
def slotOfRecord (old : Slot) (bs : List Byte) (cycle : Nat) : Slot :=
  let dw (off : Nat) : Word := BitVec.ofNat 64 (recNat bs off 8)
  let st := dw 0x6E8
  { old with
    occ := .thread, idx := recNat bs 0x6F0 3, pc := dw 0x6E0, byBranch := true, regs := recRegs bs
    st := { old.st with sup := st.getLsbD 0, ie := st.getLsbD 1, tx := st.getLsbD 6, mir := st.getLsbD 7, intrap := st.getLsbD 8 }
    fcsr := fcsrOf old.fcsr (dw 0x700), wlim := (dw 0x708).setWidth 32, mlim := (dw 0x710).setWidth 32, mfmt := (dw 0x718).setWidth 3
    ascl := (dw 0x720).setWidth 18, kval := (dw 0x728).setWidth 11, snap := (dw 0x730).toNat, cause := (dw 0x738).setWidth 9
    epc := dw 0x740, tval := dw 0x748, tinf := dw 0x750, tvec := dw 0x758, tsave := dw 0x760, svec := dw 0x768
    sdeleg := (dw 0x770).setWidth 12, ssave := dw 0x778
    monitors := Vector.ofFn (fun i => ((old.monitors[i.val]?).join.filter (fun _ => (dw (0x780 + 8 * i.val)).getLsbD 0)).map (fun m =>
      { m with latched := true, from_ := cycle }))
    tx := old.tx.filter (fun _ => (dw 0x7A0).getLsbD 0) |>.map (fun t => { t with time := (dw 0x7A8).toNat, savedSnap := (dw 0x7B0).toNat })
    readyAt := cycle, out := [], lastEnd := cycle - 1 }

/-! ### Core records (R354) -/

/-- The bytes of a bitmap of n bits. -/
def bitmapBytes (n : Nat) (f : Nat → Bool) : List Byte :=
  (List.range (n / 8)).map (fun i => BitVec.ofNat 8 ((List.range 8).foldl (fun a j => if f (8 * i + j) then a + 2 ^ j else a) 0))

/-- An accumulator's 16 KiB (R354). -/
def accBytes (a : List (BitVec 32)) : List Byte := fitBytes 16384 (a.flatMap (fun x => natBytes 4 x.toNat))

/-- The elements of an accumulator's bytes. -/
def accOfBytes (bs : List Byte) : List (BitVec 32) := (List.range (bs.length / 4)).map (fun i => BitVec.ofNat 32 (recNat bs (4 * i) 4))

/-- An arrival-queue entry; an unused one holds ones in bytes 127:120 (R354). -/
def State.queueBytes (s : State) (l : List CtxMsg) : List Byte :=
  (List.range 16).flatMap (fun i => match l[i]? with
    | some m => s.spillBytes m
    | none => natBytes 120 0 ++ List.replicate 8 0xFF)

/-- Mailbox headers in ring order, 31 for each ring (R354). -/
def State.headerBytes (s : State) (k : Core) : List Byte :=
  fitBytes 1984 ((List.range 8).flatMap (fun r => fitBytes 248 ((k.rings.filter (fun m => m.ring = r)).flatMap (fun m => wordBytes (s.messageHeader m)))))

/-- cr.mstat of the owner of each accumulator, 16 bits each (log 55). -/
def ownersMstat (k : Core) : Nat :=
  ((List.finRange 4).map (fun a => match k.accOwn[a] with
    | some o => (k.slot o.val).mstat.toNat * 2 ^ (16 * a.val)
    | none => 0)).sum

/-- The slots of a core that hold threads. -/
def Core.held (k : Core) : List Nat := (List.range 16).filter (fun i => (k.slot i).occ = .thread)

/-- Core record (R354). -/
def State.coreRecord (s : State) (k : Core) (c : CoreKey) : List Byte :=
  let slots := (List.range 16).flatMap (fun i =>
    if k.held.contains i then slotRecord (k.slot i).asSaved (k.stoppedCmd { core := c, slot := i, gen := (k.slot i).gen }) else List.replicate 0x800 0)
  fitBytes 0x5A000 (k.spadRead 0 262144 ++ bitmapBytes 32768 (fun w => k.full.contains w)
    ++ dwBytes [(mboxWord k).toNat, (spillWord k).toNat, (accownWord k).toNat, k.time, ownersMstat k, 1, 0, 0]
    ++ s.queueBytes k.arrivals ++ s.headerBytes k ++ k.acc.toList.flatMap accBytes ++ slots)

/-! ### The request (R350) -/

/-- The live launches of a context with a placement in a package. -/
def State.ctxLaunches (s : State) (p : PkgKey) (ctx : Nat) : List Launch :=
  s.launches.filter (fun l => l.ctx = ctx && (l.clusters.any (fun k => pkgOfClu k = p)))

/-- The clusters of a package that a launch holds: its placement, and the rooks of its graph (log 56). -/
def Launch.saveSet (l : Launch) (p : PkgKey) : List ClusterKey :=
  (l.clusters ++ l.rooks.map (· / 4)).filter (fun k => pkgOfClu k = p)

/-- Clusters in rising order, each once. -/
def risingKeys (l : List Nat) : List Nat := l.foldl (fun a k => (setKey (a.map (fun x => (x, ()))) k ()).map Prod.fst) []

/-- The second core of a pair that an admitted mirrored launch has yet to start (R394). -/
def State.shadowToBe (s : State) (c : CoreKey) : Bool := s.launches.any (fun l => recMirr l.record && (s.core c).hasReserved && l.cores.any (fun x => x + 1 = c))

/-- The cores of clusters that hold threads or contexts of a context number, or whose threads of it have yet to start; a shadow is saved with its primary. -/
def State.coresToSave (s : State) (clus : List ClusterKey) (ctx : Nat) : List CoreKey :=
  (clus.flatMap (fun k => (List.range 16).map (fun i => 16 * k + i))).filter (fun c =>
    (((s.core c).live && (s.core c).ctxLast = ctx) || (List.range 16).any (fun i => (s.slot c i).occ = .reserved && (s.slot c i).ctx = ctx))
      && (s.core c).shadowOf.isNone && !s.shadowToBe c)

/-- A stream rook that no SNAP can reach: it is not live, or has no source and no inbound link. -/
def Rook.noSnap (r : Rook) : Bool := !r.live || !(snapUnits r.img).any (fun u => (snapInputs r.img u).contains 7)

/-- PSTAT (R385): busy, or done, with a context. -/
def pstatWord (ctx : Nat) (busy : Bool) : Word := BitVec.ofNat 64 (ctx * 2 ^ 16 + (if busy then 1 else 2))

/-- The load in progress in a rook of a pre-empted launch is abandoned; the rook keeps what it was to load (R301). -/
def State.interruptLoad (s : State) (rook : RookKey) : State :=
  match (s.rook rook).load with
  | some l => (s.abandonLoad rook).modRook rook (fun r => { r with next := some l.cfg })
  | none => s

/-- A pre-empt request (R350): admissions to the save set stop, interrupt 0x1E2 reaches every thread of the context there, loads are interrupted, every stream graph is asked for a snapshot. A request while one is in progress does nothing (R385); one without a live launch is done at once (log 56). -/
def execPreempt (pkg : PkgKey) (ctx : Nat) (s : State) : Result :=
  if (s.pkg pkg).preempt.isSome then .next s
  else
    let retiring := (s.clusters.find? (fun (k, x) => x.retiring && pkgOfClu k = pkg)).map Prod.fst
    let ls := if retiring.isSome then s.launches.filter (fun l => l.ctx = ctx) else s.ctxLaunches pkg ctx
    let clus := risingKeys (ls.flatMap (fun l => l.saveSet pkg) ++ (retiring.toList))
    match ls.isEmpty, (s.pkg pkg).ctxs.find? (fun e => e.1 = ctx) with
    | true, _ => .next (s.modPkg pkg (fun k => { k with pstat := pstatWord ctx false }))
    | _, none => .next (s.modPkg pkg (fun k => { k with pstat := pstatWord ctx false }))
    | false, some (_, d) =>
      let rooks := (ls.flatMap Launch.rooks).filter (fun r => pkgOfClu (r / 4) = pkg && !(s.rook r).frozen && ((s.rook r).cfg.isSome || (s.rook r).load.isSome))
      let cores := s.coresToSave clus ctx
      let x : Preempt :=
        { ctx := ctx, resume := false, start := s.cycle, clusters := clus, launches := ls.map Launch.num, coresLeft := cores, rooksLeft := rooks
          weightsLeft := clus, jobs := [], lastWrite := s.cycle, maxTime := 0, psa := d.psa, retire := retiring, written := false }
      let s := rooks.foldl (fun s r => s.interruptLoad r) s
      let s := s.modPkg pkg (fun k => { k with preempt := some x, pstat := pstatWord ctx true })
      let others := (clus.flatMap (fun k => (List.range 16).map (fun i => 16 * k + i))).filter (fun c => !cores.contains c)
      let s := others.foldl (fun s c => s.saveBytes (cluOf c) ctx d.psa (coreAt c + 0x41028) (natBytes 8 0) (s.die (dieOf c)).time []) s
      let s := cores.foldl (fun s c => (List.range 16).foldl (fun s i =>
        if (s.slot c i).occ = .thread ∧ (s.slot c i).ctx = ctx then s.raiseInt (s.refOf c i) 0x1E2 (BitVec.ofNat 64 ctx) else s) s) s
      let s := rooks.foldl (fun s r => if (s.rook r).noSnap then s.postAt (s.cycle + 1) 0 (.rookRecordWrite r) else s.injectSnap r) s
      .next ((clus.filter (fun k => !cores.any (fun c => cluOf c = k))).foldl (fun s k => s.postAt (s.cycle + 1) 0 (.weightStoreSave k)) s)

/-- A write to cr.psave parks the thread for good, its reservation broken; without a pre-emption of its context it does nothing (R351, R352). -/
def execPsave (t : ThreadRef) (s : State) : Result :=
  let sl := s.slot t.core t.slot
  if !s.matches_ t ∨ sl.occ ≠ .thread ∨ !(s.pkg (pkgOf t.core)).preempt.any (fun x => !x.resume && x.ctx = sl.ctx) then .next s
  else
    let (id, s) := s.takeFresh
    let b : Block := { kind := .saved, id := id, since := s.cycle, cur := s.cur, first := s.cycle }
    let s := (s.breakReservation t).modPair t.core t.slot (fun sl => { sl with block := some b, openSince := none, parkLimit := none })
    .next (s.wantCheckpoint t.core)

/-! ### Saving (R352, R357) -/

/-- Every operation of a slot has ended but a copy command that stopped (R352). -/
def Core.slotDrained (k : Core) (i : Nat) : Bool :=
  (k.slot i).out.all (fun o => o.kind = .copyCommand && k.copy.cmds.any (fun c => c.id = o.id && c.stopped.isSome && c.blocks.isEmpty))

/-- A core's record may be written: every thread parked in cr.psave and drained, none retiring, being installed or yet to start, no tile command, no held store (R352). -/
def Core.maySave (k : Core) : Bool :=
  (List.range 16).all (fun i => (k.slot i).occ != .draining && (k.slot i).occ != .reserved && ((k.slot i).occ != .thread || ((k.slot i).isSaved && k.slotDrained i)))
    && k.installs.isEmpty && k.spillMove.isNone && k.tile.queue.isEmpty && k.tile.run.isNone && k.tile.drains.isEmpty
    && k.mirror.all (fun m => m.store.isEmpty)

/-- What a core keeps beside its record (log 53). -/
def Core.toKeep (k : Core) : Kept :=
  { slots := k.held.map (fun i => (i, (k.slot i).asSaved)), arrivals := k.arrivals, spilled := k.spilled, spillHead := k.spillHead, rings := k.rings, ringTail := k.ringTail
    cmds := k.copy.cmds, locks := k.locks, mirrored := k.mirror.isSome }

/-- A core after its record has been written: LIVE = 0, its slots free with their generations. -/
def Core.afterSave (k : Core) (ctx : Nat) : Core :=
  { k with
    kept := setKey k.kept ctx k.toKeep
    slots := k.slots.map (fun sl => if sl.occ = .thread then { Slot.init with gen := sl.gen } else sl)
    arrivals := [], spilled := [], spillCnt := 0, rings := [], ringTail := Vector.replicate 8 0, accOwn := Vector.replicate 4 none, acc := Vector.replicate 4 []
    copy := { k.copy with cmds := [] }, locks := [], mirror := none, shadowOf := none }

/-- A record that begins to be written in this cycle (R357). -/
def State.startJob (s : State) (p : PkgKey) (j : SaveJob) : State :=
  s.modPkg p (fun q => { q with preempt := q.preempt.map (fun x => { x with jobs := x.jobs ++ [j] }) })

/-- The record of one core begins to be written, and the core is emptied. -/
def State.saveCore (s : State) (c : CoreKey) (x : Preempt) : State :=
  let k := s.core c
  (s.startJob (pkgOf c) { clu := cluOf c, off := coreAt c, time := k.time, rate := 64, left := s.coreRecord k c, poison := k.spadPoison }).modCore c (fun k => k.afterSave x.ctx)

/-- The pre-emption of a package changes. -/
def State.modPreempt (s : State) (p : PkgKey) (f : Preempt → Preempt) : State := s.modPkg p (fun q => { q with preempt := q.preempt.map f })

/-- A core writes its record, with its shadow's, from the cycle after it may (R352, R357). -/
def execCoreRecordWrite (core : CoreKey) (s : State) : Result :=
  let p := pkgOf core
  match (s.pkg p).preempt with
  | none => .next s
  | some x =>
    if x.resume ∨ !x.coresLeft.contains core ∨ !(s.core core).maySave then .next s
    else
      let k := s.core core
      let s := match k.mirror with
        | some m => s.saveCore m.shadow x
        | none => s
      let s := s.saveCore core x
      let left := x.coresLeft.filter (· != core)
      let s := s.modPreempt p (fun x => { x with coresLeft := left, maxTime := max x.maxTime k.time })
      let s := s.slotFreed core
      .next (if left.any (fun c => cluOf c = cluOf core) then s else s.postAt (s.cycle + 5760) 0 (.weightStoreSave (cluOf core)))

/-- The place of a weight store in the save area holds zeros: sectors that do not are written so, at once (R354, log 55). -/
def State.zeroWeights (s : State) (k : ClusterKey) (x : Preempt) (ts : Nat) : State :=
  (List.range (2 ^ 18)).foldl (fun s i =>
    if (s.areaBytes (pkgOfClu k) x.ctx x.psa (clusterAt k + 64 * i) 64).all (· == 0) then s
    else s.saveBytes k x.ctx x.psa (clusterAt k + 64 * i) (List.replicate 64 0) ts []) s

/-- The weight store of a cluster is written when the context wrote it last, else its place is filled with zeros (R354, R357). -/
def execWeightStoreSave (cluster : ClusterKey) (s : State) : Result :=
  let p := pkgOfClu cluster
  match (s.pkg p).preempt with
  | none => .next s
  | some x =>
    if x.resume ∨ !x.weightsLeft.contains cluster then .next s
    else
      let k := s.clu cluster
      let mine : Bool := k.weightCtx = some x.ctx
      let ts := (s.die (dieOfClu cluster)).time
      let s := if mine then
          s.startJob p { clu := cluster, off := clusterAt cluster, time := ts, rate := 1024, left := Memory.getN k.weights 0 (2 ^ 24), poison := k.weightPoison }
        else s.zeroWeights cluster x ts
      let others := k.keptWeights.filter (· != x.ctx)
      .next ((s.modClu cluster (fun k => { k with keptWeights := if mine then x.ctx :: others else others })).modPreempt p
        (fun x => { x with weightsLeft := x.weightsLeft.filter (· != cluster) }))

/-- What is left of a record once its next bytes have been written. -/
def SaveJob.advance (j : SaveJob) : SaveJob :=
  { j with
    off := j.off + j.rate, left := j.left.drop j.rate
    poison := (j.poison.filter (fun e => j.rate ≤ 8 * e.1)).map (fun e => (e.1 - j.rate / 8, e.2)) }

/-- Every record that is being written goes on by what a cycle takes (R357). -/
def State.writeJobs (s : State) (p : PkgKey) (x : Preempt) : State :=
  if x.jobs.isEmpty then s
  else
    let s := x.jobs.foldl (fun s j => s.saveBytes j.clu x.ctx x.psa j.off (j.left.take j.rate) j.time j.poison) s
    s.modPreempt p (fun x => { x with jobs := (x.jobs.map SaveJob.advance).filter (fun j => !j.left.isEmpty), lastWrite := s.cycle })

/-! ### Rook records (R355) -/

/-- A token of a rook record: value, then kind, poison, side and valid (R355). -/
def tokenBytes (t : Token) : List Byte :=
  wordBytes t.val ++ natBytes 8 (t.kind + t.poison.toNat * 8 + t.side.toNat * 2 ^ 16 + 2 ^ 63)

/-- Up to n tokens of a queue. -/
def tokensBytes (n : Nat) (l : List Token) : List Byte := fitBytes (16 * n) (l.flatMap tokenBytes)

/-- Cell record of 256 bytes (R355; the order within it is the model's, log 55). -/
def cellRecord (c : CellState) : List Byte :=
  let ctl := (List.range 4).foldl (fun a d =>
    a + ((c.ctl d).length + (if (c.ctl d).getD 0 false then 4 else 0) + (if (c.ctl d).getD 1 false then 8 else 0)) * 16 ^ d) 0
  fitBytes 256 (natBytes 8 c.pc
    ++ c.l.toList.flatMap (fun x => tokenBytes { val := x.val, kind := 0, poison := x.poison, side := x.side, pkt := none })
    ++ natBytes 8 ctl ++ (List.range 4).flatMap (fun d => tokensBytes 2 (noSnap (c.queue d))))

/-- 63 words of 32 bits with their count (log 55). -/
def partialBlock (l : List Token) : List Byte := natBytes 4 l.length ++ fitBytes 252 (l.flatMap (fun t => natBytes 4 (t.val.toNat % 2 ^ 32)))

/-- The first poisoned token of a partial block, which all of the block takes after (R295, log 55). -/
def firstPoison (l : List Token) : List Byte := tokensBytes 1 (l.find? Token.poison).toList

/-- Edge unit record of 256 bytes: its counters, then its tokens (R355; the order within it is the model's, log 55). The partial block of the butterfly stands at 12, that of the converter at 13, their poison and the queue at 15. -/
def edgeRecord (r : Rook) (b : Nat) : List Byte :=
  let record (dws : List Nat) (toks : List Token) : List Byte := fitBytes 256 (fitBytes 32 (dwBytes dws) ++ tokensBytes 14 toks)
  if b < 4 then
    let p := r.port b
    record [p.i0, p.i1, p.i2, p.runs.length + p.exhausted.toNat * 2 ^ 32 + p.ended.toNat * 2 ^ 33] (noSnap p.inq)
  else if b < 6 then
    let c := r.chain (b - 4)
    record [c.i0, c.i1, c.i2, c.runs + c.exhausted.toNat * 2 ^ 32 + c.marks.length * 2 ^ 33] (c.marks.map (fun k => markerToken k none))
  else if b < 8 then
    let u := r.red (b - 6)
    let (side, addr) := u.poison.getD (0, 0)
    record [u.acc.isSome.toNat + u.poison.isSome.toNat * 2 + side.toNat * 2 ^ 16, (u.acc.getD 0).toNat, addr.toNat, 0] (noSnap u.inq)
  else if b < 12 then record [] (noSnap (r.sfuIn (b - 8)))
  else if b = 12 then partialBlock r.butterfly.block
  else if b = 13 then partialBlock r.butterfly.conv
  else if b = 14 then record [] r.resq
  else fitBytes 256 (firstPoison r.butterfly.block ++ firstPoison r.butterfly.conv ++ tokensBytes 14 (noSnap r.butterfly.inq))

/-- Rook record of 24 KiB (R355). -/
def rookRecord (r : Rook) : List Byte :=
  let fid := ((r.cfg.map RookCfg.fid).or (r.next.map RookCfg.fid)).getD 0
  fitBytes 0x6000 ((List.range 64).flatMap (fun c => cellRecord (r.cell c)) ++ (List.range 16).flatMap (edgeRecord r)
    ++ (List.range 7).flatMap (fun c => tokensBytes 8 (r.link (c + 1)).inbuf) ++ dwBytes [r.cfg.isSome.toNat + fid * 2 ^ 16])

/-- A token of a record, when it holds one. -/
def recToken (bs : List Byte) (off : Nat) : Option Token :=
  let w := recNat bs (off + 8) 8
  if w / 2 ^ 63 = 1 then
    some { val := BitVec.ofNat 64 (recNat bs off 8), kind := w % 8, poison := w / 8 % 2 = 1, side := BitVec.ofNat 16 (w / 2 ^ 16), pkt := none }
  else none

/-- The tokens of a queue as a record of up to n gives them; tokens beyond those come from what is kept (log 53). -/
def recQueue (bs : List Byte) (off n : Nat) (old : List Token) : List Token :=
  (List.range n).filterMap (fun i => recToken bs (off + 16 * i)) ++ (noSnap old).drop n

/-- A cell as its record gives it (R355, R358). -/
def CellState.ofRecord (c : CellState) (bs : List Byte) : CellState :=
  let ctl := recNat bs 72 8
  { c with
    pc := recNat bs 0 8
    l := Vector.ofFn (fun i => match recToken bs (8 + 16 * i.val) with
      | some t => { val := t.val, poison := t.poison, side := t.side }
      | none => { val := 0, poison := false, side := 0 })
    dq := Vector.ofFn (fun d => recQueue bs (80 + 32 * d.val) 2 (c.queue d.val))
    cq := Vector.ofFn (fun d => let x := ctl / 16 ^ d.val; [x / 4 % 2 == 1, x / 8 % 2 == 1].take (x % 4)) }

/-- The tokens of a partial block: words with their poison. -/
def recBlock (bs : List Byte) (off : Nat) (poison : Option Token) : List Token :=
  let l := (List.range (min 63 (recNat bs off 4))).map (fun i => dataToken (BitVec.ofNat 64 (recNat bs (off + 4 + 4 * i) 4)) none)
  match l, poison with
  | _ :: rest, some p => p :: rest
  | l, _ => l

/-- A rook as its record gives it; what the layout has no place for comes from what is kept (R355, R358, log 53). -/
def Rook.ofRecord (r : Rook) (bs : List Byte) : Rook :=
  let at_ (b : Nat) : Nat := 0x4000 + 256 * b
  let dw (b i : Nat) : Nat := recNat bs (at_ b + 8 * i) 8
  let queue (b : Nat) (old : List Token) : List Token := recQueue bs (at_ b + 32) 14 old
  { r with
    cells := Vector.ofFn (fun c => (r.cells[c]).ofRecord ((bs.drop (256 * c.val)).take 256))
    ports := Vector.ofFn (fun b => let p := r.ports[b]
      { p with
        i0 := dw b.val 0, i1 := dw b.val 1, i2 := dw b.val 2, runs := (p.runs ++ List.replicate (dw b.val 3 % 2 ^ 32) 0).take (dw b.val 3 % 2 ^ 32)
        exhausted := dw b.val 3 / 2 ^ 32 % 2 = 1, ended := dw b.val 3 / 2 ^ 33 % 2 = 1, inq := queue b.val p.inq })
    chains := Vector.ofFn (fun k => let w := dw (4 + k.val) 3
      { r.chains[k] with
        i0 := dw (4 + k.val) 0, i1 := dw (4 + k.val) 1, i2 := dw (4 + k.val) 2, runs := w % 2 ^ 32, exhausted := w / 2 ^ 32 % 2 = 1
        marks := (queue (4 + k.val) []).map Token.kind })
    reds := Vector.ofFn (fun k => let w := dw (6 + k.val) 0
      { r.reds[k] with
        acc := if w % 2 = 1 then some (BitVec.ofNat 64 (dw (6 + k.val) 1)) else none
        poison := if w / 2 % 2 = 1 then some (BitVec.ofNat 16 (w / 2 ^ 16), BitVec.ofNat 64 (dw (6 + k.val) 2)) else none
        inq := queue (6 + k.val) (r.reds[k]).inq })
    sfus := Vector.ofFn (fun k => { r.sfus[k] with inq := queue (8 + k.val) (r.sfus[k]).inq })
    butterfly := { r.butterfly with
      block := recBlock bs (at_ 12) (recToken bs (at_ 15)), conv := recBlock bs (at_ 13) (recToken bs (at_ 15 + 16)), inq := queue 15 r.butterfly.inq }
    resq := queue 14 r.resq
    links := Vector.ofFn (fun c => let l := r.links[c]; { l with inbuf := recQueue bs (0x5000 + 128 * c.val) 8 l.inbuf }) }

/-- A rook writes its record in the 384 cycles after its part of the snapshot (R311, R355, R357). -/
def execRookRecordWrite (rook : RookKey) (s : State) : Result :=
  let p := pkgOfClu (rook / 4)
  match (s.pkg p).preempt with
  | none => .next s
  | some x =>
    if x.resume ∨ !x.rooksLeft.contains rook then .next s
    else
      let s := s.startJob p { clu := rook / 4, off := rookAt rook, time := (s.die (dieOfClu (rook / 4))).time, rate := 64, left := rookRecord (s.rook rook), poison := [] }
      .next (s.modPreempt p (fun x => { x with rooksLeft := x.rooksLeft.filter (· != rook) }))

/-- La of R357: the acknowledgement latency from the save set's first cluster to the header's home. -/
def State.headerLatency (s : State) (p : PkgKey) (x : Preempt) : Nat :=
  let k := x.clusters.head?.getD 0
  match s.leafOf p x.ctx x.psa with
  | some e => s.accessLatency k e.home (e.phys x.psa.toNat)
  | none => s.homeLatency k k

/-- The header (R356). -/
def headerBytes4k (s : State) (p : PkgKey) (x : Preempt) (valid : Bool) : List Byte :=
  let ls := (x.launches.take 64).map (fun n => ((s.launch? n).map (fun l => [l.num % 2 ^ 32, l.recordAddr.toNat])).getD [n % 2 ^ 32, 0])
  let map := x.clusters.foldl (fun a k => a + 2 ^ (k % 96)) 0
  fitBytes 4096 (fitBytes 0x100 (dwBytes [x.ctx + p * 2 ^ 16 + (if valid then 2 ^ 63 else 0), x.start - (s.pkg p).release, max x.maxTime (s.die (4 * p)).time, x.launches.length]
    ++ natBytes 16 map) ++ ls.flatMap dwBytes)

/-- A saved stream rook is kept and left unconfigured (R301, log 53). -/
def State.releaseRook (s : State) (ctx : Nat) (rook : RookKey) : State :=
  let r := s.rook rook
  let clu := rook / 4
  let s := s.modClu clu (fun k => { k with keptRooks := setKey k.keptRooks (4 * ctx + rook % 4) r })
  (s.modRook rook (fun r => { Rook.init with used := r.used })).rookFreed clu

/-- The rooks of the saved launches in a package that hold, or are to load, an image. -/
def State.savedRooks (s : State) (p : PkgKey) (x : Preempt) : List RookKey :=
  ((s.launches.filter (fun l => x.launches.contains l.num)).flatMap Launch.rooks).filter (fun r =>
    pkgOfClu (r / 4) = p && !(s.rook r).frozen && ((s.rook r).cfg.isSome || (s.rook r).next.isSome))

/-- The header is written, VALID last; once it is acknowledged the pre-emption is reported and its clusters admit again (R356, R357). -/
def execSaveHeaderWrite (pkg : PkgKey) (s : State) : Result :=
  match (s.pkg pkg).preempt with
  | none => .next s
  | some x =>
    if x.resume then .next s
    else if !x.written then
      let k := x.clusters.head?.getD (96 * pkg)
      let s := s.saveBytes k x.ctx x.psa 0 (headerBytes4k s pkg x false) (s.die (4 * pkg)).time []
      let s := s.saveBytes k x.ctx x.psa 0 ((headerBytes4k s pkg x true).take 8) (s.die (4 * pkg)).time []
      let s := s.modPkg pkg (fun q => { q with preempt := some { x with written := true } })
      .next (s.postAt (s.cycle + s.headerLatency pkg x) 0 (.saveHeaderWrite pkg))
    else
      let s := (s.savedRooks pkg x).foldl (fun s r => s.releaseRook x.ctx r) s
      .next (s.modPkg pkg (fun q => { q with preempt := none, pstat := pstatWord x.ctx false })).wakeUnits

/-- The end of a cycle of a pre-emption: cores that may be saved begin in the next cycle; with every record written the header is due at W + La + 1 (R352, R357). -/
def State.judgeSave (s : State) (p : PkgKey) (x : Preempt) : State :=
  let s := x.coresLeft.foldl (fun s c => if (s.core c).maySave then s.postAt (s.cycle + 1) 0 (.coreRecordWrite c) else s) s
  if x.coresLeft.isEmpty && x.rooksLeft.isEmpty && x.weightsLeft.isEmpty && x.jobs.isEmpty && !x.written && !s.agenda.any (fun e => e.ev = .saveHeaderWrite p) then
    s.postAt (max (s.cycle + 1) (x.lastWrite + s.headerLatency p x + 1)) 0 (.saveHeaderWrite p)
  else s

/-! ### Resumption (R358) -/

/-- The clusters of a bitmap (R356). -/
def mapClusters (p : PkgKey) (map : Nat) : List ClusterKey := ((List.range 96).filter (fun n => map / 2 ^ n % 2 = 1)).map (fun n => 96 * p + n)

/-- The cores of a save set whose record is valid (R354). -/
def State.validCores (s : State) (p : PkgKey) (ctx : Nat) (psa : Word) (clus : List ClusterKey) : List CoreKey :=
  (clus.flatMap (fun k => (List.range 16).map (fun i => 16 * k + i))).filter (fun c => s.areaDw p ctx psa (coreAt c + 0x41028) % 2 = 1)

/-- A resume request: the descriptor and the header are read; without a valid header of this context nothing happens (R339, R358). -/
def execResume (pkg : PkgKey) (ctx : Nat) (s : State) : Result :=
  if (s.pkg pkg).preempt.isSome then .next s
  else match s.readDescriptor pkg ctx with
    | none => .next (s.modPkg pkg (fun k => { k with pstat := pstatWord ctx false }))
    | some d =>
      let s := s.modPkg pkg (fun k => { k with ctxs := setKey k.ctxs ctx d })
      let w := s.areaDw pkg ctx d.psa 0
      if w / 2 ^ 63 = 0 ∨ w % 2 ^ 16 ≠ ctx ∨ w / 2 ^ 16 % 512 ≠ pkg then .next (s.modPkg pkg (fun k => { k with pstat := pstatWord ctx false }))
      else
        let clus := mapClusters pkg (bytesNat (s.areaBytes pkg ctx d.psa 0x20 12))
        let x : Preempt :=
          { ctx := ctx, resume := true, start := s.cycle, clusters := clus, launches := (s.ctxLaunches pkg ctx).map Launch.num, coresLeft := [], rooksLeft := []
            weightsLeft := [], jobs := [], lastWrite := s.cycle, maxTime := s.areaDw pkg ctx d.psa 0x10, psa := d.psa, retire := none, written := false }
        .next (s.modPkg pkg (fun k => { k with preempt := some x, pstat := pstatWord ctx true }))

/-- A core can be restored: it holds no thread and no queued context of another context, and the saved slots are free (R358). -/
def Core.mayRestore (k : Core) (ctx : Nat) : Bool :=
  k.onlyCtx ctx && (((getKey k.kept ctx).map Kept.slots).getD []).all (fun e => (k.slot e.1).occ = .free)

/-- The rooks kept for a context in a cluster. -/
def Cluster.keptOf (k : Cluster) (ctx : Nat) : List (Nat × Rook) :=
  (List.range 4).filterMap (fun i => (getKey k.keptRooks (4 * ctx + i)).map (fun r => (i, r)))

/-- A rook of a save set can take back what is kept of it: the launch unit may take it, and no other rook of the cluster in use holds its function (R301, R358). -/
def State.rookFits (s : State) (ctx : Nat) (rook : RookKey) (old : Rook) : Bool :=
  let free (o : RookKey) : Bool := (s.rook o).takeable
  free rook && ((old.cfg.or old.next).bind (fun c => s.otherHolder ctx rook c.fid)).all free

/-- Whether a cluster's weight store comes back: it was saved, and another context has written it in the meantime (R358). -/
def Cluster.weightsBack (k : Cluster) (ctx : Nat) : Bool := k.keptWeights.contains ctx && k.weightCtx != some ctx

/-- A resumption that waits begins to read once no core of the save set holds a thread or queued context of another context, the saved slots are free and the rooks can be taken: slots and rooks are reserved, and the threads are ready 40 cycles after the last read (R357, R358). -/
def State.judgeResume (s : State) (p : PkgKey) (x : Preempt) : State :=
  if x.written then s
  else
    let cores := s.validCores p x.ctx x.psa x.clusters
    let all := x.clusters.flatMap (fun k => (List.range 16).map (fun i => 16 * k + i))
    let rooks := x.clusters.flatMap (fun k => ((s.clu k).keptOf x.ctx).map (fun e => (4 * k + e.1, e.2)))
    if !all.all (fun c => (s.core c).onlyCtx x.ctx) || !cores.all (fun c => (s.core c).mayRestore x.ctx) || !rooks.all (fun e => s.rookFits x.ctx e.1 e.2) then s
    else
      let s := cores.foldl (fun s c => (((getKey (s.core c).kept x.ctx).map Kept.slots).getD []).foldl (fun s e =>
        s.modSlot c e.1 (fun sl => { sl with occ := .reserved, ctx := x.ctx })) (s.modCore c (fun k => k.takeCtx x.ctx))) s
      let s := rooks.foldl (fun s e => (s.abandonLoad e.1).modRook e.1 (fun r => { Rook.init with used := r.used, reserved := e.2.reserved, links := e.2.links })) s
      let n := (if cores.isEmpty then 384 else 5760) + (if x.clusters.any (fun k => (s.clu k).weightsBack x.ctx) then 16384 else 0)
      (s.modPreempt p (fun x => { x with written := true })).postAt (s.cycle + n + 40) 0 (.resumedThreadStart p)

/-- A thread's references follow it to a new generation: its registry entries, its copy commands and their pending faults (R358). -/
def State.rename (s : State) (old new : ThreadRef) : State :=
  if old = new then s
  else
    let t (x : ThreadRef) : ThreadRef := if x = old then new else x
    let owner : RegOwner → RegOwner
      | .thread x => .thread (t x)
      | .txn x => .txn (t x)
      | .launch n => .launch n
    let s := { s with pkgs := s.pkgs.map (fun (x : Nat × Package) => (x.1, { x.2 with registry := x.2.registry.map (fun (e : RegEntry) => ({ e with owner := owner e.owner } : RegEntry)) })) }
    s.modCore old.core (fun k => { k with copy := { k.copy with
      cmds := k.copy.cmds.map (fun (c : CopyCmd) => ({ c with thread := t c.thread } : CopyCmd))
      faults := k.copy.faults.map (fun (e : ThreadRef × TrapVal) => (t e.1, e.2)) } })

/-- A saved slot takes its thread back: with its generation when it has not been assigned since, else with a new one (R246, R358). -/
def State.restoreSlot (s : State) (c : CoreKey) (i : Nat) (kept : Slot) (bs : List Byte) : State :=
  if recNat bs 0x6F0 8 / 2 ^ 63 = 0 then s.modSlot c i (fun sl => { sl with occ := .free })
  else
    let saved := recNat bs 0x6F3 2
    let now := (s.slot c i).gen
    let gen := if now = saved then saved else (now + 1) % 65536
    let sl := slotOfRecord kept bs s.cycle
    let aborted := (s.launch? kept.launch).any (fun l => l.aborted.isSome)
    let cmds := (s.core c).copy.cmds
    let out := (cmds.filter (fun m => m.thread = { core := c, slot := i, gen := saved })).map (fun m => { id := m.id, kind := .copyCommand, pa := 0, size := 0 : Outstanding })
    let s := s.modSlot c i (fun _ => { sl with gen := gen, stopping := aborted, out := out })
    s.rename { core := c, slot := i, gen := saved } { core := c, slot := i, gen := gen }

/-- A stopped command as its slot record gives it (R354). -/
def CopyCmd.ofRecord (c : CopyCmd) (bs : List Byte) : CopyCmd :=
  let dw (off : Nat) : Word := BitVec.ofNat 64 (recNat bs off 8)
  let c := { c with word := BitVec.ofNat 32 (recNat bs 0x7B8 4), gc := dw 0x7C0, dst := dw 0x7C8, src := dw 0x7D8, next := (dw 0x7E8).toNat }
  match c.kind with
  | .cpy2 => { c with dst2 := dw 0x7D0, src2 := dw 0x7E0 }
  | .gath => { c with src2 := dw 0x7E0 }
  | .scat => { c with src2 := dw 0x7E0 }
  | _ => c

/-- Mailbox headers as a record gives them: sender and length of each message, by ring (R141, R354, R358). -/
def State.recRings (s : State) (p : PkgKey) (kept : List RingMsg) (bs : List Byte) : List RingMsg :=
  (List.range 8).flatMap (fun r => (numbered (kept.filter (fun m => m.ring = r))).map (fun (i, m) =>
    let w := recNat bs (248 * r + 8 * i) 8
    if 31 ≤ i then m else { m with sender := s.refById p w, len := w % 512 }))

/-- A core takes its record back (R358). -/
def State.restoreCore (s : State) (c : CoreKey) (x : Preempt) : State :=
  let p := pkgOf c
  match getKey (s.core c).kept x.ctx with
  | none => s
  | some kept =>
    let bs := s.areaBytes p x.ctx x.psa (coreAt c) 0x5A000
    let poison := s.areaPoison p x.ctx x.psa (coreAt c) 262144
    let dw (i : Nat) : Word := BitVec.ofNat 64 (recNat bs (0x41000 + 8 * i) 8)
    let slotBs (i : Nat) : List Byte := (bs.drop (0x52000 + 0x800 * i)).take 0x800
    let own := dw 2
    let cmds := kept.cmds.map (fun (m : CopyCmd) => m.ofRecord (slotBs m.thread.slot))
    let s := s.modCore c (fun k => { k with
      spad := Memory.setN [] 0 (bs.take 262144), spadPoison := poison
      full := (List.range 32768).filter (fun w => (bs.getD (262144 + w / 8) 0).getLsbD (w % 8))
      mboxBase := (dw 0).setWidth 10, mboxDepth := BitVec.ofNat 3 (wordBits (dw 0) 12 10), mboxEn := (dw 0).getLsbD 16
      spillBase := BitVec.ofNat 11 (wordBits (dw 1) 17 7), spillCap := BitVec.ofNat 7 (wordBits (dw 1) 24 18)
      spillCnt := kept.spilled.length, spillHead := kept.spillHead, spilled := kept.spilled
      arrivals := (numbered kept.arrivals).map (fun (i, m) => contextOf m ((bs.drop (0x41040 + 128 * i)).take 128) [])
      rings := s.recRings (pkgOf c) kept.rings ((bs.drop 0x41840).take 1984), ringTail := kept.ringTail, acc := Vector.ofFn (fun a => accOfBytes ((bs.drop (0x42000 + 16384 * a.val)).take 16384))
      accOwn := Vector.ofFn (fun a => if own.getLsbD (8 * a.val + 7) then some ⟨wordBits own (8 * a.val + 3) (8 * a.val) % 16, Nat.mod_lt _ (by decide)⟩ else none)
      copy := { k.copy with cmds := k.copy.cmds ++ cmds }, locks := k.locks ++ kept.locks
      kept := delKey k.kept x.ctx })
    let s := kept.slots.foldl (fun s (i, sl) => s.restoreSlot c i sl (slotBs i)) s
    ((s.raiseTime c (dw 3).toNat).raiseTime c x.maxTime).postAt (s.cycle + 1) 1 (.contextInstallation c)

/-- A graph's rook loads its image again, as its record names it; with a configuration that was complete the record comes back when the load ends, and an interrupted load starts anew (R301, R306, R358). -/
def State.restoreRook (s : State) (rook : RookKey) (x : Preempt) (old : Rook) : State :=
  let clu := rook / 4
  let ctx := x.ctx
  let bs := s.areaBytes (pkgOfClu clu) ctx x.psa (rookAt rook) 0x6000
  let place := 4 * ctx + rook % 4
  match old.cfg.or old.next with
  | none => s.modClu clu (fun k => { k with keptRooks := delKey k.keptRooks place })
  | some c =>
    let whole := recNat bs 0x5380 8 % 2 = 1
    let fid := recNat bs 0x5382 2 % 1024
    let (img, lat) : List Word × Nat := match (s.clu clu).cached ctx fid, s.findImage clu ctx fid with
      | some img, _ => (img, 0)
      | none, .image img lat => (img, lat)
      | none, _ => (c.img, 0)
    let s := match s.otherHolder ctx rook fid with
      | some o => (s.abandonLoad o).modRook o (fun y => { Rook.init with used := y.used, reserved := y.reserved, load := y.load, links := y.links })
      | none => s
    let s := s.modClu clu (fun k => { k with keptRooks := if whole then setKey k.keptRooks place (old.ofRecord bs) else delKey k.keptRooks place })
    s.beginLoad rook { ctx := ctx, fid := fid, img := img } lat [] whole

/-- The weight store comes back when another context wrote it in the meantime (R358). -/
def State.restoreWeights (s : State) (k : ClusterKey) (x : Preempt) : State :=
  let p := pkgOfClu k
  let s := if (s.clu k).weightsBack x.ctx then s.modClu k (fun y => { y with
      weights := Memory.setN [] 0 (s.areaBytes p x.ctx x.psa (clusterAt k) (2 ^ 24)), weightPoison := s.areaPoison p x.ctx x.psa (clusterAt k) (2 ^ 24)
      weightCtx := some x.ctx })
    else s
  s.modClu k (fun y => { y with keptWeights := y.keptWeights.filter (· != x.ctx) })

/-- The rooks that come back await their loads before the sources of their graphs start (R306, R358). -/
def State.awaitRooks (s : State) (rooks : List (RookKey × Rook)) : State :=
  { s with launches := s.launches.map (fun l =>
      let mine := (rooks.filter (fun e => e.2.reserved = some l.num && (e.2.cfg.or e.2.next).isSome)).map Prod.fst
      if mine.isEmpty then l else { l with graph := mine, acks := [] }) }

/-- The primaries of mirrored pairs among the cores to restore. -/
def State.mirroredCores (s : State) (cores : List CoreKey) (ctx : Nat) : List CoreKey :=
  cores.filter (fun c => ((getKey (s.core c).kept ctx).map Kept.mirrored).getD false)

/-- Every record is restored and every restored thread is ready in this cycle (R358). -/
def execResumedThreadStart (pkg : PkgKey) (s : State) : Result :=
  match (s.pkg pkg).preempt with
  | none => .next s
  | some x =>
    if !x.resume then .next s
    else
      let cores := s.validCores pkg x.ctx x.psa x.clusters
      let pairs := s.mirroredCores cores x.ctx
      let s := x.clusters.foldl (fun s k => s.restoreWeights k x) s
      let s := cores.foldl (fun s c => s.restoreCore c x) s
      let s := pairs.foldl (fun s c => s.joinPair c) s
      let rooks := x.clusters.flatMap (fun k => ((s.clu k).keptOf x.ctx).map (fun e => (4 * k + e.1, e.2)))
      let s := rooks.foldl (fun s e => s.restoreRook e.1 x e.2) (s.awaitRooks rooks)
      .next (s.modPkg pkg (fun q => { q with preempt := none, pstat := pstatWord x.ctx false })).wakeUnits

/-- What pre-emptions and resumptions do at the end of a cycle. -/
def State.preemptEnd (s : State) : State :=
  s.pkgs.foldl (fun s (p, k) => match k.preempt with
    | none => s
    | some x =>
      if x.resume then s.judgeResume p x
      else
        let s := s.writeJobs p x
        match (s.pkg p).preempt with
        | some x => s.judgeSave p x
        | none => s) s

end Sys2Proof.Machine
end

