-- ==== Sys2Proof/Machine/Window.lean ====
section
/-! DEFINITION. The Birsyn host port: host writes and reads of a package's memory and registers, in the order of R384 (R323, R384, R385). -/

namespace Sys2Proof.Machine

open Sys2Proof

/-- Where a host offset leads (R385). -/
inductive HostReg where
  | queue (q : Nat) (field : Nat)
  | cdtb | pctl | pstat | intl | inti | abort | hwv
  | none
  deriving DecidableEq, Repr

/-- The register at an 8-byte offset of the register part; queue registers name their die by q / 16 (R385). -/
def hostReg (o : Nat) : HostReg :=
  if 0x1000 ≤ o ∧ o < 0x2000 then .queue ((o - 0x1000) / 0x40) (o % 0x40 / 8)
  else if o = 0x40000 then .cdtb
  else if o = 0x40008 then .pctl
  else if o = 0x40010 then .pstat
  else if o = 0x40018 then .intl
  else if o = 0x40020 then .inti
  else if o = 0x40028 then .abort
  else if o = 0x40030 then .hwv
  else .none

/-- What a host register reads (R323, R385). -/
def State.readHostReg (s : State) (p : PkgKey) (r : HostReg) : Word :=
  let k := s.pkg p
  match r with
  | .queue q f =>
    let x := (s.die (4 * p + q / 16)).queue (q % 16)
    match f with
    | 0 => x.qbase
    | 1 => zext x.qlog
    | 2 => zext x.head
    | 3 => zext x.tail
    | 4 => x.cbase
    | 5 => zext x.clog
    | 6 => zext x.chead
    | _ => zext x.ctail
  | .cdtb => k.cdtb
  | .pstat => k.pstat
  | .hwv => BitVec.ofNat 64 k.hwv.toNat
  | _ => 0

/-- Registers whose write takes effect only once every earlier host write has been acknowledged (R384). -/
def HostReg.waits : HostReg → Bool
  | .queue _ f => f = 3
  | .pctl => true
  | .inti => true
  | .abort => true
  | _ => false

/-- A write of a host register (R323, R385); INTI, ABORT and PCTL carry the time of die 0's launch unit to that same unit. -/
def State.writeHostReg (s : State) (p : PkgKey) (r : HostReg) (w : Word) : State :=
  match r with
  | .queue q f =>
    let d := 4 * p + q / 16
    let i := q % 16
    match f with
    | 0 => s.modQueue d i (fun x => { x with qbase := w &&& ~~~255#64 })
    | 1 => s.modQueue d i (fun x => { x with qlog := w })
    | 3 => s.post s.now 0 (.queueDoorbell d i (w.setWidth 32))
    | 4 => s.modQueue d i (fun x => { x with cbase := w &&& ~~~31#64 })
    | 5 => s.modQueue d i (fun x => { x with clog := w })
    | 6 => s.post s.now 0 (.completionRingRelease d i (w.setWidth 32))
    | _ => s
  | .cdtb => s.modPkg p (fun k => { k with cdtb := BitVec.ofNat 64 (wordBits w 41 22 * 2 ^ 22) })
  | .pctl =>
    if (s.pkg p).pstat.getLsbD 0 then s
    else
      let ctx := wordBits w 15 0
      let s := s.modPkg p (fun k => { k with pstat := pstatWord ctx true })
      s.post s.now 0 (if w.getLsbD 16 then .resume p ctx else .preempt p ctx)
  | .intl => s.modPkg p (fun k => { k with intl := w })
  | .inti => s.post s.now 0 (.inti (p * 2 ^ 32 + wordBits (s.pkg p).intl 31 0) (wordBits w 23 0) (wordBits (s.pkg p).intl 35 32))
  | .abort => s.post s.now 0 (.abort (p * 2 ^ 32 + wordBits w 31 0) 0)
  | .hwv => s.modPkg p (fun k => { k with hwv := w.getLsbD 0 })
  | _ => s

/-- Whether n bytes at an offset of the memory part are memory of the package (R251). -/
def hostMem (off n : Nat) : Bool := off + n ≤ 2 ^ 42 && frameOk off n

/-- The offset of the register part (R384). -/
def hostRegs : Nat := 0x40000000000

/-- The doublewords of the register part that a range meets. -/
def hostDoublewords (off n : Nat) : List Nat :=
  (List.range ((off % 8 + n + 7) / 8)).map (fun i => off / 8 * 8 + 8 * i - hostRegs)

/-- A doubleword of a host write: the bytes that it gives over those that the register reads. -/
def State.hostValue (s : State) (p : PkgKey) (off : Nat) (bs : List Byte) (o : Nat) : Word :=
  let old := wordBytes (s.readHostReg p (hostReg o))
  BitVec.ofNat 64 (bytesNat ((numbered old).map (fun (i, b) =>
    let a := hostRegs + o + i
    if off ≤ a ∧ a < off + bs.length then bs.getD (a - off) b else b)))

/-- A host write is sent: one store for each sector that it meets, performed at its home half the home's latency from now with die 0's time and HWV, and acknowledged one by one (R110, R384, R416). -/
def State.sendHostWrite (s : State) (pkg : PkgKey) (off : Nat) (bytes : List Byte) : State :=
  (bytePieces (pkg * 2 ^ 42 + off) bytes).foldl (fun s (a, b) =>
    let x := s.unitStore (.host pkg) (96 * pkg) (physHome a) a b (s.die (4 * pkg)).time (s.pkg pkg).hwv false none
    let s := s.modPkg pkg (fun k => { k with hostOut := k.hostOut ++ [x.id] })
    s.sendAt 3 x.src x.home (s.performAt x) (agentRank x.agent) (.homeStore x)) s

/-- A host request waits behind those before it (R384). -/
def State.hostWaits (s : State) (pkg : PkgKey) (e : Instr) : State := s.modPkg pkg (fun k => { k with hostWait := k.hostWait ++ [e] })

/-- The registers that a host write writes (R384, R385). -/
def State.hostRegWrite (s : State) (pkg : PkgKey) (off : Nat) (bytes : List Byte) : State :=
  (hostDoublewords off bytes.length).foldl (fun s o => s.writeHostReg pkg (hostReg o) (s.hostValue pkg off bytes o)) s

/-- A host write takes effect only once every earlier host write has been acknowledged (R384). -/
def lateHostWrite (off : Nat) (bytes : List Byte) : Bool :=
  hostRegs ≤ off && (hostDoublewords off bytes.length).any (fun o => (hostReg o).waits)

/-- A host write (R384): to memory it is sent to its homes; to a register it takes effect, after the acknowledgements that it waits for. Behind a request that waits, every later one waits too. -/
def execHostWrite (pkg : PkgKey) (off : Nat) (bytes : List Byte) (s : State) : Result :=
  let k := s.pkg pkg
  if off < hostRegs ∧ !hostMem off bytes.length then .fault .noSuchHostAddress
  else if !k.hostWait.isEmpty || (lateHostWrite off bytes && !k.hostOut.isEmpty) then .next (s.hostWaits pkg (.hostWrite pkg off bytes))
  else if off < hostRegs then .next (s.sendHostWrite pkg off bytes)
  else .next (s.hostRegWrite pkg off bytes)

/-- Poison that a host read meets is logged (R391). -/
def State.logHostPoison (s : State) (pa n : Nat) : State :=
  (List.range ((pa % 64 + n + 63) / 64)).foldl (fun s i =>
    let a := sectorOf pa + 64 * i
    match (s.sector a).poison with
    | some src => s.logError (dieOfPA a) (LogEvent.ofClu 3 0x1A1 src (physHome a) (BitVec.ofNat 64 (a % 2 ^ 42)) 0)
    | none => s) s

/-- Sectors of a host read whose lock it must wait for: the port reads with die 0's time, as an ordered load (R114, R279, R384). -/
def State.hostReadLocked (s : State) (pkg off size : Nat) : Bool :=
  ((List.range ((off % 64 + size + 63) / 64)).map (fun i => s.sector (sectorOf (pkg * 2 ^ 42 + off) + 64 * i))).any
    (fun x => x.lock.isSome && x.rts < (s.die (4 * pkg)).time)

/-- A host read returns the newest version of memory, with the lease of an ordered load (log 25), or registers (R384, R385, R391). -/
def State.hostReadNow (s : State) (pkg off size : Nat) : State :=
  if off < hostRegs then
    let pa := pkg * 2 ^ 42 + off
    let s := (List.range ((pa % 64 + size + 63) / 64)).foldl (fun s i => s.grant (sectorOf pa + 64 * i) ((s.die (4 * pkg)).time + 256)) s
    (s.logHostPoison pa size).modPkg pkg (fun k => { k with hostReply := Memory.getN s.mem pa size })
  else
    let bs := (hostDoublewords off size).flatMap (fun o => wordBytes (s.readHostReg pkg (hostReg o)))
    s.modPkg pkg (fun k => { k with hostReply := (bs.drop (off % 8)).take size })

/-- A host read: performed once every earlier host write is acknowledged and no lock keeps it waiting (R279, R384). -/
def execHostRead (pkg : PkgKey) (off : Nat) (size : Nat) (s : State) : Result :=
  let k := s.pkg pkg
  if off < hostRegs ∧ !hostMem off size then .fault .noSuchHostAddress
  else if !k.hostWait.isEmpty || !k.hostOut.isEmpty then .next (s.hostWaits pkg (.hostRead pkg off size))
  else if off < hostRegs && s.hostReadLocked pkg off size then
    .next ((s.hostWaits pkg (.hostRead pkg off size)).again (.hostWriteAcknowledgement pkg 0 0))
  else .next (s.hostReadNow pkg off size)

/-- The waiting requests are issued in order, as far as what is outstanding lets them; a TAIL write stops the rest until its doorbell has acted (R384). The event that looks at the next one carries the number 0, which no write has. -/
def State.issueHost (s : State) (pkg : PkgKey) : State :=
  match (s.pkg pkg).hostWait with
  | [] => s
  | e :: rest =>
    let go (s : State) : State := s.modPkg pkg (fun k => { k with hostWait := rest })
    match e with
    | .hostWrite _ off bytes =>
      if lateHostWrite off bytes then
        if !(s.pkg pkg).hostOut.isEmpty then s
        else ((go s).hostRegWrite pkg off bytes).post s.now 0 (.hostWriteAcknowledgement pkg 0 0)
      else (((if off < hostRegs then (go s).sendHostWrite pkg off bytes else (go s).hostRegWrite pkg off bytes)).post s.now 0 (.hostWriteAcknowledgement pkg 0 0))
    | .hostRead _ off size =>
      if !(s.pkg pkg).hostOut.isEmpty then s
      else if off < hostRegs && s.hostReadLocked pkg off size then s.again (.hostWriteAcknowledgement pkg 0 0)
      else ((go s).hostReadNow pkg off size).post s.now 0 (.hostWriteAcknowledgement pkg 0 0)
    | _ => go s

/-- A host write's acknowledgement raises die 0's launch-unit time; requests that wait are then looked at in order, one after the effects of the one before (R384). -/
def execHostWriteAcknowledgement (pkg : PkgKey) (id : Nat) (wts : Nat) (s : State) : Result :=
  let s := s.raiseDie (4 * pkg) wts
  .next ((s.modPkg pkg (fun k => { k with hostOut := k.hostOut.filter (· != id) })).issueHost pkg)

end Sys2Proof.Machine
end

