-- ==== Sys2Proof/Machine/Errors.lean ====
section
/-! DEFINITION. Errors of storage and of links: what each leaves behind (R379, R390, R391, R393). -/

namespace Sys2Proof.Machine

open Sys2Proof

/-! ### Storage (R390) -/

/-- The information word of a damaged register (R230). -/
def damageInfo : RegName → Nat
  | .g n => n.val
  | .v n => 32 + n.val
  | .m n => 64 + n.val

/-- The mark of an uncorrectable error in a register (R230, R390). -/
def damageMark (r : RegName) : Option Mark := some { cause := 0x1A4, info := BitVec.ofNat 32 (damageInfo r) }

/-- A Full register is damaged: the bundle that reads it traps with 0x1A4 and cr.tval = 0 (R230). -/
def Regs.damage (r : Regs) (d : RegName) : Regs := if r.tag d = .full then r.put d 0 (damageMark d) else r

/-- The log entry of a unit poisoned at storage; outside global memory it has no physical address and doubleword 2 is 0 (R393, log 57). -/
def State.logStorage (s : State) (k : ClusterKey) (source : Nat) (addr : Word) : State :=
  s.logError (dieOfClu k) (LogEvent.ofClu 2 0 source k addr 0)

/-- A poisoned token or register of a rook: SUB 4 (R290, R390). -/
def damagedToken (t : Token) : Token := { t with val := 0, poison := true, side := faultSide { sub := 4, stage := 0, addr := 0 } }

/-- The token at a place of a queue poisoned, if it is a data token. -/
def damageAt (l : List Token) (n : Nat) : List Token := l.modify n (fun t => if t.kind = 0 then damagedToken t else t)

/-- An output of a memory port poisoned. -/
def PortOut.damaged (o : PortOut) : PortOut := { o with tok := o.tok.map (fun t => if t.kind = 0 then damagedToken t else t) }

/-- A word of a queue of a rook is poisoned (R390). -/
def Rook.damageQueue (r : Rook) (unit dir : Nat) (out : Bool) (n : Nat) : Rook :=
  if unit < 64 then r.modCell unit (fun y => { y with dq := y.dq.setIfInBounds dir (damageAt (y.queue dir) n) })
  else if unit < 68 then r.modPort (unit - 64) (fun p => if out then { p with outs := p.outs.modify n PortOut.damaged } else { p with inq := damageAt p.inq n })
  else if unit = 70 ∨ unit = 71 then
    { r with reds := r.reds.mapIdx (fun i u => if i ≠ unit - 70 then u else if out then { u with outq := damageAt u.outq n } else { u with inq := damageAt u.inq n }) }
  else if 72 ≤ unit ∧ unit < 76 then { r with sfus := r.sfus.mapIdx (fun i u => if i ≠ unit - 72 then u else { u with inq := damageAt u.inq n }) }
  else if unit = 76 then
    { r with butterfly := if out then { r.butterfly with outq := damageAt r.butterfly.outq n } else { r.butterfly with inq := damageAt r.butterfly.inq n } }
  else if unit = 78 then { r with resq := damageAt r.resq n }
  else if 80 ≤ unit then r.modLink (unit - 80) (fun l => { l with inbuf := damageAt l.inbuf n })
  else r

/-- A completion in transit loses its data to an uncorrectable error: its register gets a poison mark (R219, R220). -/
def damagedCompletion (c : Completion) (source : Nat) : Completion :=
  { c with val := c.va.setWidth 512, mark := some (poisonMark source) }

/-- An event of the agenda changed. -/
def State.mapEvents (s : State) (f : Pending → Instr) : State := { s with agenda := s.agenda.map (fun p => { p with ev := f p }) }

/-- The data of a message are poisoned on their way, with the source of the error; a message without data stays as it is (R220, R379). -/
def damagedMessage (source : Nat) (ev : Instr) : Instr :=
  match ev with
  | .longOperationCompletion c => .longOperationCompletion (damagedCompletion c source)
  | .taggedReply t id val _ time => .taggedReply t id val (some (poisonMark source)) time
  | .homeStore a => .homeStore { a with bad := some source }
  | .atomicUnitOperation a => .atomicUnitOperation { a with bad := some source }
  | .reductionApply a => .reductionApply { a with bad := some source }
  | .sliceOrderedMerge a => .sliceOrderedMerge { a with bad := some source }
  | .remoteRequestArrival r => .remoteRequestArrival { r with bad := some source }
  | .fillArrival f => .fillArrival { f with bad := some source }
  | .contextArrival c => .contextArrival { c with marks := c.args.map (fun _ => some (poisonMark source)) }
  | .linkTokenArrival r c t => .linkTokenArrival r c (if t.kind = 0 then damagedToken t else t)
  | .serverResult m => .serverResult { m with fault := m.fault.or (some { sub := 4, stage := 0, addr := 0 }) }
  | .memoryPortReply r p seq val _ wts => .memoryPortReply r p seq val true wts
  | ev => ev

/-- What of a message's data stands beside it: the block of a copy engine, the line of a fetch (R221, R273). -/
def State.damageBeside (s : State) (source : Nat) : Instr → State
  | .copyBlockWrite c cmd b => s.modBlock c cmd b (fun x => { x with poison := some source })
  | .instructionLineFill c line => s.modCore c (fun k => { k with fills := k.fills.map (fun f =>
      if f.line = line ∧ f.got.isSome then { f with got := none, answer := some (.poisoned source) } else f) })
  | _ => s

/-- The data of the message numbered so are poisoned. -/
def State.damageMessage (s : State) (source msg : Nat) : State :=
  match s.agenda.find? (fun p => p.num = msg) with
  | none => s
  | some p => (s.damageBeside source p.ev).mapEvents (fun q => if q.num = msg then damagedMessage source q.ev else q.ev)

/-- A storage error (R390): corrected and counted, or uncorrectable: the register, accumulator or control register is damaged, the word or sector poisoned, the cached copy invalidated, the data in a cluster cache's reply buffer poisoned. -/
def execSoftError (e : SoftErr) (s : State) : Result :=
  match e with
  | .corrected d => .next (s.modDie d (fun k => { k with elCorr := k.elCorr + 1 }))
  | .register t r => .next (if s.matches_ t && !fixedReg r then s.modSlot t.core t.slot (fun sl => { sl with regs := sl.regs.damage r }) else s)
  | .accumulator c a => .next (s.modCore c (fun k => { k with accDamage := if k.accDamage.contains a then k.accDamage else a :: k.accDamage }))
  | .control t i =>
    (match crUnit t.core i.toNat with
    | some u => .next { s with crDamage := if s.crDamage.contains (u, i.toNat) then s.crDamage else (u, i.toNat) :: s.crDamage }
    | none => .next (if s.matches_ t then s.modSlot t.core t.slot (fun sl => { sl with crDamage := if sl.crDamage.contains i then sl.crDamage else i :: sl.crDamage }) else s))
  | .scratchpad c w => .next ((s.spadPoisonAt c (8 * w) 8 4).logError (dieOf c) (LogEvent.ofCore 2 0 4 c 0 0 0))
  | .weightStore k w => .next ((s.modClu k (fun x => { x with weightPoison := setKey x.weightPoison w 5 })).logStorage k 5 0)
  | .rookLocal r c l =>
    .next ((s.modRook r (fun x => x.modCell c (fun y => { y with l := y.l.setIfInBounds l { val := 0, poison := true, side := faultSide { sub := 4, stage := 0, addr := 0 } } }))).logStorage
      (r / 4) 0 0)
  | .rookQueue r u d out n => .next ((s.modRook r (fun x => x.damageQueue u d out n)).logStorage (r / 4) 0 0)
  | .clusterCache k a =>
    .next (s.modClu k (fun x =>
      let x := x.settle s.cycle
      { x with cache := x.cache.map (fun l =>
        if l.line = lineOf a then { l with fetched := false, sectors := l.sectors.setIfInBounds (a % 256 / 64) none } else l) }))
  | .replyBuffer m => .next (s.damageMessage 3 m)
  | .instructionCache c line => .next (s.modCore c (fun k => { k with icache := k.icache.filter (fun l => l.line != line) }))
  | .imageCache k ctx fid => .next (s.modClu k (fun x => { x with images := x.images.filter (fun e => !(e.ctx = ctx && e.fid = fid)) }))
  | .memory a =>
    let src := if inLpddr a then 2 else 1
    .next ((s.modSector a (fun x => { x with poison := some src })).logStorage (physHome a) src (BitVec.ofNat 64 (sectorOf a % 2 ^ 42)))

/-! ### Links (R379) -/

/-- The route and channel of a message, within which messages stay in order: between packages that of the two packages (R378, R379), within one that of the two dies (log 65). -/
def Wire.sameRoute (a b : Wire) : Bool :=
  a.vc == b.vc && a.src / 4 == b.src / 4 && a.dst / 4 == b.dst / 4 && (a.src / 4 != a.dst / 4 || (a.src == b.src && a.dst == b.dst))

/-- A message goes by a die-to-die path or a Humir link; a broadcast goes by every link of its scope. -/
def Pending.crosses (p : Pending) : Bool :=
  p.wire.isSome || (match p.ev with
    | .barrierRelease _ _ _ | .cpubTimeBroadcast _ _ _ _ => true
    | _ => false)

/-- A message behind a delayed one of its route and channel comes no earlier (R379). -/
def Pending.behind (p : Pending) (l : Late) : Pending :=
  if p.wire.any l.wire.sameRoute && l.num < p.num && p.due ≤ l.due then { p with due := l.due, rank := max p.rank l.rank } else p

/-- The agenda in order again after changes of due moments. -/
def sortAgenda (l : List Pending) : List Pending := l.foldl insertPending []

/-- Messages sent behind delayed ones are held back; what is past is forgotten (R379). -/
def State.holdLate (s : State) : State :=
  if s.late.isEmpty then s
  else { s with agenda := sortAgenda (s.agenda.map (fun p => s.late.foldl Pending.behind p)), late := s.late.filter (fun l => s.now ≤ l.due) }

/-- A message on a link comes later, and none of its route and channel that was sent after it comes before it (R137, R306, R379). -/
def State.delayEvent (s : State) (msg delay : Nat) : State :=
  match s.agenda.find? (fun p => p.num = msg) with
  | none => s
  | some p =>
    if !p.crosses then s
    else
      let s := { s with agenda := insertPending (s.agenda.filter (fun q => q.num != msg)) { p with due := p.due + 4 * delay } }
      match p.wire with
      | none => s
      | some w => { s with late := { wire := w, num := p.num, due := p.due + 4 * delay, rank := p.rank } :: s.late }.holdLate

/-- A replay on a Humir port is counted (R409); on a path between dies there is no port. -/
def State.countReplay (s : State) (p : PkgKey) : Option Nat → State
  | none => s
  | some port => s.modPkg p (fun k => { k with yamus := { k.yamus with
      humir := setAt k.yamus.humir port (fun l => l.map (fun x => { x with replays := x.replays + 1 })) } })

/-- A message of the agenda crosses a Humir link, or, else, a path between dies. -/
def State.onLink (s : State) (msg : Nat) (humir : Bool) : Bool :=
  s.agenda.any (fun p => p.num == msg && p.wire.any (fun w => !humir || w.src / 4 != w.dst / 4))

/-- A flit fails its check (R379): it is replayed, which adds at most 64 cycles; uncorrectable data are poisoned with source 7 on a Humir link, 6 between dies; an uncorrectable control flit is logged and replayed. -/
def execFlitReplay (e : FlitErr) (s : State) : Result :=
  match e with
  | .replay p port m d => .next ((s.countReplay p port).delayEvent m (min d 64))
  | .data humir m => .next (if s.onLink m humir then s.damageMessage (if humir then 7 else 6) m else s)
  | .control p port m =>
    let (n, s) := s.takeFree
    -- a path between dies has no port number: a free value (log 57)
    let s := s.logError (4 * p) { type := 11, cause := 0, source := 0, cluster := 0, core := 0, slot := 0, dw2 := 0, dw3 := BitVec.ofNat 64 (port.getD (Config.freeNat n)) }
    let (n, s) := s.takeFree
    .next ((s.countReplay p port).delayEvent m (Config.freeNat n % 65))

end Sys2Proof.Machine
end

