-- ==== Sys2Proof/Machine/Mirror.lean ====
section
/-! DEFINITION. Mirrored pairs: the shadow's bundles, checkpoints and rollbacks (R394–R399); retirement of clusters and the repair map (R400, R401). -/

namespace Sys2Proof.Machine

open Sys2Proof

/-! ### Checkpoints (R397) -/

/-- A shadow's bundle stands in its cycle's issue (R394). -/
def execShadowBundle (f : FollowMsg) (s : State) : Result := .next { s with forced := s.forced ++ [f] }

/-- A core has local long operations or tile commands under way (R26, R397). -/
def Core.localBusy (k : Core) : Bool :=
  (List.range 16).any (fun i => (k.slot i).out.any (fun o => o.kind = .localLong))
    || k.tile.queue.any (fun c => !(c.op matches .mdrain _ _ _ _)) || k.tile.run.any (fun r => !(r.cmd.op matches .mdrain _ _ _ _))

/-- A mismatch of the pair has been met and is yet to be detected. -/
def State.rollbackDue (s : State) (p : CoreKey) : Bool := s.agenda.any (fun e => match e.ev with
  | .mirroredRollback c _ _ => c = p
  | _ => false)

/-- The copies are taken, the held stores leave for their homes in order, the logs are cleared, CKN rises (R397). -/
def State.takeCheckpoint (s : State) (p : CoreKey) (m : Mirror) : State :=
  let k := s.core p
  let x := s.core m.shadow
  let s := m.store.foldl (fun s h => s.sendAt 3 h.access.src h.access.home (s.cycle + s.homeLatency h.access.src h.access.home / 2) (2 ^ 40) (.homeStore { h.access with issue := s.cycle })) s
  s.modCore p (fun k' => { k' with
    mirrCkn := k'.mirrCkn + 1, stopUntil := max k'.stopUntil (s.cycle + 1)
    mirror := some { m with ckSlots := k.slotList, ckShadow := x.slotList, ckAcc := k.acc.toList, ckAccShadow := x.acc.toList, ckRings := k.rings
                            store := [], logCount := 0, logShadow := 0, mismatched := false, waits := false } })

/-- A checkpoint of a pair (R397): issue stops, for 16 cycles at least; the shadow runs the bundle that it is behind, local long operations end, and then the checkpoint is taken. One asked for while the pair is stopped is the one under way. -/
def execCheckpoint (core : CoreKey) (s : State) : Result :=
  let k := s.core core
  match k.mirror with
  | none => .next s
  | some m =>
    if m.waits then
      if k.localBusy || (s.core m.shadow).localBusy || s.rollbackDue core || s.agenda.any (fun e => match e.ev with
          | .shadowBundle f => f.leader.core = core
          | _ => false) then
        .next ((s.modCore core (fun k => { k with stopUntil := max k.stopUntil (s.cycle + 2) })).post (4 * (s.cycle + 1) + 3) 0 (.checkpoint core))
      else .next (s.takeCheckpoint core m)
    else if s.cycle < k.stopUntil then
      .next (if s.phase = 0 then s.postAt k.stopUntil 0 (.checkpoint core) else s)
    else
      let stop := if s.phase = 0 then s.cycle else s.cycle + 1
      .next ((s.modCore core (fun k => { k with stopUntil := stop + 16, mirror := some { m with waits := true } })).post (4 * stop + 3) 0 (.checkpoint core))

/-- What a slot of a pair has sent out is complete: none of its operations is outstanding, it waits for nothing, and its copy commands are done (R395). -/
def State.sentOver (s : State) (p : CoreKey) (i : Nat) : Bool :=
  let sl := s.slot p i
  sl.occ != .thread || (sl.out.isEmpty && sl.block.isNone && (s.core p).copyDone (s.refOf p i))

/-- A slot holds for an own store that stands in the pair's buffer (R397). -/
def Slot.holdsForStore (sl : Slot) (m : Mirror) : Bool :=
  sl.hold && m.store.any (fun h => sl.out.any (fun o => o.id = h.access.id))

/-- The end of a cycle in a pair: a checkpoint at the completion of an irrevocable operation (R395), and one for a hold of R26 on a held store (R397). -/
def State.mirrorEnd (s : State) : State :=
  s.cores.foldl (fun s (c, k) => match k.mirror with
    | none => s
    | some m =>
      let ended := m.busy.filter (s.sentOver c)
      let s := if ended.isEmpty then s else s.modCore c (fun k => { k with mirror := some { m with busy := m.busy.filter (fun i => !ended.contains i) } })
      if !ended.isEmpty || k.slotList.any (fun sl => sl.holdsForStore m) then s.wantCheckpoint c else s) s

/-- The pairs take a checkpoint in the cycle in which cr.cyc<11:0> = 0 (R397). -/
def State.periodicCheckpoints (s : State) : State :=
  s.cores.foldl (fun s (c, k) => if k.mirror.isSome && s.cyc (pkgOf c) % 4096 == 0 && !s.agenda.any (fun e => e.ev = .checkpoint c) then s.post s.now 0 (.checkpoint c) else s) s

/-! ### Rollback (R398) -/

/-- A core undoes its last n log entries in reverse order (R398, R399). -/
def State.undo (s : State) (c : CoreKey) (base : Nat) : Nat → State
  | 0 => s
  | n + 1 =>
    let k := s.core c
    let e := bytesNat (k.spadRead (base + 16 * n) 8)
    let w := e % 2 ^ 63 / 8
    let s := s.modCore c (fun k => { k with spad := Memory.setN k.spad (8 * w) (k.spadRead (base + 16 * n + 8) 8) })
    (s.setFull c w (e / 2 ^ 63 = 1)).undo c base n

/-- A slot of a checkpoint copy, ready at its checkpoint PC: one that waited stands before the bundle of its wait, whose A word has had no effect (R398; log 58). -/
def Slot.beforeWait (sl : Slot) : Slot :=
  match sl.block with
  | none => sl
  | some b => { sl with
    pc := b.cur.pc, byBranch := true, block := none
    regs := (b.cur.aword.map dests).getD [] |>.foldl (fun r d => r.copy b.cur.regs d) sl.regs
    fcsr := if b.cur.aword.isSome then b.cur.fcsr else sl.fcsr }

/-- A slot as its checkpoint copy has it; what the thread is to others, its pending interrupts and the operations that began before the checkpoint stay as they are. -/
def Slot.rolledBack (now ck : Slot) : Slot :=
  { ck.beforeWait with
    occ := now.occ, gen := now.gen, ints := now.ints, stopping := now.stopping, crDamage := now.crDamage
    out := now.out.filter (fun o => ck.out.any (fun x => x.id = o.id)), lastEnd := now.lastEnd, openSince := none, parkLimit := none
    readyAt := 0, hold := ck.hold }

/-- One core of a pair goes back to its checkpoint (R398); a slot whose irrevocable operation is in progress, or which is parked for good by cr.psave, stays as it is (log 58). -/
def State.rollCore (s : State) (c : CoreKey) (m : Mirror) (slots : List Slot) (acc : List (List (BitVec 32))) (base n : Nat) : State :=
  let s := s.undo c base n
  let stays (i : Nat) : Bool := m.busy.contains i || (s.slot c i).isSaved
  s.modCore c (fun k => { k with
    slots := Vector.ofFn (fun i => if stays i.val then k.slot i.val else (k.slot i.val).rolledBack (slots.getD i.val Slot.init))
    acc := Vector.ofFn (fun a => acc.getD a.val [])
    rings := m.ckRings, tagWait := k.tagWait.filter (fun x => !(x.local_ && !stays x.thread.slot))
    tile := { k.tile with queue := k.tile.queue.filter (fun x => m.busy.contains x.thread.slot), run := k.tile.run.filter (fun r => m.busy.contains r.cmd.thread.slot) } })

/-- The lowest slot of a core that holds a thread. -/
def Core.lowestThread (k : Core) : Option Nat := (List.range 16).find? (fun i => (k.slot i).occ = .thread)

/-- A mismatch is detected: the pair goes back to its last checkpoint and is ready 33 + n cycles later; a second one before the next checkpoint raises 0x181 (R398, R393). -/
def execMirroredRollback (core : CoreKey) (slot : Nat) (pc : Word) (s : State) : Result :=
  let k := s.core core
  match k.mirror with
  | none => .next s
  | some m =>
    let rivals := s.agenda.filterMap (fun e => match e.ev with
      | .mirroredRollback c i x => if c = core ∧ e.due ≤ s.now then some (i, x) else none
      | _ => none)
    let (slot, pc) := rivals.foldl (fun a b => if b.1 < a.1 then b else a) (slot, pc)
    let s := s.keepEvents (fun e => match e with
      | .mirroredRollback c _ _ => c != core
      | .shadowBundle f => f.leader.core != core
      | _ => true)
    let base := k.mirrLbase.toNat * 4096
    let n := max m.logCount m.logShadow
    let s := s.rollCore core m m.ckSlots m.ckAcc base m.logCount
    let s := s.rollCore m.shadow m m.ckShadow m.ckAccShadow base m.logShadow
    let s := s.modCore core (fun k => { k with
      stopUntil := s.cycle + 33 + n, mirrRoll := if k.mirrRoll = 255 then k.mirrRoll else k.mirrRoll + 1
      mirror := some { m with store := [], logCount := 0, logShadow := 0, mismatched := true, waits := false } })
    let ckn : Word := zext k.mirrCkn
    let low := (s.core core).lowestThread.getD 0
    let s := s.logError (dieOf core) (LogEvent.ofCore 5 0 0 core low (s.slot core low).pc ckn)
    if m.mismatched then
      let s := s.logError (dieOf core) (LogEvent.ofCore 6 0x181 0 core slot pc ckn)
      .next (s.deliver core slot (s.slot core slot).pc { cause := 0x181, tval := pc, tinf := ckn })
    else .next s

/-! ### Retirement of a cluster (R400, R401) -/

/-- The physical cluster at which a logical cluster stands (R400). -/
def State.physicalOf (s : State) (k : ClusterKey) : Nat := (s.die (dieOfClu k)).repair.getD (k % 24) (k % 24)

/-- The log entry of a retirement (R393). -/
def State.logRetire (s : State) (k : ClusterKey) (type phys : Nat) : State :=
  s.logError (dieOfClu k) (LogEvent.ofClu type 0 0 k 0 (BitVec.ofNat 64 phys))

/-- A request to retire a cluster (R401): refused and logged without a spare or after two remaps; else the cluster admits nothing. -/
def execRetireCluster (cluster : ClusterKey) (s : State) : Result :=
  let d := s.die (dieOfClu cluster)
  if (s.clu cluster).retiring then .next s
  else if d.spares.isEmpty || 2 ≤ d.remaps.count (cluster % 24) then .next (s.logRetire cluster 13 (s.physicalOf cluster))
  else .next (s.modClu cluster (fun k => { k with retiring := true }))

/-- The cycles of steps 4 and 5 (R401, log 14). -/
def retireTime (n : Nat) : Nat := Config.retireCycles n % 65536 + 1

/-- A retiring cluster at the end of a cycle: its contexts are pre-empted one after another, then, its rooks released, the move begins (R401). -/
def State.retireCluster (s : State) (k : ClusterKey) : State :=
  let p := pkgOfClu k
  let cores := (List.range 16).map (fun i => 16 * k + i)
  let moving := s.agenda.any (fun e => match e.ev with
    | .retirementDone x => x = k
    | .preempt q _ => q = p
    | _ => false)
  if moving || (s.pkg p).preempt.isSome then s
  else match cores.find? (fun c => (s.core c).live) with
    | some c => s.postAt (s.cycle + 1) 0 (.preempt p (s.core c).ctxLast)
    | none =>
      if (List.range 4).all (fun i => (s.rook (4 * k + i)).idle) && (s.clu k).rookWait.isEmpty then
        let (n, s) := s.takeFree
        s.postAt (s.cycle + retireTime n) 0 (.retirementDone k)
      else s

/-- Every retiring cluster. -/
def State.retireEnd (s : State) : State := s.clusters.foldl (fun s (k, x) => if x.retiring then s.retireCluster k else s) s

/-- The spare takes the logical number: home-agent state moves with it, caches, TLBs, image cache and weight store are empty; the repair map and the persistent record are updated (R400, R401). -/
def execRetirementDone (cluster : ClusterKey) (s : State) : Result :=
  let d := dieOfClu cluster
  let i := cluster % 24
  let old := s.physicalOf cluster
  match (s.die d).spares with
  | [] => .next ((s.modClu cluster (fun k => { k with retiring := false })).logRetire cluster 13 old)
  | spare :: rest =>
    let s := s.modDie d (fun k => { k with repair := k.repair.set i spare, spares := rest, remaps := k.remaps ++ [i] })
    let x := s.die d
    let s := s.modPkg (d / 4) (fun k => { k with yamus := { k.yamus with
      record := setAt k.yamus.record (d % 4) (fun r => { map := x.repair, remaps := x.remaps, bad := r.bad ++ [old] }) } })
    let s := s.modClu cluster (fun k => { k with
      cache := [], tlb := [], images := [], weights := [], weightPoison := [], weightCtx := some 65536, rooks := Vector.replicate 4 Rook.init, retiring := false })
    let s := (List.range 16).foldl (fun s c => s.modCore (16 * cluster + c) (fun k => { k with icache := [], tlb := [] })) s
    .next (s.logRetire cluster 12 old).wakeUnits

end Sys2Proof.Machine
end

