-- ==== Sys2Proof/Machine/Yamus.lean ====
section
/-! DEFINITION. From power to work (R402–R406), the management plane (R407–R409), power and clock steps (R410, R411), and the pod cycle count (R382). -/

namespace Sys2Proof.Machine

open Sys2Proof

/-! ### Firmware (R403) -/

/-- Bytes of the header. -/
def fwBytes (f : FwImage) (off n : Nat) : List Byte := (f.header.drop off).take n
/-- The rollback counter. -/
def fwCounter (f : FwImage) : Nat := bytesNat (fwBytes f 12 4)
/-- The firmware version. -/
def fwVersion (f : FwImage) : Nat := bytesNat (fwBytes f 8 4)
/-- The body, of the stated length. -/
def fwBody (f : FwImage) : List Byte := f.body.take (bytesNat (fwBytes f 16 8))

/-- The ROM accepts an image (R403): root key, signature, body digest, rollback counter. -/
def fwAccepted (f : FwImage) (minCounter : Nat) : Bool :=
  let key := fwBytes f 72 97
  Config.sha384 key == Config.rootDigest
    && Config.ecdsaVerify (Config.sha384 (fwBytes f 0 176)) key (fwBytes f 176 96)
    && Config.sha384 (fwBody f) == fwBytes f 24 48
    && minCounter ≤ fwCounter f

/-! ### Links (R404) -/

/-- Lane i of a trained port, after reversal. -/
def trainedLane (t : LinkTest) (i : Nat) : Option LaneTest :=
  let n := t.lanes.length
  let reversed := 1 < n && (t.lanes[n - 1]?).any (fun l => l.partner = 0)
  t.lanes[if reversed then n - 1 - i else i]?

/-- Lane i passes at a rate. -/
def lanePasses (t : LinkTest) (rate i : Nat) : Bool := (trainedLane t i).any (fun l => l.passes.contains rate)

/-- The training of a link (R404): the highest rate that both ends offer and at which lane 0 passes, then the largest width whose lanes all pass at it. -/
def trainLink (rates widths : List Nat) (t : LinkTest) : Option LinkState :=
  match rates.find? (fun r => t.rates.contains r && lanePasses t r 0) with
  | none => none
  | some rate =>
    match widths.find? (fun w => (List.range w).all (lanePasses t rate)) with
    | none => none
    | some w => some { rate := rate, width := w, reversed := 1 < t.lanes.length && (t.lanes[t.lanes.length - 1]?).any (fun l => l.partner = 0)
                       inverted := t.lanes.map LaneTest.inverted, serial := t.serial, replays := 0 }

/-- Flits per cycle and direction of a Humir port (R404). -/
def humirFlits (w rate : Nat) : Nat := 7 * w * rate / 1792

/-- The training of a Humir port; one whose figure is 0 is down (R404). -/
def trainHumir (t : LinkTest) : Option LinkState := (trainLink [224, 112] [8, 4, 2] t).filter (fun l => humirFlits l.width l.rate != 0)

/-- The training of the Birsyn port (R404). -/
def trainBirsyn (t : LinkTest) : Option LinkState := trainLink [200] [2, 1] t

/-! ### Repair maps (R400, R402) -/

/-- A physical cluster that may take a logical number. -/
def goodSpare (map bad : List Nat) : Option Nat := (List.range 26).find? (fun p => !map.contains p && !bad.contains p)

/-- A die's repair map with every logical cluster that stands at a bad physical one moved to a spare; none when fewer than 24 are good. -/
def repairMap (map bad : List Nat) : Option (List Nat) :=
  (List.range 24).foldl (fun (m : Option (List Nat)) i => m.bind (fun l =>
    if bad.contains (l.getD i i) then (goodSpare l bad).map (fun p => l.set i p) else some l)) (some map)

/-- The repair maps of a package's dies, with more physical clusters found bad. -/
def repairDies (rs : List RepairRecord) (bad : List (List Nat)) : Option (List RepairRecord) :=
  (numbered rs).mapM (fun x =>
    let b := x.2.bad ++ bad.getD x.1 []
    (repairMap x.2.map b).map (fun m => { x.2 with map := m }))

/-- After step 3 (R402): the clusters of failing vaults are given up, each a remap of its logical number. -/
def retireVaults (rs : List RepairRecord) (vaults bad : List (List Nat)) : Option (List RepairRecord) :=
  (numbered rs).mapM (fun x =>
    let v := vaults.getD x.1 []
    (repairMap x.2.map (x.2.bad ++ bad.getD x.1 [] ++ v)).map (fun m =>
      { map := m, bad := x.2.bad ++ v, remaps := x.2.remaps ++ (List.range 24).filter (fun i => m.getD i i != x.2.map.getD i i) }))

/-- A die at release, with its repair map. -/
def RepairRecord.die (r : RepairRecord) (bad : List Nat) : Die :=
  { Die.init with repair := r.map, remaps := r.remaps, spares := (List.range 26).filter (fun p => !r.map.contains p && !r.bad.contains p && !bad.contains p) }

/-! ### A package in reset -/

/-- The package of an access's agent. -/
def agentPkg : Agent → PkgKey
  | .thread t => pkgOf t.core
  | .engine c _ _ => pkgOf c
  | .port r _ _ => pkgOfClu (r / 4)
  | .drain r _ => pkgOfClu (r / 4)
  | .launchUnit d => d / 4
  | .host p => p

/-- The package in which an event takes effect. -/
def eventPkg : Instr → Option PkgKey
  | .longOperationCompletion c => some (pkgOf c.thread.core)
  | .fillArrival f => some (pkgOf f.target.core)
  | .openWaitLimit t => some (pkgOf t.core)
  | .interruptTaken t => some (pkgOf t.core)
  | .gangFollowerIssue f => some (pkgOf f.thread.core)
  | .threadRetirement t => some (pkgOf t.core)
  | .slotScrub t => some (pkgOf t.core)
  | .contextArrival c => some (pkgOf c.target)
  | .contextInstallation core => some (pkgOf core)
  | .spillMove core _ => some (pkgOf core)
  | .contextReply c _ => some (pkgOf c.sender.core)
  | .refusalResend (.remote r) => some (pkgOf r.thread.core)
  | .refusalResend (.context c) => some (pkgOf c.sender.core)
  | .migrationWaitLimit t _ => some (pkgOf t.core)
  | .contextSwitchScrub core _ => some (pkgOf core)
  | .timeTick pkg => some (pkg)
  | .clusterCacheAccess a => some (pkgOfClu a.src)
  | .homeLoad a => some (pkgOfClu a.home)
  | .homeStore a => some (pkgOfClu a.home)
  | .storeAcknowledgement k => some (agentPkg k.agent)
  | .atomicUnitOperation a => some (pkgOfClu a.home)
  | .reductionApply a => some (pkgOfClu a.home)
  | .ordsetDeclaration a => some (pkgOfClu a.home)
  | .sliceOrderedMerge a => some (pkgOfClu a.home)
  | .reservationExpiry t _ => some (pkgOf t.core)
  | .instructionLineFill core _ => some (pkgOf core)
  | .pageWalkCompletion cluster _ => some (pkgOfClu cluster)
  | .remoteRequestArrival r => some (pkgOf r.target)
  | .remotePortAccess core => some (pkgOf core)
  | .taggedOperationPerformed core _ => some (pkgOf core)
  | .taggedReply t _ _ _ _ => some (pkgOf t.core)
  | .taggedWaitLimit t _ => some (pkgOf t.core)
  | .taggedBudgetExpiry core _ => some (pkgOf core)
  | .taggedCancelArrival t _ => some (pkgOf t.core)
  | .monitorArmAcknowledgement t _ _ _ => some (pkgOf t.core)
  | .monitorLatch t _ _ _ => some (pkgOf t.core)
  | .waitTimeout t _ => some (pkgOf t.core)
  | .barrierArrival b _ _ _ => some (b.launch / 2 ^ 32)
  | .barrierPhaseCompletion b => some (b.launch / 2 ^ 32)
  | .barrierRelease b _ _ => some (b.launch / 2 ^ 32)
  | .barrierWaitLimit t _ => some (pkgOf t.core)
  | .messageArrival r => some (pkgOf r.target)
  | .messageReply r _ => some (pkgOf r.thread.core)
  | .mailboxNoticeArrival t _ => some (pkgOf t.core)
  | .mailboxWaitLimit t _ => some (pkgOf t.core)
  | .registryRequest pkg _ => some (pkg)
  | .registryAnswer t _ _ _ _ => some (pkgOf t.core)
  | .floorSample pkg => some (pkg)
  | .floorApply pkg _ => some (pkg)
  | .collectorSweep cluster => some (pkgOfClu cluster)
  | .transactionPrepare _ _ home => some (pkgOfClu home)
  | .transactionVotesComplete t _ => some (pkgOf t.core)
  | .transactionCommitApply _ _ sector _ => some (pkgOfPA sector)
  | .publishMark m _ => some (pkgOfPA m.line)
  | .cpubTimeBroadcast t _ _ _ => some (pkgOf t.core)
  | .shootdownCompletion t _ => some (pkgOf t.core)
  | .copyCommandStart core => some (pkgOf core)
  | .copyBlockRead core => some (pkgOf core)
  | .copyBlockWrite core _ _ => some (pkgOf core)
  | .copyBlockAcknowledgement core _ _ _ => some (pkgOf core)
  | .syncWordWaitLimit t _ => some (pkgOf t.core)
  | .tileCommandStart core => some (pkgOf core)
  | .tileCommandCompletion core => some (pkgOf core)
  | .gmmaJoin quad => some (pkgOf quad)
  | .accumulatorReleaseStep core _ => some (pkgOf core)
  | .tileWaitLimit t => some (pkgOf t.core)
  | .weightStoreRefresh pkg => some (pkg)
  | .drainArrival d => some (pkgOfClu d.cluster)
  | .drainCompletion d _ => some (pkgOf d.thread.core)
  | .callArrival c => some (pkgOfClu c.cluster)
  | .argumentPortAccept rook => some (pkgOfClu (rook / 4))
  | .resultPortTake rook => some (pkgOfClu (rook / 4))
  | .serverReply rook _ => some (pkgOfClu (rook / 4))
  | .serverResult r => some (pkgOf r.call.thread.core)
  | .configurationLoad cluster _ _ => some (pkgOfClu cluster)
  | .configurationLoadCompletion rook _ => some (pkgOfClu (rook / 4))
  | .memoryPortAccess rook _ => some (pkgOfClu (rook / 4))
  | .memoryPortReply rook _ _ _ _ _ => some (pkgOfClu (rook / 4))
  | .portTranslationRefill rook _ _ => some (pkgOfClu (rook / 4))
  | .counterChainEmit rook _ => some (pkgOfClu (rook / 4))
  | .reductionUnitStep rook _ => some (pkgOfClu (rook / 4))
  | .specialFunctionStep rook _ => some (pkgOfClu (rook / 4))
  | .butterflyConversion rook => some (pkgOfClu (rook / 4))
  | .markerPass rook _ => some (pkgOfClu (rook / 4))
  | .cellPass rook _ => some (pkgOfClu (rook / 4))
  | .cellAdd rook _ => some (pkgOfClu (rook / 4))
  | .cellSub rook _ => some (pkgOfClu (rook / 4))
  | .cellMul rook _ => some (pkgOfClu (rook / 4))
  | .cellAnd rook _ => some (pkgOfClu (rook / 4))
  | .cellOr rook _ => some (pkgOfClu (rook / 4))
  | .cellXor rook _ => some (pkgOfClu (rook / 4))
  | .cellShl rook _ => some (pkgOfClu (rook / 4))
  | .cellShr rook _ => some (pkgOfClu (rook / 4))
  | .cellSra rook _ => some (pkgOfClu (rook / 4))
  | .cellMin rook _ => some (pkgOfClu (rook / 4))
  | .cellMax rook _ => some (pkgOfClu (rook / 4))
  | .cellSeq rook _ => some (pkgOfClu (rook / 4))
  | .cellSlt rook _ => some (pkgOfClu (rook / 4))
  | .cellSltu rook _ => some (pkgOfClu (rook / 4))
  | .cellSel rook _ => some (pkgOfClu (rook / 4))
  | .cellFaddS rook _ => some (pkgOfClu (rook / 4))
  | .cellFmulS rook _ => some (pkgOfClu (rook / 4))
  | .cellFmaS rook _ => some (pkgOfClu (rook / 4))
  | .cellFmaxS rook _ => some (pkgOfClu (rook / 4))
  | .cellFminS rook _ => some (pkgOfClu (rook / 4))
  | .cellFltS rook _ => some (pkgOfClu (rook / 4))
  | .cellCbr rook _ => some (pkgOfClu (rook / 4))
  | .cellSteer rook _ => some (pkgOfClu (rook / 4))
  | .cellCvtSW rook _ => some (pkgOfClu (rook / 4))
  | .cellCvtWS rook _ => some (pkgOfClu (rook / 4))
  | .cellFnc rook _ => some (pkgOfClu (rook / 4))
  | .linkTokenArrival rook _ _ => some (pkgOfClu (rook / 4))
  | .linkCreditReturn rook _ => some (pkgOfClu (rook / 4))
  | .streamGraphStart launch => some (launch / 2 ^ 32)
  | .phaseEnd rook => some (pkgOfClu (rook / 4))
  | .arbiterFreeze rook => some (pkgOfClu (rook / 4))
  | .snapArrival rook _ _ => some (pkgOfClu (rook / 4))
  | .queueDoorbell die _ _ => some (die / 4)
  | .completionRingRelease die _ _ => some (die / 4)
  | .lnchSubmission m => some (pkgOf m.thread.core)
  | .launchAdmission die => some (die / 4)
  | .placementRequest m => some (m.die / 4)
  | .placementAnswer m _ _ => some (m.home / 4)
  | .launchStart _ die => some (die / 4)
  | .launchCompletion launch => some (launch / 2 ^ 32)
  | .completionReport die => some (die / 4)
  | .abort launch _ => some (launch / 2 ^ 32)
  | .hcall core _ _ => some (pkgOf core)
  | .inti launch _ _ => some (launch / 2 ^ 32)
  | .preempt pkg _ => some (pkg)
  | .psave t => some (pkgOf t.core)
  | .coreRecordWrite core => some (pkgOf core)
  | .weightStoreSave cluster => some (pkgOfClu cluster)
  | .rookRecordWrite rook => some (pkgOfClu (rook / 4))
  | .saveHeaderWrite pkg => some (pkg)
  | .resume pkg _ => some (pkg)
  | .resumedThreadStart pkg => some (pkg)
  | .tlbiContext t _ _ => some (pkgOf t.core)
  | .tlbiPage t _ _ _ => some (pkgOf t.core)
  | .tlbiAll t _ _ => some (pkgOf t.core)
  | .mboxWrite core _ => some (pkgOf core)
  | .vpoolWrite cluster _ => some (pkgOfClu cluster)
  | .hostWrite pkg _ _ => some (pkg)
  | .hostRead pkg _ _ => some (pkg)
  | .shadowBundle f => some (pkgOf f.thread.core)
  | .checkpoint core => some (pkgOf core)
  | .mirroredRollback core _ _ => some (pkgOf core)
  | .releaseRegion rook => some (pkgOfClu (rook / 4))
  | .retireCluster cluster => some (pkgOfClu cluster)
  | .retirementDone cluster => some (pkgOfClu cluster)
  | .lpddr6Refresh die _ => some (die / 4)
  | .pcycBeacon pkg _ => some (pkg)
  | .podClockStepChange m => some (m.pkg)
  | .coldReset pkg _ => some (pkg)
  | .podIdentityTimeout pkg => some (pkg)
  | .dieRelease pkg => some (pkg)
  | .status pkg => some (pkg)
  | .loadfw pkg _ => some (pkg)
  | .reset pkg _ => some (pkg)
  | .attest pkg _ => some (pkg)
  | .telem pkg => some (pkg)
  | .setlim pkg _ => some (pkg)
  | .setpod pkg _ => some (pkg)
  | .getrep pkg => some (pkg)
  | .unknownOpcode pkg _ => some (pkg)
  | .telemetryRefresh pkg => some (pkg)
  | .clockStepDown pkg => some (pkg)
  | .clockStepUp pkg => some (pkg)
  | .thermalLimit pkg => some (pkg)
  | .fillAcknowledgement t _ => some (pkgOf t.core)
  | .commitAcknowledgement t _ _ => some (pkgOf t.core)
  | .hostWriteAcknowledgement pkg _ _ => some (pkg)
  | .imageCacheInvalidation cluster _ => some (pkgOfClu cluster)
  | _ => none

/-- A damaged register of a core, cluster, die or package is one of a package's (R390). -/
def heldBy (e : Nat × Nat) (p : PkgKey) : Bool :=
  if [0x140, 0x141, 0x142].contains e.2 then pkgOfClu e.1 == p
  else if [0x170, 0x171].contains e.2 then e.1 / 4 == p
  else if [0x143, 0x150, 0x180].contains e.2 then e.1 == p
  else pkgOf e.1 == p

/-- Everything that a package in reset holds is lost, and what is on its way to it (R402): warm reset keeps nothing. -/
def State.clearPackage (s : State) (p : PkgKey) : State :=
  { s with
    cores := s.cores.filter (fun e => pkgOf e.1 != p), clusters := s.clusters.filter (fun e => pkgOfClu e.1 != p)
    dies := s.dies.filter (fun e => e.1 / 4 != p), mem := s.mem.filter (fun e => pkgOfPA e.1 != p)
    sectors := s.sectors.filter (fun e => pkgOfPA e.1 != p), lines := s.lines.filter (fun e => pkgOfPA e.1 != p)
    barriers := s.barriers.filter (fun b => b.bar.launch / 2 ^ 32 != p), launches := s.launches.filter (fun l => l.die / 4 != p)
    shootdowns := s.shootdowns.filter (fun x => pkgOf x.thread.core != p), ticks := delKey s.ticks p
    agenda := s.agenda.filter (fun e => eventPkg e.ev != some p), resumes := s.resumes.filter (fun r => pkgOf r.thread.core != p)
    forced := s.forced.filter (fun f => pkgOf f.thread.core != p), late := s.late.filter (fun l => l.wire.dst / 4 != p)
    crDamage := s.crDamage.filter (fun e => !(heldBy e p)), crWrites := s.crWrites.filter (fun e => pkgOf e.1 != p)
    pkgs := setKey s.pkgs p { Package.init with yamus := (s.pkg p).yamus } }

/-- Yamus's part of a package changes. -/
def State.modYamus (s : State) (p : PkgKey) (f : Yamus → Yamus) : State := s.modPkg p (fun k => { k with yamus := f k.yamus })

/-- Something is sent on the management port. -/
def State.manage (s : State) (p : PkgKey) (r : MgmtReply) : State := s.modYamus p (fun y => { y with replies := r :: y.replies })

/-- Bring-up stops at a step with a module fault: the dies stay in reset (R402). The fault code is the step (log 6). -/
def State.moduleFault (s : State) (p : PkgKey) (step : Nat) : State :=
  (s.modYamus p (fun y => { y with step := step, faultCode := step })).manage p (.moduleFault step)

/-- Compute cycles of n milliseconds of wall time at a package's clock step (R1, R410). -/
def State.milliseconds (s : State) (p : PkgKey) (n : Nat) : Nat := n * 1000 * stepMHz (s.pkg p).step

/-- Steps 2 to 8 of a bring-up with an accepted image (R402–R405). -/
def State.bringUpFrom (s : State) (p : PkgKey) (b : BringUp) (image : FwImage) : State :=
  let s := s.modYamus p (fun y => { y with
    recovery := none, firmware := image, staged := none, minCounter := max y.minCounter (fwCounter image), faultCode := 0, unused := false
    humir := List.replicate 18 none, birsyn := none })
  match repairDies (s.pkg p).yamus.record b.badClusters with
  | none => s.moduleFault p 2
  | some r2 =>
    match retireVaults r2 b.badVaults b.badClusters with
    | none => s.moduleFault p 3
    | some r3 =>
      let s := s.modYamus p (fun y => { y with record := r3 })
      let s := (numbered r3).foldl (fun s x => s.modDie (4 * p + x.1) (fun _ => x.2.die (b.badClusters.getD x.1 []))) s
      if !b.lpddrOk then s.moduleFault p 4
      else if !b.diePairsOk then s.moduleFault p 5
      else
        let ports := (List.range 18).map (fun i => b.humir[i]?.bind trainHumir)
        match trainBirsyn b.birsyn with
        | none => (s.modYamus p (fun y => { y with humir := ports })).moduleFault p 7
        | some l =>
          let s := (s.modYamus p (fun y => { y with humir := ports, birsyn := some l, step := 8 })).manage p (.ports ports)
          s.postAt (s.cycle + s.milliseconds p 10000) 0 (.podIdentityTimeout p)

/-- The whole sequence of R402: the dies of the package are in reset; the staged image, if there is one, is the one that the ROM verifies (R403, R407). -/
def State.bringUp (s : State) (p : PkgKey) (b : BringUp) : State :=
  let s := s.clearPackage p
  let s := s.modYamus p (fun y => { y with step := 1, recovery := none, faultCode := 0, refreshes := y.refreshes, window := 0, below := 0 })
  let s := s.postAt (s.cycle + s.milliseconds p 1) 0 (.telemetryRefresh p)
  let y := (s.pkg p).yamus
  let image := y.staged.getD b.image
  if fwAccepted image y.minCounter then s.bringUpFrom p b image
  else s.modYamus p (fun y => { y with recovery := some b, staged := none })

/-- Cold reset (R402). -/
def execColdReset (pkg : PkgKey) (b : BringUp) (s : State) : Result := .next (s.bringUp pkg b)

/-- Yamus is in the recovery state: it answers STATUS and LOADFW only (R403). -/
def State.recovering (s : State) (p : PkgKey) : Bool := (s.pkg p).yamus.recovery.isSome

/-- RESET: warm reset (R402, R407). -/
def execReset (pkg : PkgKey) (b : BringUp) (s : State) : Result :=
  if s.recovering pkg then .next s else .next (s.bringUp pkg b)

/-! ### Identity and release (R405, R406) -/

/-- No answer within 10 s: a pod of one package, numbered 0 in it, every Humir port unused (R405). -/
def execPodIdentityTimeout (pkg : PkgKey) (s : State) : Result :=
  if (s.pkg pkg).yamus.step = 8 then
    let s := s.modPkg pkg (fun k => { k with podPkg := 0, podN := 0, podDiam := 0, podId := 0, routes := [], yamus := { k.yamus with unused := true } })
    .next (s.postAt (s.cycle + 1) 0 (.dieRelease pkg))
  else .next s

/-- A Humir port of a package is up. -/
def State.portUp (s : State) (p : PkgKey) (port : Nat) : Bool := ((s.pkg p).yamus.humir.getD port none).isSome

/-- SETPOD (R405): refused after release and for a route over a port that is down; else it writes cr.pod and the routes, and the dies are released. Numbers that R377 excludes are refused (log 152). -/
def execSetpod (pkg : PkgKey) (c : PodConfig) (s : State) : Result :=
  if s.recovering pkg then .next s
  else if (s.pkg pkg).yamus.step ≠ 8 ∨ c.npkg % 512 < c.pkg % 512 ∨ pkg < c.pkg % 512 ∨ c.routes.any (fun r => r.2.2.any (fun port => !s.portUp pkg port)) then .next (s.manage pkg .refused)
  else
    let s := s.modPkg pkg (fun k => { k with
      podPkg := c.pkg % 512, podN := c.npkg % 512, podDiam := c.diam % 16, podId := c.pod % 65536, routes := c.routes.map (fun r => (r.1, r.2.1)) })
    let s := s.keepEvents (fun e => e != .podIdentityTimeout pkg)
    .next ((s.postAt (s.cycle + 1) 0 (.dieRelease pkg)).manage pkg .done)

/-- A count lies within 2 cycles of another, modulo 2^64. -/
def within2 (a b : BitVec 64) : Bool := (a - b + 2).toNat ≤ 4

/-- A beacon of package 0 sets a package's PCYC, which stays within 2 cycles of package 0's (R382). -/
def execPcycBeacon (pkg : PkgKey) (count : BitVec 64) (s : State) : Result :=
  let own : BitVec 64 := BitVec.ofNat 64 (s.pcycNow (s.pod0 pkg))
  let count := if within2 count own then count else own
  .next (if (s.pkg pkg).podPkg = 0 then s else s.modPkg pkg (fun k => { k with pcyc := count - BitVec.ofNat 64 (s.cyc pkg) }))

/-- The released packages of a pod, by its package 0. -/
def State.podPkgs (s : State) (p0 : PkgKey) : List PkgKey := ((s.pkgs.filter (fun e => e.2.released)).map Prod.fst).filter (fun q => s.pod0 q = p0)

/-- Package 0 of each pod of more than one package sends its count to the others, every 4,096 cycles; a beacon carries the count at its arrival (R379, R382, log 142). -/
def State.sendBeacons (s : State) (p0 : PkgKey) : State :=
  if (s.pkg p0).podPkg ≠ 0 then s
  else ((s.podPkgs p0).filter (fun q => q != p0)).foldl (fun s q =>
    let way := s.oneWay (1536 * p0) (1536 * q)
    s.sendAt 0 (96 * p0) (96 * q) (s.cycle + way) 0 (.pcycBeacon q (BitVec.ofNat 64 (s.pcycNow p0 + way)))) s

/-! ### The management plane (R407–R409) -/

/-- STATUS: bring-up step, fault code, firmware version. -/
def execStatus (pkg : PkgKey) (s : State) : Result :=
  let y := (s.pkg pkg).yamus
  .next (s.manage pkg (.status y.step y.faultCode (fwVersion y.firmware)))

/-- LOADFW: an image is staged for the next reset; in the recovery state one that passes lets bring-up go on (R403, R407). -/
def execLoadfw (pkg : PkgKey) (image : FwImage) (s : State) : Result :=
  let y := (s.pkg pkg).yamus
  match y.recovery with
  | none => .next ((s.modYamus pkg (fun y => { y with staged := some image })).manage pkg .done)
  | some b => .next (if fwAccepted image y.minCounter then (s.manage pkg .done).bringUpFrom pkg b image else s.manage pkg .done)

/-- The report of ATTEST (R408). -/
def attestReport (y : Yamus) (maps : List (List Nat)) (nonce : List Byte) : List Byte :=
  nonce ++ Config.sha384 (y.firmware.header ++ y.firmware.body) ++ (maps.map (fun m => Config.sha384 (m.map (BitVec.ofNat 8)))).flatten
    ++ Config.fuses ++ natBytes 4 y.minCounter

/-- The repair maps of a package's dies (R400). -/
def State.repairMaps (s : State) (p : PkgKey) : List (List Nat) := (List.range 4).map (fun j => (s.die (4 * p + j)).repair)

/-- ATTEST (R408): the report, its signature, the certificate. -/
def execAttest (pkg : PkgKey) (nonce : List Byte) (s : State) : Result :=
  if s.recovering pkg then .next s
  else
    let r := attestReport (s.pkg pkg).yamus (s.repairMaps pkg) nonce
    .next (s.manage pkg (.attest r (Config.ecdsaSign pkg (Config.sha384 r)) (Config.certificate pkg)))

/-- What a package's Yamus reads now (R409). -/
def State.readings (s : State) (p : PkgKey) : Telemetry :=
  let x := s.pkg p
  { measured := Config.measured p x.yamus.refreshes, mean := Config.meanPower p x.yamus.refreshes, clock := x.step
    corr := (List.range 4).map (fun j => (s.die (4 * p + j)).elCorr), links := x.yamus.humir ++ [x.yamus.birsyn], faultCode := x.yamus.faultCode }

/-- TELEM returns the readings of the last refresh (R409). -/
def execTelem (pkg : PkgKey) (s : State) : Result :=
  if s.recovering pkg then .next s
  else .next (s.manage pkg (.telem ((s.pkg pkg).yamus.readings.getD (s.readings pkg))))

/-- SETLIM sets the limit, from 800 W to 2,600 W (R410). -/
def execSetlim (pkg : PkgKey) (watts : Nat) (s : State) : Result :=
  if s.recovering pkg then .next s
  else if watts < 800 ∨ 2600 < watts then .next (s.manage pkg .refused)
  else .next ((s.modPkg pkg (fun k => { k with lim := watts })).manage pkg .done)

/-- GETREP returns the repair map and the persistent record (R407). -/
def execGetrep (pkg : PkgKey) (s : State) : Result :=
  if s.recovering pkg then .next s else .next (s.manage pkg (.repair (s.repairMaps pkg) (s.pkg pkg).yamus.record))

/-- Other opcodes are answered with status 0xFF and have no effect (R407). -/
def execUnknownOpcode (pkg : PkgKey) (_opcode : Byte) (s : State) : Result :=
  if s.recovering pkg then .next s else .next (s.manage pkg .unknown)

/-! ### Power and clock steps (R410) -/

/-- A pod's step: the lowest clock that any of its released packages asks for (R410). -/
def State.podStep (s : State) (p0 : PkgKey) : Nat := maxOf ((s.podPkgs p0).map (fun q => (s.pkg q).asked))

/-- A package asks for a step: alone it changes at once; in a pod package 0 distributes the change with the least PCYC value that R382 allows, and each package acts at that value of its own count. -/
def State.askStep (s : State) (p : PkgKey) (step : Nat) : State :=
  let s := s.modPkg p (fun k => { k with asked := step, yamus := { k.yamus with window := 0, below := 0 } })
  let x := s.pkg p
  if x.podN = 0 then s.modPkg p (fun k => { k with step := step })
  else
    let p0 := s.pod0 p
    let w := s.pcycNow p0 + 300 * x.podDiam + 64
    (s.podPkgs p0).foldl (fun s q => s.postAt (s.cycle + (w - s.pcycNow q)) 0 (.podClockStepChange { pkg := q, step := s.podStep p0 })) s

/-- The four dies leave reset in one cycle (R406): every cycle count and time is 0 in it; a package other than 0 takes PCYC from package 0's beacon first. The pod runs at the lowest clock that any of its packages asks for (R410). -/
def execDieRelease (pkg : PkgKey) (s : State) : Result :=
  let x := s.pkg pkg
  if x.yamus.step ≠ 8 then .next s
  else if x.podPkg ≠ 0 ∧ !(s.pkg (s.pod0 pkg)).released then .next (s.postAt (s.cycle + 1) 0 (.dieRelease pkg))
  else
    let p0 := s.pod0 pkg
    let pcyc := if x.podPkg = 0 then 0 else s.pcycNow p0
    let s := s.modPkg pkg (fun k => { k with
      released := true, release := s.cycle, pcyc := BitVec.ofNat 64 pcyc, step := (s.pkg p0).step, yamus := { k.yamus with step := 9 } })
    .next (if s.podStep p0 = (s.pkg p0).step then s else s.askStep pkg (s.pkg pkg).asked)

/-- The 1 s mean exceeds the limit: one step down (R410). -/
def execClockStepDown (pkg : PkgKey) (s : State) : Result := .next (s.askStep pkg (min 5 ((s.pkg pkg).asked + 1)))

/-- The mean has stayed 5 % below the limit for 1 s: one step up (R410). -/
def execClockStepUp (pkg : PkgKey) (s : State) : Result := .next (s.askStep pkg ((s.pkg pkg).asked - 1))

/-- A temperature reaches its limit: 425 MHz (R410). -/
def execThermalLimit (pkg : PkgKey) (s : State) : Result := .next ((s.modPkg pkg (fun k => { k with hot := true })).askStep pkg 5)

/-- A package of a pod changes step at the distributed PCYC value (R410). -/
def execPodClockStepChange (m : ClockMsg) (s : State) : Result :=
  .next (s.modPkg m.pkg (fun k => if k.released then { k with step := min m.step 5 } else k))

/-- The readings are refreshed every 1 ms (R409), and the limits of R410 are judged by them. -/
def execTelemetryRefresh (pkg : PkgKey) (s : State) : Result :=
  let n := (s.pkg pkg).yamus.refreshes + 1
  let x := s.pkg pkg
  let mean := Config.meanPower pkg n
  let hot := Config.tooHot pkg n
  let s := s.modYamus pkg (fun y => { y with
    refreshes := n, window := y.window + 1, below := if 100 * mean ≤ 95 * x.lim then y.below + 1 else 0 })
  let s := s.modPkg pkg (fun k => { k with hot := k.hot && hot, yamus := { k.yamus with readings := some (s.readings pkg) } })
  let s := s.postAt (s.cycle + s.milliseconds pkg 1) 0 (.telemetryRefresh pkg)
  let y := (s.pkg pkg).yamus
  .next (
    if hot && !x.hot then s.post s.now 0 (.thermalLimit pkg)
    else if x.lim < mean && 1000 ≤ y.window && x.asked < 5 then s.post s.now 0 (.clockStepDown pkg)
    else if 1000 ≤ y.below && 0 < x.asked && !hot then s.post s.now 0 (.clockStepUp pkg)
    else s)

end Sys2Proof.Machine
end

