-- ==== Sys2Proof/Machine/Cycle.lean ====
section
/-! DEFINITION. The order of work within a cycle: waits that end, events that are due, followers' bundles, the search of every core, and the passage to the next phase or cycle with what happens periodically. Also the placing of one word where the machine fetches next. -/

namespace Sys2Proof.Machine

open Sys2Proof

/-! ### What a step takes up next -/

/-- The first word whose wait has ended, taken out of the list. -/
def takeResume (now : Nat) : List Resume → Option (Resume × List Resume)
  | [] => none
  | r :: l => if r.due ≤ now then some (r, l) else (takeResume now l).map (fun (x, l) => (x, r :: l))

/-- The word to take up again, and the state without it. -/
def State.dueResume (s : State) : Option (Resume × State) :=
  (takeResume s.now s.resumes).map (fun (r, l) => (r, { s with resumes := l }))

/-- The event that is due, and the state without it. -/
def State.dueEvent (s : State) : Option (Instr × State) :=
  match s.agenda with
  | [] => none
  | p :: l => if p.due ≤ s.now then some (p.ev, { s with agenda := l }) else none

/-- A follower's or shadow's bundle in the issue phase, and the state without it. -/
def State.dueForced (s : State) : Option (FollowMsg × State) :=
  match s.forced with
  | [] => none
  | f :: l => if s.phase = 1 then some (f, { s with forced := l }) else none

/-! ### The passage of time -/

/-- The state at the beginning of the next phase; the search starts over. -/
def State.nextPhase (s : State) : State := { s with now := s.now + 1, scanCore := 0, scanOff := 0, scanIssued := none }

/-- An event that comes before all others of this moment. -/
def State.postFirst (s : State) (ev : Instr) : State :=
  { s with agenda := { due := s.now, rank := 0, num := s.fresh, ev := ev } :: s.agenda, fresh := s.fresh + 1 }

/-- The packages whose dies run. -/
def State.running (s : State) : List PkgKey := (s.pkgs.filter (fun e => e.2.released)).map Prod.fst

/-- The packages whose cycle count is a multiple of n. -/
def State.everyN (s : State) (n : Nat) : List PkgKey := s.running.filter (fun p => s.cyc p % n = 0)

/-- The clusters whose collector examines a pool entry in this cycle (R363). -/
def State.sweeps (s : State) : List ClusterKey :=
  (s.clusters.filter (fun e => e.2.poolLen != 0 && s.cyc (pkgOfClu e.1) % 4 == 0)).map Prod.fst

/-- The beginning of a cycle: messages held behind delayed ones (R379), beacons (R382), cfgld reads (R211), floor samples (R365), refresh windows (R188), collector sweeps (R363), checkpoints (R397), the rooks, and the tagged operations whose condition holds (R118). -/
def State.beginCycle (s : State) : State :=
  let s := (s.everyN 4096).foldl State.sendBeacons s.holdLate.imageFetches
  let s := (s.everyN 4096).foldl (fun s p => s.postFirst (.floorSample p)) s
  let s := (s.everyN 2048).foldl (fun s p => s.post s.now 0 (.weightStoreRefresh p)) s
  let s := s.sweeps.foldl (fun s k => s.post s.now 0 (.collectorSweep k)) s
  let s := s.periodicCheckpoints.rooksStart
  s.coreKeys.foldl (fun s c => (s.readyTags c).foldl (fun s e => s.post s.now 0 (.taggedOperationPerformed c e)) s) s

/-- After issue: one access of every remote port that has something to serve (R254), and what fires in the rooks. -/
def State.afterIssue (s : State) : State :=
  let s := (s.cores.filter (fun e => !e.2.fifo.isEmpty || !e.2.copy.port.isEmpty)).foldl (fun s e => s.post s.now 0 (.remotePortAccess e.1)) s
  s.rooksFire

/-- The end of a cycle: writes of cluster and die registers (R21), joins whose wait passes its limit (R193), unit cycles, words of swwait, mirrored pairs (R395, R397), pre-emptions, retirements, rooks, and last the tick of R258. -/
def State.endCycle (s : State) : State :=
  let s := s.coreKeys.foldl State.tileUnitCycle s.applyWrites
  let s := s.wakeSync.mirrorEnd.joinLimits.preemptEnd.retireEnd.rooksEnd
  let s := (s.dies.filter (fun e => !e.2.elWait.isEmpty)).foldl (fun s e => s.writeLog e.1) s
  (s.running.filter (fun p => s.cyc p % 64 = 63)).foldl (fun s p => s.post s.now (2 ^ 63) (.timeTick p)) s

/-- The passage to the next phase, with what happens at its beginning. -/
def State.advance (s : State) : State :=
  match s.phase with
  | 0 => s.nextPhase
  | 1 => (s.endSearch s.scanCore).nextPhase.afterIssue
  | 2 => s.nextPhase.endCycle
  | _ => s.nextPhase.beginCycle

/-! ### Placing a word (for withFetchWord) -/

/-- A register that holds 0 and is Full. -/
def Regs.allFull : Regs :=
  { g := Vector.replicate 32 (Reg.full 0), v := Vector.replicate 16 (Reg.full 0), m := (Vector.replicate 8 (Reg.full 0)).set 0 (Reg.full 0xFFFF) }

/-- The bytes of a word and zeros, as one 64-byte sector. -/
def wordSector (w : Nat) : VWord := BitVec.ofNat 512 (w % 2 ^ 64)

/-- Slot 0 of core 0 holds a thread about to issue the bundle at 0x1_0000, mapped with R, X and U, its line in the instruction cache with a word at the front and zeros after it; nothing else is due (log 30). -/
def State.placeWord (s : State) (w : Nat) : State :=
  let sl := { s.slot 0 0 with
    occ := .thread, pc := 0x10000, byBranch := true, regs := Regs.allFull, readyAt := 0, hold := false, openSince := none
    block := none, ints := [], stopping := false, st := Status.init, gang := [] }
  let e : TlbEntry := { ctx := sl.ctx, big := false, vpn := 1, pa := 0x10000, r := true, w := true, x := true, u := true, v := false, code := true
                        uncached := false, home := 0, hcore := 0, used := 0 }
  let l : ILine := { line := 0x10000, rts := 2 ^ 64, data := [wordSector w, 0, 0, 0], used := 0 }
  let s := s.modCore 0 (fun k => { k with
    slots := k.slots.setIfInBounds 0 sl, tlb := [e], icache := [l], last := 15, stopUntil := 0, mirror := none, shadowOf := none
    reservedCycle := none, fetchFaults := [] })
  { s with
    mem := Memory.setN s.mem 0x10000 (natBytes 8 w), agenda := [], late := [], resumes := [], forced := []
    now := 4 * s.cycle + 1, scanCore := 0, scanOff := 0, scanIssued := none }

end Sys2Proof.Machine
end

