-- ==== Sys2Proof/Machine/Dispatch.lean ====
section
/-! DEFINITION. exec: one arm per constructor of Instr, each one call of that instruction's meaning. -/

namespace Sys2Proof.Machine

open Sys2Proof

def exec (i : Instr) (s : State) : Host.Outcome State Fault Refusal :=
  match i with
  | .longOperationCompletion a0 => Sys2Proof.Machine.execLongOperationCompletion a0 s
  | .fillArrival a0 => Sys2Proof.Machine.execFillArrival a0 s
  | .openWaitLimit a0 => Sys2Proof.Machine.execOpenWaitLimit a0 s
  | .interruptTaken a0 => Sys2Proof.Machine.execInterruptTaken a0 s
  | .gangFollowerIssue a0 => Sys2Proof.Machine.execGangFollowerIssue a0 s
  | .threadRetirement a0 => Sys2Proof.Machine.execThreadRetirement a0 s
  | .slotScrub a0 => Sys2Proof.Machine.execSlotScrub a0 s
  | .contextArrival a0 => Sys2Proof.Machine.execContextArrival a0 s
  | .contextInstallation a0 => Sys2Proof.Machine.execContextInstallation a0 s
  | .spillMove a0 a1 => Sys2Proof.Machine.execSpillMove a0 a1 s
  | .contextReply a0 a1 => Sys2Proof.Machine.execContextReply a0 a1 s
  | .refusalResend a0 => Sys2Proof.Machine.execRefusalResend a0 s
  | .migrationWaitLimit a0 a1 => Sys2Proof.Machine.execMigrationWaitLimit a0 a1 s
  | .contextSwitchScrub a0 a1 => Sys2Proof.Machine.execContextSwitchScrub a0 a1 s
  | .timeTick a0 => Sys2Proof.Machine.execTimeTick a0 s
  | .clusterCacheAccess a0 => Sys2Proof.Machine.execClusterCacheAccess a0 s
  | .homeLoad a0 => Sys2Proof.Machine.execHomeLoad a0 s
  | .homeStore a0 => Sys2Proof.Machine.execHomeStore a0 s
  | .storeAcknowledgement a0 => Sys2Proof.Machine.execStoreAcknowledgement a0 s
  | .atomicUnitOperation a0 => Sys2Proof.Machine.execAtomicUnitOperation a0 s
  | .reductionApply a0 => Sys2Proof.Machine.execReductionApply a0 s
  | .ordsetDeclaration a0 => Sys2Proof.Machine.execOrdsetDeclaration a0 s
  | .sliceOrderedMerge a0 => Sys2Proof.Machine.execSliceOrderedMerge a0 s
  | .reservationExpiry a0 a1 => Sys2Proof.Machine.execReservationExpiry a0 a1 s
  | .instructionLineFill a0 a1 => Sys2Proof.Machine.execInstructionLineFill a0 a1 s
  | .pageWalkCompletion a0 a1 => Sys2Proof.Machine.execPageWalkCompletion a0 a1 s
  | .remoteRequestArrival a0 => Sys2Proof.Machine.execRemoteRequestArrival a0 s
  | .remotePortAccess a0 => Sys2Proof.Machine.execRemotePortAccess a0 s
  | .taggedOperationPerformed a0 a1 => Sys2Proof.Machine.execTaggedOperationPerformed a0 a1 s
  | .taggedReply a0 a1 a2 a3 a4 => Sys2Proof.Machine.execTaggedReply a0 a1 a2 a3 a4 s
  | .taggedWaitLimit a0 a1 => Sys2Proof.Machine.execTaggedWaitLimit a0 a1 s
  | .taggedBudgetExpiry a0 a1 => Sys2Proof.Machine.execTaggedBudgetExpiry a0 a1 s
  | .taggedCancelArrival a0 a1 => Sys2Proof.Machine.execTaggedCancelArrival a0 a1 s
  | .monitorArmAcknowledgement a0 a1 a2 a3 => Sys2Proof.Machine.execMonitorArmAcknowledgement a0 a1 a2 a3 s
  | .monitorLatch a0 a1 a2 a3 => Sys2Proof.Machine.execMonitorLatch a0 a1 a2 a3 s
  | .waitTimeout a0 a1 => Sys2Proof.Machine.execWaitTimeout a0 a1 s
  | .barrierArrival a0 a1 a2 a3 => Sys2Proof.Machine.execBarrierArrival a0 a1 a2 a3 s
  | .barrierPhaseCompletion a0 => Sys2Proof.Machine.execBarrierPhaseCompletion a0 s
  | .barrierRelease a0 a1 a2 => Sys2Proof.Machine.execBarrierRelease a0 a1 a2 s
  | .barrierWaitLimit a0 a1 => Sys2Proof.Machine.execBarrierWaitLimit a0 a1 s
  | .messageArrival a0 => Sys2Proof.Machine.execMessageArrival a0 s
  | .messageReply a0 a1 => Sys2Proof.Machine.execMessageReply a0 a1 s
  | .mailboxNoticeArrival a0 a1 => Sys2Proof.Machine.execMailboxNoticeArrival a0 a1 s
  | .mailboxWaitLimit a0 a1 => Sys2Proof.Machine.execMailboxWaitLimit a0 a1 s
  | .registryRequest a0 a1 => Sys2Proof.Machine.execRegistryRequest a0 a1 s
  | .registryAnswer a0 a1 a2 a3 a4 => Sys2Proof.Machine.execRegistryAnswer a0 a1 a2 a3 a4 s
  | .floorSample a0 => Sys2Proof.Machine.execFloorSample a0 s
  | .floorApply a0 a1 => Sys2Proof.Machine.execFloorApply a0 a1 s
  | .collectorSweep a0 => Sys2Proof.Machine.execCollectorSweep a0 s
  | .transactionPrepare a0 a1 a2 => Sys2Proof.Machine.execTransactionPrepare a0 a1 a2 s
  | .transactionVotesComplete a0 a1 => Sys2Proof.Machine.execTransactionVotesComplete a0 a1 s
  | .transactionCommitApply a0 a1 a2 a3 => Sys2Proof.Machine.execTransactionCommitApply a0 a1 a2 a3 s
  | .publishMark a0 a1 => Sys2Proof.Machine.execPublishMark a0 a1 s
  | .cpubTimeBroadcast a0 a1 a2 a3 => Sys2Proof.Machine.execCpubTimeBroadcast a0 a1 a2 a3 s
  | .shootdownCompletion a0 a1 => Sys2Proof.Machine.execShootdownCompletion a0 a1 s
  | .copyCommandStart a0 => Sys2Proof.Machine.execCopyCommandStart a0 s
  | .copyBlockRead a0 => Sys2Proof.Machine.execCopyBlockRead a0 s
  | .copyBlockWrite a0 a1 a2 => Sys2Proof.Machine.execCopyBlockWrite a0 a1 a2 s
  | .copyBlockAcknowledgement a0 a1 a2 a3 => Sys2Proof.Machine.execCopyBlockAcknowledgement a0 a1 a2 a3 s
  | .syncWordWaitLimit a0 a1 => Sys2Proof.Machine.execSyncWordWaitLimit a0 a1 s
  | .tileCommandStart a0 => Sys2Proof.Machine.execTileCommandStart a0 s
  | .tileCommandCompletion a0 => Sys2Proof.Machine.execTileCommandCompletion a0 s
  | .gmmaJoin a0 => Sys2Proof.Machine.execGmmaJoin a0 s
  | .accumulatorReleaseStep a0 a1 => Sys2Proof.Machine.execAccumulatorReleaseStep a0 a1 s
  | .tileWaitLimit a0 => Sys2Proof.Machine.execTileWaitLimit a0 s
  | .weightStoreRefresh a0 => Sys2Proof.Machine.execWeightStoreRefresh a0 s
  | .drainArrival a0 => Sys2Proof.Machine.execDrainArrival a0 s
  | .drainCompletion a0 a1 => Sys2Proof.Machine.execDrainCompletion a0 a1 s
  | .callArrival a0 => Sys2Proof.Machine.execCallArrival a0 s
  | .argumentPortAccept a0 => Sys2Proof.Machine.execArgumentPortAccept a0 s
  | .resultPortTake a0 => Sys2Proof.Machine.execResultPortTake a0 s
  | .serverReply a0 a1 => Sys2Proof.Machine.execServerReply a0 a1 s
  | .serverResult a0 => Sys2Proof.Machine.execServerResult a0 s
  | .configurationLoad a0 a1 a2 => Sys2Proof.Machine.execConfigurationLoad a0 a1 a2 s
  | .configurationLoadCompletion a0 a1 => Sys2Proof.Machine.execConfigurationLoadCompletion a0 a1 s
  | .memoryPortAccess a0 a1 => Sys2Proof.Machine.execMemoryPortAccess a0 a1 s
  | .memoryPortReply a0 a1 a2 a3 a4 a5 => Sys2Proof.Machine.execMemoryPortReply a0 a1 a2 a3 a4 a5 s
  | .portTranslationRefill a0 a1 a2 => Sys2Proof.Machine.execPortTranslationRefill a0 a1 a2 s
  | .counterChainEmit a0 a1 => Sys2Proof.Machine.execCounterChainEmit a0 a1 s
  | .reductionUnitStep a0 a1 => Sys2Proof.Machine.execReductionUnitStep a0 a1 s
  | .specialFunctionStep a0 a1 => Sys2Proof.Machine.execSpecialFunctionStep a0 a1 s
  | .butterflyConversion a0 => Sys2Proof.Machine.execButterflyConversion a0 s
  | .markerPass a0 a1 => Sys2Proof.Machine.execMarkerPass a0 a1 s
  | .cellPass a0 a1 => Sys2Proof.Machine.execCellPass a0 a1 s
  | .cellAdd a0 a1 => Sys2Proof.Machine.execCellAdd a0 a1 s
  | .cellSub a0 a1 => Sys2Proof.Machine.execCellSub a0 a1 s
  | .cellMul a0 a1 => Sys2Proof.Machine.execCellMul a0 a1 s
  | .cellAnd a0 a1 => Sys2Proof.Machine.execCellAnd a0 a1 s
  | .cellOr a0 a1 => Sys2Proof.Machine.execCellOr a0 a1 s
  | .cellXor a0 a1 => Sys2Proof.Machine.execCellXor a0 a1 s
  | .cellShl a0 a1 => Sys2Proof.Machine.execCellShl a0 a1 s
  | .cellShr a0 a1 => Sys2Proof.Machine.execCellShr a0 a1 s
  | .cellSra a0 a1 => Sys2Proof.Machine.execCellSra a0 a1 s
  | .cellMin a0 a1 => Sys2Proof.Machine.execCellMin a0 a1 s
  | .cellMax a0 a1 => Sys2Proof.Machine.execCellMax a0 a1 s
  | .cellSeq a0 a1 => Sys2Proof.Machine.execCellSeq a0 a1 s
  | .cellSlt a0 a1 => Sys2Proof.Machine.execCellSlt a0 a1 s
  | .cellSltu a0 a1 => Sys2Proof.Machine.execCellSltu a0 a1 s
  | .cellSel a0 a1 => Sys2Proof.Machine.execCellSel a0 a1 s
  | .cellFaddS a0 a1 => Sys2Proof.Machine.execCellFaddS a0 a1 s
  | .cellFmulS a0 a1 => Sys2Proof.Machine.execCellFmulS a0 a1 s
  | .cellFmaS a0 a1 => Sys2Proof.Machine.execCellFmaS a0 a1 s
  | .cellFmaxS a0 a1 => Sys2Proof.Machine.execCellFmaxS a0 a1 s
  | .cellFminS a0 a1 => Sys2Proof.Machine.execCellFminS a0 a1 s
  | .cellFltS a0 a1 => Sys2Proof.Machine.execCellFltS a0 a1 s
  | .cellCbr a0 a1 => Sys2Proof.Machine.execCellCbr a0 a1 s
  | .cellSteer a0 a1 => Sys2Proof.Machine.execCellSteer a0 a1 s
  | .cellCvtSW a0 a1 => Sys2Proof.Machine.execCellCvtSW a0 a1 s
  | .cellCvtWS a0 a1 => Sys2Proof.Machine.execCellCvtWS a0 a1 s
  | .cellFnc a0 a1 => Sys2Proof.Machine.execCellFnc a0 a1 s
  | .linkTokenArrival a0 a1 a2 => Sys2Proof.Machine.execLinkTokenArrival a0 a1 a2 s
  | .linkCreditReturn a0 a1 => Sys2Proof.Machine.execLinkCreditReturn a0 a1 s
  | .streamGraphStart a0 => Sys2Proof.Machine.execStreamGraphStart a0 s
  | .phaseEnd a0 => Sys2Proof.Machine.execPhaseEnd a0 s
  | .graphSwap a0 a1 a2 a3 => Sys2Proof.Machine.execGraphSwap a0 a1 a2 a3 s
  | .arbiterFreeze a0 => Sys2Proof.Machine.execArbiterFreeze a0 s
  | .snapArrival a0 a1 a2 => Sys2Proof.Machine.execSnapArrival a0 a1 a2 s
  | .queueDoorbell a0 a1 a2 => Sys2Proof.Machine.execQueueDoorbell a0 a1 a2 s
  | .completionRingRelease a0 a1 a2 => Sys2Proof.Machine.execCompletionRingRelease a0 a1 a2 s
  | .lnchSubmission a0 => Sys2Proof.Machine.execLnchSubmission a0 s
  | .launchAdmission a0 => Sys2Proof.Machine.execLaunchAdmission a0 s
  | .placementRequest a0 => Sys2Proof.Machine.execPlacementRequest a0 s
  | .placementAnswer a0 a1 a2 => Sys2Proof.Machine.execPlacementAnswer a0 a1 a2 s
  | .launchStart a0 a1 => Sys2Proof.Machine.execLaunchStart a0 a1 s
  | .launchCompletion a0 => Sys2Proof.Machine.execLaunchCompletion a0 s
  | .completionReport a0 => Sys2Proof.Machine.execCompletionReport a0 s
  | .abort a0 a1 => Sys2Proof.Machine.execAbort a0 a1 s
  | .hcall a0 a1 a2 => Sys2Proof.Machine.execHcall a0 a1 a2 s
  | .inti a0 a1 a2 => Sys2Proof.Machine.execInti a0 a1 a2 s
  | .preempt a0 a1 => Sys2Proof.Machine.execPreempt a0 a1 s
  | .psave a0 => Sys2Proof.Machine.execPsave a0 s
  | .coreRecordWrite a0 => Sys2Proof.Machine.execCoreRecordWrite a0 s
  | .weightStoreSave a0 => Sys2Proof.Machine.execWeightStoreSave a0 s
  | .rookRecordWrite a0 => Sys2Proof.Machine.execRookRecordWrite a0 s
  | .saveHeaderWrite a0 => Sys2Proof.Machine.execSaveHeaderWrite a0 s
  | .resume a0 a1 => Sys2Proof.Machine.execResume a0 a1 s
  | .resumedThreadStart a0 => Sys2Proof.Machine.execResumedThreadStart a0 s
  | .tlbiContext a0 a1 a2 => Sys2Proof.Machine.execTlbiContext a0 a1 a2 s
  | .tlbiPage a0 a1 a2 a3 => Sys2Proof.Machine.execTlbiPage a0 a1 a2 a3 s
  | .tlbiAll a0 a1 a2 => Sys2Proof.Machine.execTlbiAll a0 a1 a2 s
  | .mboxWrite a0 a1 => Sys2Proof.Machine.execMboxWrite a0 a1 s
  | .vpoolWrite a0 a1 => Sys2Proof.Machine.execVpoolWrite a0 a1 s
  | .hostWrite a0 a1 a2 => Sys2Proof.Machine.execHostWrite a0 a1 a2 s
  | .hostRead a0 a1 a2 => Sys2Proof.Machine.execHostRead a0 a1 a2 s
  | .softError a0 => Sys2Proof.Machine.execSoftError a0 s
  | .flitReplay a0 => Sys2Proof.Machine.execFlitReplay a0 s
  | .shadowBundle a0 => Sys2Proof.Machine.execShadowBundle a0 s
  | .checkpoint a0 => Sys2Proof.Machine.execCheckpoint a0 s
  | .mirroredRollback a0 a1 a2 => Sys2Proof.Machine.execMirroredRollback a0 a1 a2 s
  | .releaseRegion a0 => Sys2Proof.Machine.execReleaseRegion a0 s
  | .retireCluster a0 => Sys2Proof.Machine.execRetireCluster a0 s
  | .retirementDone a0 => Sys2Proof.Machine.execRetirementDone a0 s
  | .lpddr6Refresh a0 a1 => Sys2Proof.Machine.execLpddr6Refresh a0 a1 s
  | .pcycBeacon a0 a1 => Sys2Proof.Machine.execPcycBeacon a0 a1 s
  | .coldReset a0 a1 => Sys2Proof.Machine.execColdReset a0 a1 s
  | .podIdentityTimeout a0 => Sys2Proof.Machine.execPodIdentityTimeout a0 s
  | .dieRelease a0 => Sys2Proof.Machine.execDieRelease a0 s
  | .status a0 => Sys2Proof.Machine.execStatus a0 s
  | .loadfw a0 a1 => Sys2Proof.Machine.execLoadfw a0 a1 s
  | .reset a0 a1 => Sys2Proof.Machine.execReset a0 a1 s
  | .attest a0 a1 => Sys2Proof.Machine.execAttest a0 a1 s
  | .telem a0 => Sys2Proof.Machine.execTelem a0 s
  | .setlim a0 a1 => Sys2Proof.Machine.execSetlim a0 a1 s
  | .setpod a0 a1 => Sys2Proof.Machine.execSetpod a0 a1 s
  | .getrep a0 => Sys2Proof.Machine.execGetrep a0 s
  | .unknownOpcode a0 a1 => Sys2Proof.Machine.execUnknownOpcode a0 a1 s
  | .telemetryRefresh a0 => Sys2Proof.Machine.execTelemetryRefresh a0 s
  | .clockStepDown a0 => Sys2Proof.Machine.execClockStepDown a0 s
  | .clockStepUp a0 => Sys2Proof.Machine.execClockStepUp a0 s
  | .thermalLimit a0 => Sys2Proof.Machine.execThermalLimit a0 s
  | .podClockStepChange a0 => Sys2Proof.Machine.execPodClockStepChange a0 s
  | .fillAcknowledgement a0 a1 => Sys2Proof.Machine.execFillAcknowledgement a0 a1 s
  | .commitAcknowledgement a0 a1 a2 => Sys2Proof.Machine.execCommitAcknowledgement a0 a1 a2 s
  | .hostWriteAcknowledgement a0 a1 a2 => Sys2Proof.Machine.execHostWriteAcknowledgement a0 a1 a2 s
  | .imageCacheInvalidation a0 a1 => Sys2Proof.Machine.execImageCacheInvalidation a0 a1 s
  | .add a0 a1 a2 => Sys2Proof.Machine.execAdd a0 a1 a2 s
  | .sub a0 a1 a2 => Sys2Proof.Machine.execSub a0 a1 a2 s
  | .and a0 a1 a2 => Sys2Proof.Machine.execAnd a0 a1 a2 s
  | .or a0 a1 a2 => Sys2Proof.Machine.execOr a0 a1 a2 s
  | .xor a0 a1 a2 => Sys2Proof.Machine.execXor a0 a1 a2 s
  | .andn a0 a1 a2 => Sys2Proof.Machine.execAndn a0 a1 a2 s
  | .sll a0 a1 a2 => Sys2Proof.Machine.execSll a0 a1 a2 s
  | .srl a0 a1 a2 => Sys2Proof.Machine.execSrl a0 a1 a2 s
  | .sra a0 a1 a2 => Sys2Proof.Machine.execSra a0 a1 a2 s
  | .slt a0 a1 a2 => Sys2Proof.Machine.execSlt a0 a1 a2 s
  | .sltu a0 a1 a2 => Sys2Proof.Machine.execSltu a0 a1 a2 s
  | .min a0 a1 a2 => Sys2Proof.Machine.execMin a0 a1 a2 s
  | .max a0 a1 a2 => Sys2Proof.Machine.execMax a0 a1 a2 s
  | .minu a0 a1 a2 => Sys2Proof.Machine.execMinu a0 a1 a2 s
  | .maxu a0 a1 a2 => Sys2Proof.Machine.execMaxu a0 a1 a2 s
  | .adds a0 a1 a2 => Sys2Proof.Machine.execAdds a0 a1 a2 s
  | .subs a0 a1 a2 => Sys2Proof.Machine.execSubs a0 a1 a2 s
  | .addi a0 a1 a2 => Sys2Proof.Machine.execAddi a0 a1 a2 s
  | .andi a0 a1 a2 => Sys2Proof.Machine.execAndi a0 a1 a2 s
  | .ori a0 a1 a2 => Sys2Proof.Machine.execOri a0 a1 a2 s
  | .xori a0 a1 a2 => Sys2Proof.Machine.execXori a0 a1 a2 s
  | .slli a0 a1 a2 => Sys2Proof.Machine.execSlli a0 a1 a2 s
  | .srli a0 a1 a2 => Sys2Proof.Machine.execSrli a0 a1 a2 s
  | .srai a0 a1 a2 => Sys2Proof.Machine.execSrai a0 a1 a2 s
  | .slti a0 a1 a2 => Sys2Proof.Machine.execSlti a0 a1 a2 s
  | .sltiu a0 a1 a2 => Sys2Proof.Machine.execSltiu a0 a1 a2 s
  | .ldi a0 a1 => Sys2Proof.Machine.execLdi a0 a1 s
  | .lsh a0 a1 => Sys2Proof.Machine.execLsh a0 a1 s
  | .mul a0 a1 a2 => Sys2Proof.Machine.execMul a0 a1 a2 s
  | .mulh a0 a1 a2 => Sys2Proof.Machine.execMulh a0 a1 a2 s
  | .mulhu a0 a1 a2 => Sys2Proof.Machine.execMulhu a0 a1 a2 s
  | .div a0 a1 a2 => Sys2Proof.Machine.execDiv a0 a1 a2 s
  | .divCk a0 a1 a2 => Sys2Proof.Machine.execDivCk a0 a1 a2 s
  | .divu a0 a1 a2 => Sys2Proof.Machine.execDivu a0 a1 a2 s
  | .divuCk a0 a1 a2 => Sys2Proof.Machine.execDivuCk a0 a1 a2 s
  | .rem a0 a1 a2 => Sys2Proof.Machine.execRem a0 a1 a2 s
  | .remCk a0 a1 a2 => Sys2Proof.Machine.execRemCk a0 a1 a2 s
  | .remu a0 a1 a2 => Sys2Proof.Machine.execRemu a0 a1 a2 s
  | .remuCk a0 a1 a2 => Sys2Proof.Machine.execRemuCk a0 a1 a2 s
  | .movz a0 a1 a2 => Sys2Proof.Machine.execMovz a0 a1 a2 s
  | .movn a0 a1 a2 => Sys2Proof.Machine.execMovn a0 a1 a2 s
  | .clz a0 a1 => Sys2Proof.Machine.execClz a0 a1 s
  | .ctz a0 a1 => Sys2Proof.Machine.execCtz a0 a1 s
  | .popc a0 a1 => Sys2Proof.Machine.execPopc a0 a1 s
  | .fadd a0 a1 a2 a3 => Sys2Proof.Machine.execFadd a0 a1 a2 a3 s
  | .fsub a0 a1 a2 a3 => Sys2Proof.Machine.execFsub a0 a1 a2 a3 s
  | .fmul a0 a1 a2 a3 => Sys2Proof.Machine.execFmul a0 a1 a2 a3 s
  | .fdiv a0 a1 a2 a3 => Sys2Proof.Machine.execFdiv a0 a1 a2 a3 s
  | .fsqrt a0 a1 a2 => Sys2Proof.Machine.execFsqrt a0 a1 a2 s
  | .fmin a0 a1 a2 a3 => Sys2Proof.Machine.execFmin a0 a1 a2 a3 s
  | .fmax a0 a1 a2 a3 => Sys2Proof.Machine.execFmax a0 a1 a2 a3 s
  | .fcsign a0 a1 a2 a3 => Sys2Proof.Machine.execFcsign a0 a1 a2 a3 s
  | .fnsign a0 a1 a2 a3 => Sys2Proof.Machine.execFnsign a0 a1 a2 a3 s
  | .fxsign a0 a1 a2 a3 => Sys2Proof.Machine.execFxsign a0 a1 a2 a3 s
  | .feq a0 a1 a2 a3 => Sys2Proof.Machine.execFeq a0 a1 a2 a3 s
  | .flt a0 a1 a2 a3 => Sys2Proof.Machine.execFlt a0 a1 a2 a3 s
  | .fle a0 a1 a2 a3 => Sys2Proof.Machine.execFle a0 a1 a2 a3 s
  | .fkind a0 a1 a2 => Sys2Proof.Machine.execFkind a0 a1 a2 s
  | .fcvt a0 a1 a2 a3 => Sys2Proof.Machine.execFcvt a0 a1 a2 a3 s
  | .fcvti a0 a1 a2 a3 => Sys2Proof.Machine.execFcvti a0 a1 a2 a3 s
  | .fcvtiu a0 a1 a2 a3 => Sys2Proof.Machine.execFcvtiu a0 a1 a2 a3 s
  | .icvtf a0 a1 a2 => Sys2Proof.Machine.execIcvtf a0 a1 a2 s
  | .ucvtf a0 a1 a2 => Sys2Proof.Machine.execUcvtf a0 a1 a2 s
  | .fmadd a0 a1 a2 a3 a4 => Sys2Proof.Machine.execFmadd a0 a1 a2 a3 a4 s
  | .fmsub a0 a1 a2 a3 a4 => Sys2Proof.Machine.execFmsub a0 a1 a2 a3 a4 s
  | .fnmadd a0 a1 a2 a3 a4 => Sys2Proof.Machine.execFnmadd a0 a1 a2 a3 a4 s
  | .fnmsub a0 a1 a2 a3 a4 => Sys2Proof.Machine.execFnmsub a0 a1 a2 a3 a4 s
  | .beq a0 a1 a2 => Sys2Proof.Machine.execBeq a0 a1 a2 s
  | .bne a0 a1 a2 => Sys2Proof.Machine.execBne a0 a1 a2 s
  | .blt a0 a1 a2 => Sys2Proof.Machine.execBlt a0 a1 a2 s
  | .bge a0 a1 a2 => Sys2Proof.Machine.execBge a0 a1 a2 s
  | .bltu a0 a1 a2 => Sys2Proof.Machine.execBltu a0 a1 a2 s
  | .bgeu a0 a1 a2 => Sys2Proof.Machine.execBgeu a0 a1 a2 s
  | .bmany a0 a1 => Sys2Proof.Machine.execBmany a0 a1 s
  | .bmnone a0 a1 => Sys2Proof.Machine.execBmnone a0 a1 s
  | .bmall a0 a1 => Sys2Proof.Machine.execBmall a0 a1 s
  | .bmnall a0 a1 => Sys2Proof.Machine.execBmnall a0 a1 s
  | .jal a0 a1 => Sys2Proof.Machine.execJal a0 a1 s
  | .jalr a0 a1 a2 => Sys2Proof.Machine.execJalr a0 a1 a2 s
  | .crr a0 a1 => Sys2Proof.Machine.execCrr a0 a1 s
  | .crw a0 a1 => Sys2Proof.Machine.execCrw a0 a1 s
  | .crs a0 a1 a2 => Sys2Proof.Machine.execCrs a0 a1 a2 s
  | .crc a0 a1 a2 => Sys2Proof.Machine.execCrc a0 a1 a2 s
  | .exit => Sys2Proof.Machine.execExit s
  | .scall a0 => Sys2Proof.Machine.execScall a0 s
  | .brk => Sys2Proof.Machine.execBrk s
  | .hret => Sys2Proof.Machine.execHret s
  | .sret => Sys2Proof.Machine.execSret s
  | .ldB a0 a1 a2 => Sys2Proof.Machine.execLdB a0 a1 a2 s
  | .ldBu a0 a1 a2 => Sys2Proof.Machine.execLdBu a0 a1 a2 s
  | .ldH a0 a1 a2 => Sys2Proof.Machine.execLdH a0 a1 a2 s
  | .ldHu a0 a1 a2 => Sys2Proof.Machine.execLdHu a0 a1 a2 s
  | .ldW a0 a1 a2 => Sys2Proof.Machine.execLdW a0 a1 a2 s
  | .ldWu a0 a1 a2 => Sys2Proof.Machine.execLdWu a0 a1 a2 s
  | .ldD a0 a1 a2 => Sys2Proof.Machine.execLdD a0 a1 a2 s
  | .stB a0 a1 a2 => Sys2Proof.Machine.execStB a0 a1 a2 s
  | .stH a0 a1 a2 => Sys2Proof.Machine.execStH a0 a1 a2 s
  | .stW a0 a1 a2 => Sys2Proof.Machine.execStW a0 a1 a2 s
  | .stD a0 a1 a2 => Sys2Proof.Machine.execStD a0 a1 a2 s
  | .ldV a0 a1 a2 => Sys2Proof.Machine.execLdV a0 a1 a2 s
  | .stV a0 a1 a2 => Sys2Proof.Machine.execStV a0 a1 a2 s
  | .vgath a0 a1 a2 a3 => Sys2Proof.Machine.execVgath a0 a1 a2 a3 s
  | .vscat a0 a1 a2 a3 => Sys2Proof.Machine.execVscat a0 a1 a2 a3 s
  | .ldfe a0 a1 a2 a3 => Sys2Proof.Machine.execLdfe a0 a1 a2 a3 s
  | .ldff a0 a1 a2 a3 => Sys2Proof.Machine.execLdff a0 a1 a2 a3 s
  | .stfe a0 a1 a2 a3 => Sys2Proof.Machine.execStfe a0 a1 a2 a3 s
  | .stf a0 a1 a2 a3 => Sys2Proof.Machine.execStf a0 a1 a2 a3 s
  | .ste a0 a1 a2 a3 => Sys2Proof.Machine.execSte a0 a1 a2 a3 s
  | .ldBuAcq a0 a1 a2 a3 => Sys2Proof.Machine.execLdBuAcq a0 a1 a2 a3 s
  | .ldHuAcq a0 a1 a2 a3 => Sys2Proof.Machine.execLdHuAcq a0 a1 a2 a3 s
  | .ldWuAcq a0 a1 a2 a3 => Sys2Proof.Machine.execLdWuAcq a0 a1 a2 a3 s
  | .ldDAcq a0 a1 a2 a3 => Sys2Proof.Machine.execLdDAcq a0 a1 a2 a3 s
  | .stBRel a0 a1 a2 a3 => Sys2Proof.Machine.execStBRel a0 a1 a2 a3 s
  | .stHRel a0 a1 a2 a3 => Sys2Proof.Machine.execStHRel a0 a1 a2 a3 s
  | .stWRel a0 a1 a2 a3 => Sys2Proof.Machine.execStWRel a0 a1 a2 a3 s
  | .stDRel a0 a1 a2 a3 => Sys2Proof.Machine.execStDRel a0 a1 a2 a3 s
  | .amoAdd a0 a1 a2 a3 a4 => Sys2Proof.Machine.execAmoAdd a0 a1 a2 a3 a4 s
  | .amoAnd a0 a1 a2 a3 a4 => Sys2Proof.Machine.execAmoAnd a0 a1 a2 a3 a4 s
  | .amoOr a0 a1 a2 a3 a4 => Sys2Proof.Machine.execAmoOr a0 a1 a2 a3 a4 s
  | .amoXor a0 a1 a2 a3 a4 => Sys2Proof.Machine.execAmoXor a0 a1 a2 a3 a4 s
  | .amoMax a0 a1 a2 a3 a4 => Sys2Proof.Machine.execAmoMax a0 a1 a2 a3 a4 s
  | .amoMin a0 a1 a2 a3 a4 => Sys2Proof.Machine.execAmoMin a0 a1 a2 a3 a4 s
  | .amoSwap a0 a1 a2 a3 a4 => Sys2Proof.Machine.execAmoSwap a0 a1 a2 a3 a4 s
  | .amoFadd a0 a1 a2 a3 a4 => Sys2Proof.Machine.execAmoFadd a0 a1 a2 a3 a4 s
  | .amoMaxu a0 a1 a2 a3 a4 => Sys2Proof.Machine.execAmoMaxu a0 a1 a2 a3 a4 s
  | .amoMinu a0 a1 a2 a3 a4 => Sys2Proof.Machine.execAmoMinu a0 a1 a2 a3 a4 s
  | .amoFmax a0 a1 a2 a3 a4 => Sys2Proof.Machine.execAmoFmax a0 a1 a2 a3 a4 s
  | .amoFmin a0 a1 a2 a3 a4 => Sys2Proof.Machine.execAmoFmin a0 a1 a2 a3 a4 s
  | .lres a0 a1 a2 a3 => Sys2Proof.Machine.execLres a0 a1 a2 a3 s
  | .scnd a0 a1 a2 a3 a4 => Sys2Proof.Machine.execScnd a0 a1 a2 a3 a4 s
  | .cas a0 a1 a2 a3 a4 => Sys2Proof.Machine.execCas a0 a1 a2 a3 a4 s
  | .red a0 a1 a2 a3 a4 a5 => Sys2Proof.Machine.execRed a0 a1 a2 a3 a4 a5 s
  | .redo a0 a1 a2 => Sys2Proof.Machine.execRedo a0 a1 a2 s
  | .ordset a0 a1 a2 => Sys2Proof.Machine.execOrdset a0 a1 a2 s
  | .fence a0 a1 => Sys2Proof.Machine.execFence a0 a1 s
  | .cpub a0 a1 a2 => Sys2Proof.Machine.execCpub a0 a1 a2 s
  | .barArr a0 a1 a2 => Sys2Proof.Machine.execBarArr a0 a1 a2 s
  | .barWt a0 a1 => Sys2Proof.Machine.execBarWt a0 a1 s
  | .bar a0 a1 a2 => Sys2Proof.Machine.execBar a0 a1 a2 s
  | .mon a0 a1 => Sys2Proof.Machine.execMon a0 a1 s
  | .monx => Sys2Proof.Machine.execMonx s
  | .wait a0 => Sys2Proof.Machine.execWait a0 s
  | .fill a0 a1 => Sys2Proof.Machine.execFill a0 a1 s
  | .openReg a0 => Sys2Proof.Machine.execOpenReg a0 s
  | .msend a0 a1 => Sys2Proof.Machine.execMsend a0 a1 s
  | .mrecv a0 a1 a2 => Sys2Proof.Machine.execMrecv a0 a1 a2 s
  | .mpoll a0 a1 a2 => Sys2Proof.Machine.execMpoll a0 a1 a2 s
  | .spawn a0 a1 a2 => Sys2Proof.Machine.execSpawn a0 a1 a2 s
  | .mig a0 => Sys2Proof.Machine.execMig a0 s
  | .gang a0 a1 => Sys2Proof.Machine.execGang a0 a1 s
  | .split => Sys2Proof.Machine.execSplit s
  | .cfgld a0 a1 => Sys2Proof.Machine.execCfgld a0 a1 s
  | .lnch a0 a1 => Sys2Proof.Machine.execLnch a0 a1 s
  | .snap a0 => Sys2Proof.Machine.execSnap a0 s
  | .snend => Sys2Proof.Machine.execSnend s
  | .txb a0 => Sys2Proof.Machine.execTxb a0 s
  | .txc a0 => Sys2Proof.Machine.execTxc a0 s
  | .txa => Sys2Proof.Machine.execTxa s
  | .mma a0 a1 a2 => Sys2Proof.Machine.execMma a0 a1 a2 s
  | .gmma a0 a1 a2 => Sys2Proof.Machine.execGmma a0 a1 a2 s
  | .mmas a0 a1 a2 => Sys2Proof.Machine.execMmas a0 a1 a2 s
  | .mzero a0 => Sys2Proof.Machine.execMzero a0 s
  | .mdrain a0 a1 a2 => Sys2Proof.Machine.execMdrain a0 a1 a2 s
  | .mdrainZ a0 a1 a2 => Sys2Proof.Machine.execMdrainZ a0 a1 a2 s
  | .mdrainRel a0 a1 a2 => Sys2Proof.Machine.execMdrainRel a0 a1 a2 s
  | .mvaToVector a0 a1 a2 => Sys2Proof.Machine.execMvaToVector a0 a1 a2 s
  | .mvaToAccumulator a0 a1 a2 => Sys2Proof.Machine.execMvaToAccumulator a0 a1 a2 s
  | .mwait a0 => Sys2Proof.Machine.execMwait a0 s
  | .mwaitRel a0 => Sys2Proof.Machine.execMwaitRel a0 s
  | .cpy a0 a1 a2 => Sys2Proof.Machine.execCpy a0 a1 a2 s
  | .cpy2 a0 a1 a2 => Sys2Proof.Machine.execCpy2 a0 a1 a2 s
  | .gath a0 a1 a2 => Sys2Proof.Machine.execGath a0 a1 a2 s
  | .scat a0 a1 a2 => Sys2Proof.Machine.execScat a0 a1 a2 s
  | .wsld a0 a1 a2 => Sys2Proof.Machine.execWsld a0 a1 a2 s
  | .cwait a0 => Sys2Proof.Machine.execCwait a0 s
  | .gres => Sys2Proof.Machine.execGres s
  | .gcan => Sys2Proof.Machine.execGcan s
  | .swset a0 a1 => Sys2Proof.Machine.execSwset a0 a1 s
  | .swwait a0 a1 a2 => Sys2Proof.Machine.execSwwait a0 a1 a2 s
  | .serve a0 a1 a2 a3 => Sys2Proof.Machine.execServe a0 a1 a2 a3 s
  | .servn a0 a1 a2 a3 => Sys2Proof.Machine.execServn a0 a1 a2 a3 s
  | .vbcst a0 a1 a2 => Sys2Proof.Machine.execVbcst a0 a1 a2 s
  | .vins a0 a1 a2 => Sys2Proof.Machine.execVins a0 a1 a2 s
  | .vext a0 a1 a2 => Sys2Proof.Machine.execVext a0 a1 a2 s
  | .vexts a0 a1 a2 => Sys2Proof.Machine.execVexts a0 a1 a2 s
  | .mtm a0 a1 => Sys2Proof.Machine.execMtm a0 a1 s
  | .mfm a0 a1 => Sys2Proof.Machine.execMfm a0 a1 s
  | .mpopc a0 a1 => Sys2Proof.Machine.execMpopc a0 a1 s
  | .mffs a0 a1 => Sys2Proof.Machine.execMffs a0 a1 s
  | .vfaddS a0 a1 a2 a3 => Sys2Proof.Machine.execVfaddS a0 a1 a2 a3 s
  | .vfsubS a0 a1 a2 a3 => Sys2Proof.Machine.execVfsubS a0 a1 a2 a3 s
  | .vfmulS a0 a1 a2 a3 => Sys2Proof.Machine.execVfmulS a0 a1 a2 a3 s
  | .vfdivS a0 a1 a2 a3 => Sys2Proof.Machine.execVfdivS a0 a1 a2 a3 s
  | .vfsqrtS a0 a1 a2 => Sys2Proof.Machine.execVfsqrtS a0 a1 a2 s
  | .vfminS a0 a1 a2 a3 => Sys2Proof.Machine.execVfminS a0 a1 a2 a3 s
  | .vfmaxS a0 a1 a2 a3 => Sys2Proof.Machine.execVfmaxS a0 a1 a2 a3 s
  | .vfcsignS a0 a1 a2 a3 => Sys2Proof.Machine.execVfcsignS a0 a1 a2 a3 s
  | .vfnsignS a0 a1 a2 a3 => Sys2Proof.Machine.execVfnsignS a0 a1 a2 a3 s
  | .vfxsignS a0 a1 a2 a3 => Sys2Proof.Machine.execVfxsignS a0 a1 a2 a3 s
  | .vadd a0 a1 a2 a3 => Sys2Proof.Machine.execVadd a0 a1 a2 a3 s
  | .vsub a0 a1 a2 a3 => Sys2Proof.Machine.execVsub a0 a1 a2 a3 s
  | .vmul a0 a1 a2 a3 => Sys2Proof.Machine.execVmul a0 a1 a2 a3 s
  | .vand a0 a1 a2 a3 => Sys2Proof.Machine.execVand a0 a1 a2 a3 s
  | .vor a0 a1 a2 a3 => Sys2Proof.Machine.execVor a0 a1 a2 a3 s
  | .vxor a0 a1 a2 a3 => Sys2Proof.Machine.execVxor a0 a1 a2 a3 s
  | .vsll a0 a1 a2 a3 => Sys2Proof.Machine.execVsll a0 a1 a2 a3 s
  | .vsrl a0 a1 a2 a3 => Sys2Proof.Machine.execVsrl a0 a1 a2 a3 s
  | .vsra a0 a1 a2 a3 => Sys2Proof.Machine.execVsra a0 a1 a2 a3 s
  | .vmin a0 a1 a2 a3 => Sys2Proof.Machine.execVmin a0 a1 a2 a3 s
  | .vmax a0 a1 a2 a3 => Sys2Proof.Machine.execVmax a0 a1 a2 a3 s
  | .vminu a0 a1 a2 a3 => Sys2Proof.Machine.execVminu a0 a1 a2 a3 s
  | .vmaxu a0 a1 a2 a3 => Sys2Proof.Machine.execVmaxu a0 a1 a2 a3 s
  | .vadds a0 a1 a2 a3 => Sys2Proof.Machine.execVadds a0 a1 a2 a3 s
  | .vsubs a0 a1 a2 a3 => Sys2Proof.Machine.execVsubs a0 a1 a2 a3 s
  | .vfmaddS a0 a1 a2 a3 a4 => Sys2Proof.Machine.execVfmaddS a0 a1 a2 a3 a4 s
  | .vfeqS a0 a1 a2 a3 => Sys2Proof.Machine.execVfeqS a0 a1 a2 a3 s
  | .vfltS a0 a1 a2 a3 => Sys2Proof.Machine.execVfltS a0 a1 a2 a3 s
  | .vfleS a0 a1 a2 a3 => Sys2Proof.Machine.execVfleS a0 a1 a2 a3 s
  | .veq a0 a1 a2 a3 => Sys2Proof.Machine.execVeq a0 a1 a2 a3 s
  | .vne a0 a1 a2 a3 => Sys2Proof.Machine.execVne a0 a1 a2 a3 s
  | .vlt a0 a1 a2 a3 => Sys2Proof.Machine.execVlt a0 a1 a2 a3 s
  | .vle a0 a1 a2 a3 => Sys2Proof.Machine.execVle a0 a1 a2 a3 s
  | .vltu a0 a1 a2 a3 => Sys2Proof.Machine.execVltu a0 a1 a2 a3 s
  | .vleu a0 a1 a2 a3 => Sys2Proof.Machine.execVleu a0 a1 a2 a3 s
  | .mand a0 a1 a2 => Sys2Proof.Machine.execMand a0 a1 a2 s
  | .mor a0 a1 a2 => Sys2Proof.Machine.execMor a0 a1 a2 s
  | .mxor a0 a1 a2 => Sys2Proof.Machine.execMxor a0 a1 a2 s
  | .mandn a0 a1 a2 => Sys2Proof.Machine.execMandn a0 a1 a2 s
  | .mnot a0 a1 => Sys2Proof.Machine.execMnot a0 a1 s
  | .vcvtWS a0 a1 a2 => Sys2Proof.Machine.execVcvtWS a0 a1 a2 s
  | .vcvtWuS a0 a1 a2 => Sys2Proof.Machine.execVcvtWuS a0 a1 a2 s
  | .vcvtSW a0 a1 a2 => Sys2Proof.Machine.execVcvtSW a0 a1 a2 s
  | .vcvtSWu a0 a1 a2 => Sys2Proof.Machine.execVcvtSWu a0 a1 a2 s
  | .vcvtHS a0 a1 a2 => Sys2Proof.Machine.execVcvtHS a0 a1 a2 s
  | .vcvtBfS a0 a1 a2 => Sys2Proof.Machine.execVcvtBfS a0 a1 a2 s
  | .vcvtSHLo a0 a1 a2 => Sys2Proof.Machine.execVcvtSHLo a0 a1 a2 s
  | .vcvtSHHi a0 a1 a2 => Sys2Proof.Machine.execVcvtSHHi a0 a1 a2 s
  | .vcvtSBfLo a0 a1 a2 => Sys2Proof.Machine.execVcvtSBfLo a0 a1 a2 s
  | .vcvtSBfHi a0 a1 a2 => Sys2Proof.Machine.execVcvtSBfHi a0 a1 a2 s
  | .vquantTap8P0 a0 a1 a2 => Sys2Proof.Machine.execVquantTap8P0 a0 a1 a2 s
  | .vquantTap8P1 a0 a1 a2 => Sys2Proof.Machine.execVquantTap8P1 a0 a1 a2 s
  | .vquantTap6P0 a0 a1 a2 => Sys2Proof.Machine.execVquantTap6P0 a0 a1 a2 s
  | .vquantTap6P1 a0 a1 a2 => Sys2Proof.Machine.execVquantTap6P1 a0 a1 a2 s
  | .vdeqTap8Q0 a0 a1 a2 a3 => Sys2Proof.Machine.execVdeqTap8Q0 a0 a1 a2 a3 s
  | .vdeqTap8Q1 a0 a1 a2 a3 => Sys2Proof.Machine.execVdeqTap8Q1 a0 a1 a2 a3 s
  | .vdeqTap8Q2 a0 a1 a2 a3 => Sys2Proof.Machine.execVdeqTap8Q2 a0 a1 a2 a3 s
  | .vdeqTap8Q3 a0 a1 a2 a3 => Sys2Proof.Machine.execVdeqTap8Q3 a0 a1 a2 a3 s
  | .vdeqTap6Q0 a0 a1 a2 a3 => Sys2Proof.Machine.execVdeqTap6Q0 a0 a1 a2 a3 s
  | .vdeqTap6Q1 a0 a1 a2 a3 => Sys2Proof.Machine.execVdeqTap6Q1 a0 a1 a2 a3 s
  | .vdeqTap6Q2 a0 a1 a2 a3 => Sys2Proof.Machine.execVdeqTap6Q2 a0 a1 a2 a3 s
  | .vdeqTap6Q3 a0 a1 a2 a3 => Sys2Proof.Machine.execVdeqTap6Q3 a0 a1 a2 a3 s
  | .vdeqTap6Q4 a0 a1 a2 a3 => Sys2Proof.Machine.execVdeqTap6Q4 a0 a1 a2 a3 s
  | .vcnzB a0 a1 a2 => Sys2Proof.Machine.execVcnzB a0 a1 a2 s
  | .vcnzTap6 a0 a1 a2 => Sys2Proof.Machine.execVcnzTap6 a0 a1 a2 s
  | .vcnzH a0 a1 a2 => Sys2Proof.Machine.execVcnzH a0 a1 a2 s
  | .vcnzS a0 a1 a2 => Sys2Proof.Machine.execVcnzS a0 a1 a2 s
  | .vcnzW a0 a1 a2 => Sys2Proof.Machine.execVcnzW a0 a1 a2 s
  | .vredFaddS a0 a1 a2 => Sys2Proof.Machine.execVredFaddS a0 a1 a2 s
  | .vredFminS a0 a1 a2 => Sys2Proof.Machine.execVredFminS a0 a1 a2 s
  | .vredFmaxS a0 a1 a2 => Sys2Proof.Machine.execVredFmaxS a0 a1 a2 s
  | .vredAdd a0 a1 a2 => Sys2Proof.Machine.execVredAdd a0 a1 a2 s
  | .vredMin a0 a1 a2 => Sys2Proof.Machine.execVredMin a0 a1 a2 s
  | .vredMax a0 a1 a2 => Sys2Proof.Machine.execVredMax a0 a1 a2 s
  | .vredMinu a0 a1 a2 => Sys2Proof.Machine.execVredMinu a0 a1 a2 s
  | .vredMaxu a0 a1 a2 => Sys2Proof.Machine.execVredMaxu a0 a1 a2 s
  | .vredAnd a0 a1 a2 => Sys2Proof.Machine.execVredAnd a0 a1 a2 s
  | .vredOr a0 a1 a2 => Sys2Proof.Machine.execVredOr a0 a1 a2 s
  | .vredXor a0 a1 a2 => Sys2Proof.Machine.execVredXor a0 a1 a2 s
  | .vperm a0 a1 a2 a3 => Sys2Proof.Machine.execVperm a0 a1 a2 a3 s
  | .vrot a0 a1 a2 a3 => Sys2Proof.Machine.execVrot a0 a1 a2 a3 s
  | .vmerge a0 a1 a2 a3 => Sys2Proof.Machine.execVmerge a0 a1 a2 a3 s
  | .vfrecipS a0 a1 a2 => Sys2Proof.Machine.execVfrecipS a0 a1 a2 s
  | .vfrsqrtS a0 a1 a2 => Sys2Proof.Machine.execVfrsqrtS a0 a1 a2 s
  | .vfexp2S a0 a1 a2 => Sys2Proof.Machine.execVfexp2S a0 a1 a2 s
  | .vflog2S a0 a1 a2 => Sys2Proof.Machine.execVflog2S a0 a1 a2 s

end Sys2Proof.Machine
end

