-- ==== Sys2Proof/Machine/Step.lean ====
section
/-! DEFINITION. step: one word taken up again, one event, one follower's bundle, one slot examined in the search of the cores, or the passage to the next phase; and the placing of a word where step fetches next. -/

namespace Sys2Proof.Machine

open Sys2Proof

/-- One step of the machine. -/
noncomputable def step (s : State) : Host.Outcome State Fault Refusal :=
  match s.dueResume with
  | some (r, s) => runResume exec r s
  | none =>
    match s.dueEvent with
    | some (e, s) => exec e s
    | none =>
      match s.dueForced with
      | some (f, s) => runForced exec f s
      | none =>
        if s.phase = 1 then (scanStep exec s).getD (.next s.advance) else .next s.advance

/-- The state with the instruction whose bits are w placed where step fetches its next bundle (log 30). -/
def State.withFetchWord (s : State) (nbits w : Nat) : State := s.placeWord (w % 2 ^ min nbits 32)

end Sys2Proof.Machine
end

