-- ==== Sys2Proof/Safety.lean ====
section
/-! DEFINITION. The terms in which claims are stated: runs and safe ones, what a step leaves unchanged, and how the results of instructions are read back. -/

namespace Sys2Proof

open Sys2Proof.Machine

/-! ### Runs -/

/-- The state after n steps, when none of them stops. -/
noncomputable def run : Nat → State → Option State
  | 0, s => some s
  | n + 1, s => match step s with
    | .next t => run n t
    | _ => none

/-- Every byte memory of a state has the canonical form. -/
def memoriesWf (s : State) : Prop :=
  Memory.wf s.mem = true ∧ (∀ c ∈ s.cores, Memory.wf c.2.spad = true) ∧ (∀ k ∈ s.clusters, Memory.wf k.2.weights = true)

/-- A run of n steps is safe: it does not stop, and ends with its memories in canonical form. -/
def Safe (s : State) (n : Nat) : Prop := ∃ t, run n s = some t ∧ memoriesWf t

/-! ### What stays as it was -/

/-- A register of the running thread reads the same in both states: value, tag and mark. -/
def SameReg (s t : State) : RegName → Prop
  | .g n => t.me.regs.getG n = s.me.regs.getG n
  | .v n => t.me.regs.getV n = s.me.regs.getV n
  | .m n => t.me.regs.getM n = s.me.regs.getM n

/-- Every byte of global memory reads the same. -/
def SameMemory (s t : State) : Prop := ∀ a, Memory.get t.mem a = Memory.get s.mem a

/-- Only the running thread's slot may differ: every other slot, everything else of every core (scratchpad, accumulators, TLBs, queues), every cluster, die and package, and every byte of memory are as before. -/
def OnlyMySlot (s t : State) : Prop :=
  (∀ c i, c ≠ s.cur.core ∨ i ≠ s.cur.slot → t.slot c i = s.slot c i)
  ∧ (∀ c, { t.core c with slots := (s.core c).slots } = s.core c)
  ∧ { t with cores := s.cores } = s ∧ SameMemory s t

/-- Only registers of a list may differ: every other register of the running thread, its control registers, flags, PC and all the rest of its slot, and all that OnlyMySlot names are as before. -/
def OnlyRegs (s t : State) (ds : List RegName) : Prop :=
  (∀ r, r ∉ ds → SameReg s t r) ∧ { t.me with regs := s.me.regs } = s.me ∧ OnlyMySlot s t

/-- Only registers of a list and the exception flags of cr.fcsr may differ. -/
def OnlyRegsFlags (s t : State) (ds : List RegName) : Prop :=
  (∀ r, r ∉ ds → SameReg s t r) ∧ { t.me with regs := s.me.regs, fcsr := s.me.fcsr } = s.me
  ∧ { t.me.fcsr with nv := s.me.fcsr.nv, dz := s.me.fcsr.dz, of := s.me.fcsr.of, uf := s.me.fcsr.uf, nx := s.me.fcsr.nx } = s.me.fcsr
  ∧ OnlyMySlot s t

/-- Only the PC of the running thread may differ, and whether a branch set it. -/
def OnlyPc (s t : State) : Prop := { t.me with pc := s.me.pc, byBranch := s.me.byBranch } = s.me ∧ OnlyMySlot s t

/-! ### Results -/

/-- The instruction answers a next state in which gd reads x and is Full without a mark, a write to g0 being discarded, and only gd may differ (R9, R11, R24). -/
def GivesG (s : State) (i : Instr) (d : Fin 32) (x : Word) : Prop :=
  ∃ t, exec i s = .next t ∧ t.me.regs.getG d = Reg.full (if d = 0 then 0 else x) ∧ OnlyRegs s t [.g d]

/-- As GivesG, for a v register. -/
def GivesV (s : State) (i : Instr) (d : Fin 16) (x : VWord) : Prop :=
  ∃ t, exec i s = .next t ∧ t.me.regs.getV d = Reg.full x ∧ OnlyRegs s t [.v d]

/-- As GivesG, for an m register; m0 reads 0xFFFF (R9). -/
def GivesM (s : State) (i : Instr) (d : Fin 8) (x : MWord) : Prop :=
  ∃ t, exec i s = .next t ∧ t.me.regs.getM d = Reg.full (if d = 0 then 0xFFFF else x) ∧ OnlyRegs s t [.m d]

/-- As GivesG, with flags ORed into cr.fcsr (R34). -/
def GivesGFlags (s : State) (i : Instr) (d : Fin 32) (x : Word) (f : Flags) : Prop :=
  ∃ t, exec i s = .next t ∧ t.me.regs.getG d = Reg.full (if d = 0 then 0 else x) ∧ t.me.fcsr = s.me.fcsr.raise f ∧ OnlyRegsFlags s t [.g d]

/-- As GivesV, with flags ORed into cr.fcsr. -/
def GivesVFlags (s : State) (i : Instr) (d : Fin 16) (x : VWord) (f : Flags) : Prop :=
  ∃ t, exec i s = .next t ∧ t.me.regs.getV d = Reg.full x ∧ t.me.fcsr = s.me.fcsr.raise f ∧ OnlyRegsFlags s t [.v d]

/-- As GivesM, with flags ORed into cr.fcsr. -/
def GivesMFlags (s : State) (i : Instr) (d : Fin 8) (x : MWord) (f : Flags) : Prop :=
  ∃ t, exec i s = .next t ∧ t.me.regs.getM d = Reg.full (if d = 0 then 0xFFFF else x) ∧ t.me.fcsr = s.me.fcsr.raise f ∧ OnlyRegsFlags s t [.m d]

/-- The completion of a long operation of the running thread stands in the agenda for a cycle, with its result (R28). -/
def Completes (s t : State) (cycle : Nat) (d : RegName) (x : VWord) : Prop :=
  ∃ p ∈ t.agenda, p.due = 4 * cycle ∧ ∃ m, p.ev = .longOperationCompletion m ∧ m.thread = s.meRef ∧ m.dst = d ∧ m.val = x ∧ m.mark = none
    ∧ ∃ o ∈ t.me.out, o.id = m.id

/-- The instruction answers a next state in which its destination is Pending with its old value, its result comes after L cycles (R11, R28), flags are ORed into cr.fcsr, and of the running thread only the destination, the flags and the list of outstanding operations differ, of the rest only the agenda and the number of operations. -/
def GivesLong (s : State) (i : Instr) (L : Nat) (d : RegName) (x : VWord) (f : Flags) : Prop :=
  ∃ t, exec i s = .next t ∧ t.me.regs = s.me.regs.retag .pending d ∧ Completes s t (s.cycle + L) d x
    ∧ t.me.fcsr = s.me.fcsr.raise f
    ∧ { t.me with regs := s.me.regs, fcsr := s.me.fcsr, out := s.me.out } = s.me
    ∧ OnlyMySlot s { t with agenda := s.agenda, fresh := s.fresh }

/-- A floating-point result: Full at latency 8, or after 16 cycles where binary64 takes part (R76). -/
def GivesFp (s : State) (i : Instr) (d : Fin 32) (wide : Prop) (r : Nat × Flags) : Prop :=
  (¬ wide → GivesGFlags s i d (BitVec.ofNat 64 r.1) r.2)
  ∧ (wide → GivesLong s i 16 (.g d) ((BitVec.ofNat 64 r.1).setWidth 512) r.2)

/-- A lane-wise result: every enabled lane of vd holds its value, the others keep theirs, a Void destination's counting 0 (R14), and the flags of the enabled lanes are ORed into cr.fcsr (R157). -/
def GivesLanes (s : State) (i : Instr) (d : Fin 16) (mk : Fin 8) (f : Nat → BitVec 32 × Flags) : Prop :=
  ∃ v fl, GivesVFlags s i d v fl
    ∧ (∀ k < 16, lane v k = if (s.mval mk).getLsbD k then (f k).1 else if (s.cur.regs.getV d).tag = .void then 0 else lane (s.cur.regs.getV d).val k)
    ∧ fl = ((List.range 16).filter (fun k => (s.mval mk).getLsbD k)).foldl (fun a k => a.or (f k).2) Flags.none

/-- A mask result: bit k of every enabled lane, the others kept, a Void destination's counting 0 (R14, R159), with flags. -/
def GivesBits (s : State) (i : Instr) (d mk : Fin 8) (f : Nat → Bool × Flags) : Prop :=
  ∃ v fl, GivesMFlags s i d v fl
    ∧ (∀ k < 16, v.getLsbD k = if (s.mval mk).getLsbD k then (f k).1 else if (s.cur.regs.getM d).tag = .void then false else (s.cur.regs.getM d).val.getLsbD k)
    ∧ fl = ((List.range 16).filter (fun k => (s.mval mk).getLsbD k)).foldl (fun a k => a.or (f k).2) Flags.none

/-- The instruction answers a next state in which nothing differs. -/
def GivesNothing (s : State) (i : Instr) : Prop := exec i s = .next s

/-- A branch or jump: the PC becomes its target when it is taken and stays at the next bundle otherwise (R53, R92). -/
def GivesBranch (s : State) (i : Instr) (taken : Prop) (target : Word) : Prop :=
  ∃ t, exec i s = .next t ∧ OnlyPc s t
    ∧ (taken → t.me.pc = target ∧ t.me.byBranch = true) ∧ (¬ taken → t.me.pc = s.me.pc ∧ t.me.byBranch = s.me.byBranch)

/-- A word whose bits 1:0 are 0 (R17). -/
def clear2 (w : Word) : Word := BitVec.ofNat 64 (w.toNat / 4 * 4)
/-- A word whose bits 2:0 are 0 (R17, R224). -/
def clear3 (w : Word) : Word := BitVec.ofNat 64 (w.toNat / 8 * 8)
/-- The low n bits of a word. -/
def lowBits (n : Nat) (w : Word) : Word := BitVec.ofNat 64 (w.toNat % 2 ^ n)

/-- What a read of a stored slot-scoped register of user mode gives after w has been written into it (R17, R20, R224), for the registers that hold w with some bits cleared; cr.epc keeps the bits that a PC has (R8). -/
def userRegister : List (BitVec 12 × (Word → Word)) :=
  [(0x010, lowBits 9), (0x011, fun w => BitVec.ofNat 64 (w.toNat % 2 ^ 55 / 4 * 4)), (0x012, id), (0x013, id), (0x014, clear3), (0x015, id)
  , (0x020, lowBits 3), (0x021, lowBits 18), (0x022, lowBits 11), (0x040, lowBits 32), (0x041, lowBits 32)]

/-- The same for the registers of supervisor mode (R224, R225). -/
def supervisorRegister : List (BitVec 12 × (Word → Word)) :=
  [(0x110, lowBits 9), (0x111, clear2), (0x112, id), (0x113, id), (0x114, clear3), (0x115, id), (0x116, lowBits 2)
  , (0x117, fun w => lowBits 12 w + 0xF000)]

/-! ### Exceptions -/

/-- The running thread has a slot of its core, which holds no wait while a bundle of it executes, leads and follows no gang, and its core is no member of a mirrored pair: a trap acts on its slot alone. -/
def Alone (s : State) : Prop := s.cur.slot < 16 ∧ s.me.st.role = .independent ∧ s.myCore.mirror = none ∧ s.me.block = none

/-- A cause goes to the user handler (R222): below 0x180, its class not delegated, cr.tvec not 0, and no handler running. -/
def UserTrap (sl : Slot) (cause : Nat) : Prop := cause < 0x180 ∧ sl.sdeleg.getLsbD (cause / 32) = false ∧ sl.tvec ≠ 0 ∧ sl.st.intrap = false

/-- The slot after user delivery in a cycle (R222): cause, return address without bits 63:55, cr.tval and cr.tinf saved, INTRAP set, the PC at cr.tvec, 8 cycles to the handler's first bundle; every other register kept and every wait given up. -/
def userEntry (sl : Slot) (ret : Word) (cause : Nat) (tval tinf : Word) (cycle : Nat) : Slot :=
  { sl with
    cause := BitVec.ofNat 9 cause, epc := ret &&& 0x7FFFFFFFFFFFFF, tval := tval, tinf := tinf, st := { sl.st with intrap := true }
    pc := sl.tvec, byBranch := true, readyAt := cycle + 8, openSince := none, parkLimit := none, block := none, hold := false }

/-- The slot after supervisor delivery in a cycle (R223): the s registers saved, PSUP and PIE from SUP and IE, SUP 1 and IE 0, the PC at cr.svec. -/
def supervisorEntry (sl : Slot) (ret : Word) (cause : Nat) (tval tinf : Word) (cycle : Nat) : Slot :=
  { sl with
    scause := BitVec.ofNat 9 cause, sepc := ret, stval := tval, stinf := tinf, psup := sl.st.sup, pie := sl.st.ie
    st := { sl.st with sup := true, ie := false }
    pc := sl.svec, byBranch := true, readyAt := cycle + 8, openSince := none, parkLimit := none, block := none, hold := false }

/-- The running thread of user mode has taken a trap of a cause with a return address (R216, R222, R223): its slot is at the handler's entry, and nothing else differs but how the bundle in the latch stands. -/
def TookTrap (s t : State) (ret : Word) (cause : Nat) (tval tinf : Word) : Prop :=
  (UserTrap s.me cause → t.me = userEntry s.me ret cause tval tinf s.cycle)
  ∧ (¬ UserTrap s.me cause → t.me = supervisorEntry s.me ret cause tval tinf s.cycle)
  ∧ t.cur.status = .trapped ∧ OnlyMySlot s { t with cur := s.cur }

/-- A thread of supervisor mode that traps halts: its slot drains, its retirement is to be judged, and its launch is aborted with cause 0x1A3 (R227). -/
def HaltedSupervisor (s t : State) : Prop :=
  t.me.occ = .draining ∧ t.me.block = none ∧ t.me.regs = s.me.regs
  ∧ (∃ p ∈ t.agenda, p.due = s.now ∧ p.ev = .abort s.me.launch 0x1A3)
  ∧ ∃ p ∈ t.agenda, p.due = 4 * s.cycle + 2 ∧ p.ev = .threadRetirement s.meRef

/-! ### Memory accesses -/

/-- The address of a byte of the thread's own scratchpad (R100). -/
def ownAddr (off : Nat) : Word := BitVec.ofNat 64 (3 * 2 ^ 62 + off)

/-- The state without the answers of walks that failed for the running thread: they are forgotten with the bundle that they stop. -/
def forgetWalks (s : State) : State := s.modMyCore (fun k => { k with walkFaults := k.walkFaults.filter (fun w => w.slot != s.cur.slot) })

/-- An access of the running thread in user mode has trapped with a cause at an address (R101). -/
def AccessTrap (s : State) (i : Instr) (v : TrapVal) : Prop :=
  ∃ t, exec i s = .next t ∧ TookTrap (forgetWalks s) t s.cur.pc v.cause v.tval v.tinf

/-- The running thread's bundle did not issue: it is tried again, and nothing of the thread has changed. -/
def Parks (s : State) (i : Instr) : Prop := ∃ t, exec i s = .next t ∧ t.cur.status = .parked ∧ t.me = s.me ∧ SameMemory s t

/-- Nothing differs but the running thread's slot, the recency of TLB entries, events added to the agenda, operation numbers, and how the bundle in the latch stands. -/
def OnlySent (s t : State) : Prop :=
  (∀ c i, c ≠ s.cur.core ∨ i ≠ s.cur.slot → t.slot c i = s.slot c i)
  ∧ (∀ c, { t.core c with slots := (s.core c).slots, tlb := (s.core c).tlb } = s.core c)
  ∧ (∀ c, (t.core c).tlb.map (fun e => { e with used := 0 }) = (s.core c).tlb.map (fun e => { e with used := 0 }))
  ∧ { t with cores := s.cores, agenda := s.agenda, fresh := s.fresh, cur := s.cur } = s ∧ { t.cur with status := s.cur.status } = s.cur
  ∧ SameMemory s t ∧ ∀ p ∈ s.agenda, p ∈ t.agenda

/-- As AccessTrap, after a TLB entry has been used: the state before the trap differs from s in the recency of TLB entries alone. -/
def LookupTrap (s : State) (i : Instr) (v : TrapVal) : Prop :=
  ∃ s' t, OnlySent s s' ∧ s'.me = s.me ∧ s'.cur = s.cur ∧ s'.agenda = s.agenda ∧ exec i s = .next t ∧ TookTrap (forgetWalks s') t s.cur.pc v.cause v.tval v.tinf

/-- An event stands in the agenda before issue in a cycle. -/
def Sent (t : State) (cycle : Nat) (ev : Instr) : Prop := ∃ p ∈ t.agenda, p.due = 4 * cycle ∧ p.ev = ev

/-- An operation of the running thread has left it: its destination, if any, is Pending with its old value, it is outstanding (R26), the thread issues nothing more until it completes when `hold` says so (R113), and of the thread nothing else differs. -/
def Leaves (s t : State) (kind : OutKind) (pa n : Nat) (dst : Option RegName) (hold : Bool) : Prop :=
  t.me.regs = (match dst with
    | some d => s.me.regs.retag .pending d
    | none => s.me.regs)
  ∧ t.me.out = { id := s.fresh, kind := kind, pa := pa, size := n } :: s.me.out ∧ t.me.hold = (s.me.hold || hold)
  ∧ { t.me with regs := s.me.regs, out := s.me.out, hold := s.me.hold } = s.me ∧ t.cur.status = .run ∧ OnlySent s t

/-- The running thread waits after issue for something (R26, R113): its slot holds the wait, and of it nothing else differs. -/
def Waits (s t : State) (kind : BlockKind) : Prop :=
  (∃ b, t.me.block = some b ∧ b.kind = kind ∧ b.since = s.cycle) ∧ { t.me with block := s.me.block } = s.me ∧ t.cur.status = .blocked ∧ OnlySent s t

/-- The TLB of the running thread's core maps an address, and the page lets the access through (R102, R346). -/
def Mapped (s : State) (ea : Word) (kind : AccKind) (e : TlbEntry) : Prop :=
  ea.toNat < 2 ^ 55 ∧ s.myCore.tlb.find? (fun e => e.maps s.me.ctx ea.toNat) = some e ∧ permitted e kind s.me.st.sup = true

/-- A store into the thread's own scratchpad: the stored bytes, every other byte of it as before (but for the undo log of a mirrored pair, R395), and nothing else but poison and the events of monitors. -/
def StoresOwn (s : State) (i : Instr) (off n w : Nat) : Prop :=
  ∃ t, exec i s = .next t
    ∧ (∀ a, Memory.get t.myCore.spad a = if off ≤ a ∧ a < off + n then BitVec.ofNat 8 (w / 256 ^ (a - off))
        else Memory.get (s.undoLogRange s.cur.core off n).myCore.spad a)
    ∧ (s.primaryOf s.cur.core = none → s.undoLogRange s.cur.core off n = s)
    ∧ t.me = s.me ∧ (∀ c i, t.slot c i = s.slot c i) ∧ SameMemory s t
    ∧ (s.primaryOf s.cur.core = none → (∀ c, c ≠ s.cur.core → t.core c = s.core c)
        ∧ { t.myCore with spad := s.myCore.spad, spadPoison := s.myCore.spadPoison } = s.myCore
        ∧ { t with cores := s.cores, agenda := s.agenda, fresh := s.fresh } = s)

/-- The plain scalar and vector loads with base a and offset i, each with its width, its destination and how it extends (R103, R104). -/
noncomputable def loadForms (d a : Fin 32) (v : Fin 16) (i : BitVec 13) : List (Instr × Nat × RegName × Ext) :=
  [(.ldB d a i, 1, .g d, .sign), (.ldBu d a i, 1, .g d, .zero), (.ldH d a i, 2, .g d, .sign), (.ldHu d a i, 2, .g d, .zero)
  , (.ldW d a i, 4, .g d, .sign), (.ldWu d a i, 4, .g d, .zero), (.ldD d a i, 8, .g d, .zero), (.ldV v a i, 64, .v v, .vector)]

/-- The plain stores with base a and offset i, each with its width and the value it stores (R103, R104). -/
noncomputable def storeForms (s : State) (x a : Fin 32) (v : Fin 16) (i : BitVec 13) : List (Instr × Nat × Nat) :=
  [(.stB x a i, 1, (s.gval x).toNat), (.stH x a i, 2, (s.gval x).toNat), (.stW x a i, 4, (s.gval x).toNat), (.stD x a i, 8, (s.gval x).toNat)
  , (.stV v a i, 64, (s.vval v).toNat)]

/-- The ordered loads of a register n with a kind and a scope, with their widths (R114). -/
noncomputable def orderedLoadForms (d n : Fin 32) (full : Bool) (e : Scope) : List (Instr × Nat) :=
  [(.ldBuAcq d n full e, 1), (.ldHuAcq d n full e, 2), (.ldWuAcq d n full e, 4), (.ldDAcq d n full e, 8)]

/-- The ordered stores (R114). -/
noncomputable def orderedStoreForms (x n : Fin 32) (full : Bool) (e : Scope) : List (Instr × Nat) :=
  [(.stBRel x n full e, 1), (.stHRel x n full e, 2), (.stWRel x n full e, 4), (.stDRel x n full e, 8)]

/-- The atomics of a destination, an address and a source, with their operations (R120). -/
noncomputable def atomicForms (d n x : Fin 32) (r : OrdKind) (w : Width) : List (Instr × AtomOp) :=
  [(.amoAdd d n x r w, .add), (.amoAnd d n x r w, .and), (.amoOr d n x r w, .or), (.amoXor d n x r w, .xor), (.amoMax d n x r w, .max)
  , (.amoMin d n x r w, .min), (.amoSwap d n x r w, .swap), (.amoFadd d n x r w, .fadd), (.amoMaxu d n x r w, .maxu)
  , (.amoMinu d n x r w, .minu), (.amoFmax d n x r w, .fmax), (.amoFmin d n x r w, .fmin)]

/-! ### Commands of the engines -/

/-- The running thread may use an accumulator: it is unowned or its own, and no record of a drain stands on it (R186, R192). -/
def AccFree (s : State) (a : Fin 4) : Prop :=
  (∀ o, s.myCore.accOwn[a] = some o → o.val = s.cur.slot) ∧ ∀ r ∈ s.me.drainRecs, r.1 ≠ a

/-- A command of the tile unit is queued: it is outstanding, owns its accumulator, stands last in the queue with what p says of it and the locks given, and neither memory nor scratchpad nor any register of the thread changes. -/
def TileQueues (s : State) (i : Instr) (a : Fin 4) (locks : List RangeLock) (p : TileCmd → Prop) : Prop :=
  ∃ t c o, exec i s = .next t ∧ t.me.out = { id := s.fresh, kind := .tileCommand, pa := 0, size := 0 } :: s.me.out ∧ { t.me with out := s.me.out } = s.me
    ∧ t.myCore.accOwn[a] = some o ∧ o.val = s.cur.slot ∧ (∀ b, b ≠ a → t.myCore.accOwn[b] = s.myCore.accOwn[b]) ∧ t.myCore.acc = s.myCore.acc
    ∧ t.myCore.tile.queue = s.myCore.tile.queue ++ [c] ∧ c.id = s.fresh ∧ c.thread = s.meRef ∧ c.acc = a ∧ c.issue = s.cycle ∧ p c
    ∧ t.myCore.locks = s.myCore.locks ++ locks ∧ t.myCore.spad = s.myCore.spad ∧ (∀ k, k ≠ s.cur.core → t.core k = s.core k) ∧ SameMemory s t
    ∧ ∃ q ∈ t.agenda, q.ev = .tileCommandStart s.cur.core

/-- The copy commands of three registers, each with its kind and operands as R196 names them: destination, its stride, source, its stride or base, control. -/
noncomputable def copyForms (s : State) (d a b : Fin 32) : List (Instr × CopyKind × Word × Word × Word × Word × Word) :=
  [(.cpy d a b, .cpy, s.gval d, 0, s.gval a, 0, s.gval b), (.cpy2 d a b, .cpy2, s.gval d, s.gval (d + 1), s.gval a, s.gval (a + 1), s.gval b)
  , (.gath d a b, .gath, s.gval d, 0, s.gval a, s.gval (a + 1), s.gval b), (.scat d a b, .scat, s.gval d, 0, s.gval a, s.gval (a + 1), s.gval b)
  , (.wsld d a b, .wsld, s.gval d, 0, s.gval a, 0, s.gval b)]

/-! ### Events -/

/-- An event answers a next state of which p holds, in the same moment. -/
def Does (s : State) (e : Instr) (p : State → Prop) : Prop := ∃ t, exec e s = .next t ∧ t.now = s.now ∧ p t

/-- An event stands in the agenda for a moment. -/
def Posts (t : State) (due : Nat) (ev : Instr) : Prop := ∃ p ∈ t.agenda, p.due = due ∧ p.ev = ev

/-- A core is no member of a mirrored pair (R394). -/
def Single (s : State) (c : CoreKey) : Prop := s.primaryOf c = none

/-- A thread still holds its slot, one of the sixteen of a core that is no member of a mirrored pair. -/
def Held (s : State) (r : ThreadRef) : Prop := r.slot < 16 ∧ Single s r.core ∧ s.matches_ r = true

/-- The thread of a reference, alone and in user mode, has been brought to its handler with a return address; where it waited after issue, what the A word of its pair wrote at issue is taken back first (R25, R216, R222, R223). -/
def Entered (s t : State) (r : ThreadRef) (ret : Word) (cause : Nat) (tval tinf : Word) : Prop :=
  let sl := (s.undoPair r.core r.slot).slot r.core r.slot
  (UserTrap sl cause → t.slot r.core r.slot = userEntry sl ret cause tval tinf s.cycle)
  ∧ (¬ UserTrap sl cause → t.slot r.core r.slot = supervisorEntry sl ret cause tval tinf s.cycle)
  ∧ ((s.slot r.core r.slot).block.all (fun b => b.cur.aword.isNone) = true → sl = s.slot r.core r.slot)

/-- The thread of a reference belongs to no gang and is in user mode. -/
def Plain (s : State) (r : ThreadRef) : Prop := Held s r ∧ (s.slot r.core r.slot).st.role = .independent ∧ (s.slot r.core r.slot).st.sup = false

/-- An operation of a thread is outstanding no more (R26). -/
def Ends (s t : State) (r : ThreadRef) (id : Nat) : Prop :=
  (t.slot r.core r.slot).out = (s.slot r.core r.slot).out.filter (fun o => o.id != id)

/-- The thread of a reference waits with a number for something (R26). -/
def WaitsFor (s : State) (r : ThreadRef) (id : Nat) (b : Block) (kind : BlockKind) : Prop :=
  Held s r ∧ (s.slot r.core r.slot).block = some b ∧ b.id = id ∧ b.kind = kind

/-- The wait of a thread has ended: it issues again in a cycle, or later if something else holds it. -/
def Goes (s t : State) (r : ThreadRef) (ready : Nat) : Prop :=
  (t.slot r.core r.slot).block = none ∧ (t.slot r.core r.slot).readyAt = max (s.slot r.core r.slot).readyAt ready

/-- n bytes of a core's scratchpad at a place read as those of a value, and every other byte of it is as before. -/
def WritesSpad (s t : State) (c : CoreKey) (off n x : Nat) : Prop :=
  ∀ a, Memory.get (t.core c).spad a = if off ≤ a ∧ a < off + n then BitVec.ofNat 8 (x / 256 ^ (a - off)) else Memory.get (s.core c).spad a

/-- A channel of stacked DRAM is free in this cycle (R257). -/
def ChannelFree (s : State) (pa : PhysAddr) : Prop := (getKey (s.clu (vaultClu pa)).chan (channelOf pa)).getD 0 ≤ s.cycle

/-- An access's turn at its channel has come: it has waited for it, or its stacked-DRAM channel, for a fetch those of the line's four sectors, is free, and for an atomic its home's atomic unit takes it, free and not holding its line (R121, R257, R276). -/
def TurnNow (s : State) (a : Access) (atomic : Bool) : Prop :=
  a.queued = true ∨ inLpddr a.pa = false
    ∧ (a.op ≠ .fetch → ChannelFree s a.pa) ∧ (a.op = .fetch → ∀ i < 4, (getKey (s.clu (vaultClu a.pa)).chan (channelOf (lineOf a.pa + 64 * i))).getD 0 ≤ s.cycle)
    ∧ (atomic = true → (s.clu a.home).atomFree ≤ s.cycle ∧ ((getKey (s.clu a.home).atomLines (lineOf a.pa)).getD 0) ≤ s.cycle)

/-- n bytes of global memory at a place read as those of a value, and every other byte is as before. -/
def Writes (s t : State) (pa n x : Nat) : Prop :=
  ∀ a, Memory.get t.mem a = if pa ≤ a ∧ a < pa + n then BitVec.ofNat 8 (x / 256 ^ (a - pa)) else Memory.get s.mem a

/-- The result of a load or atomic stands in the agenda for its thread, some cycles from now. -/
def Returns (s t : State) (a : Access) (r : ThreadRef) (d : RegName) (after : Nat) (val : VWord) (mark : Option Mark) (raise : Nat) : Prop :=
  Posts t (4 * (s.cycle + after)) (.longOperationCompletion
    { thread := r, id := a.id, dst := d, va := a.va, val := val, mark := mark, raise := raise, issue := a.issue, word := a.word })

end Sys2Proof
end

