-- ==== Sys2Proof/Certificates/Slice0/Obligations.lean ====
section
/-! DEFINITION. The statements about the model, for the provers. -/

open Sys2Proof Sys2Proof.Machine

/-! ### Integer instructions (chapter 4) -/

/-- R77: every register-register integer operation gives gd the stated function of its sources, wrapping modulo 2^64 unless saturated, shift counts being bits 5:0, and changes nothing else: no flag, no other register, no memory. R78, R79: the immediate forms; imm13 and imm18 are sign-extended, lsh's is zero-extended and gd is its source, shift counts run over 0–63. -/
def Obligations.IntegerResults : Prop :=
  (
    ∀ (s : State) (d a b : Fin 32), s.cur.slot < 16 →
      let x := s.gval a
      let y := s.gval b
      let n := y.toNat % 64
      GivesG s (.add d a b) d (BitVec.ofNat 64 (x.toNat + y.toNat))
      ∧ GivesG s (.sub d a b) d (BitVec.ofInt 64 (x.toInt - y.toInt))
      ∧ GivesG s (.and d a b) d (x &&& y)
      ∧ GivesG s (.or d a b) d (x ||| y)
      ∧ GivesG s (.xor d a b) d (x ^^^ y)
      ∧ GivesG s (.andn d a b) d (x &&& ~~~y)
      ∧ GivesG s (.sll d a b) d (BitVec.ofNat 64 (x.toNat * 2 ^ n))
      ∧ GivesG s (.srl d a b) d (BitVec.ofNat 64 (x.toNat / 2 ^ n))
      ∧ GivesG s (.sra d a b) d (BitVec.ofInt 64 (x.toInt / 2 ^ n))
      ∧ GivesG s (.slt d a b) d (if x.toInt < y.toInt then 1 else 0)
      ∧ GivesG s (.sltu d a b) d (if x.toNat < y.toNat then 1 else 0)
      ∧ GivesG s (.min d a b) d (BitVec.ofInt 64 (min x.toInt y.toInt))
      ∧ GivesG s (.max d a b) d (BitVec.ofInt 64 (max x.toInt y.toInt))
      ∧ GivesG s (.minu d a b) d (BitVec.ofNat 64 (min x.toNat y.toNat))
      ∧ GivesG s (.maxu d a b) d (BitVec.ofNat 64 (max x.toNat y.toNat))
      ∧ GivesG s (.adds d a b) d (BitVec.ofInt 64 (max (-(2 ^ 63)) (min (2 ^ 63 - 1) (x.toInt + y.toInt))))
      ∧ GivesG s (.subs d a b) d (BitVec.ofInt 64 (max (-(2 ^ 63)) (min (2 ^ 63 - 1) (x.toInt - y.toInt)))))
  ∧ (
    ∀ (s : State) (d a : Fin 32) (i : BitVec 13) (j : BitVec 18) (k : BitVec 6), s.cur.slot < 16 →
      let x := s.gval a
      let y : Word := BitVec.ofInt 64 i.toInt
      GivesG s (.addi d a i) d (BitVec.ofInt 64 (x.toInt + i.toInt))
      ∧ GivesG s (.andi d a i) d (x &&& y)
      ∧ GivesG s (.ori d a i) d (x ||| y)
      ∧ GivesG s (.xori d a i) d (x ^^^ y)
      ∧ GivesG s (.slti d a i) d (if x.toInt < i.toInt then 1 else 0)
      ∧ GivesG s (.sltiu d a i) d (if x.toNat < y.toNat then 1 else 0)
      ∧ GivesG s (.slli d a k) d (BitVec.ofNat 64 (x.toNat * 2 ^ k.toNat))
      ∧ GivesG s (.srli d a k) d (BitVec.ofNat 64 (x.toNat / 2 ^ k.toNat))
      ∧ GivesG s (.srai d a k) d (BitVec.ofInt 64 (x.toInt / 2 ^ k.toNat))
      ∧ GivesG s (.ldi d j) d (BitVec.ofInt 64 j.toInt)
      ∧ GivesG s (.lsh d j) d (BitVec.ofNat 64 ((s.gval d).toNat * 2 ^ 18) ||| BitVec.ofNat 64 j.toNat))

/-- R80, R81: multiplication by halves of the exact product, conditional moves and bit counts. -/
def Obligations.MultiplyMoveCountResults : Prop :=
  ∀ (s : State) (d a b : Fin 32), s.cur.slot < 16 →
    let x := s.gval a
    let y := s.gval b
    GivesG s (.mul d a b) d (BitVec.ofNat 64 (x.toNat * y.toNat))
    ∧ GivesG s (.mulh d a b) d (BitVec.ofInt 64 (x.toInt * y.toInt / 2 ^ 64))
    ∧ GivesG s (.mulhu d a b) d (BitVec.ofNat 64 (x.toNat * y.toNat / 2 ^ 64))
    ∧ (y = 0 → GivesG s (.movz d a b) d x) ∧ (y ≠ 0 → GivesNothing s (.movz d a b))
    ∧ (y ≠ 0 → GivesG s (.movn d a b) d x) ∧ (y = 0 → GivesNothing s (.movn d a b))
    ∧ GivesG s (.clz d a) d (BitVec.ofNat 64 ((List.range 64).takeWhile (fun k => !x.getLsbD (63 - k))).length)
    ∧ GivesG s (.ctz d a) d (BitVec.ofNat 64 ((List.range 64).takeWhile (fun k => !x.getLsbD k)).length)
    ∧ GivesG s (.popc d a) d (BitVec.ofNat 64 ((List.range 64).countP (fun k => x.getLsbD k)))

/-- R80: division and remainder follow int_divide: the quotient rounded towards zero, the remainder with the dividend's sign, −1 and the dividend on a zero divisor of the plain variants, and a latency of 24 + ceil(significant bits of the exact quotient / 4) cycles in which gd is Pending. R80, R13: a checked division by zero traps with cause 0x041 at its bundle, cr.tval 0, and every register keeps its tag and value. -/
def Obligations.DivisionResultsAndTraps : Prop :=
  (
    ∀ (s : State) (d a b : Fin 32), s.cur.slot < 16 →
      let x := s.gval a
      let y := s.gval b
      let q (u v : Int) : Int := if v = 0 then -1 else u.tdiv v
      let r (u v : Int) : Int := if v = 0 then u else u.tmod v
      let lat (u v : Int) : Nat := if v = 0 then 24 else 24 + (Nat.size (u.tdiv v).natAbs + 3) / 4
      let gives (i : Instr) (l : Nat) (z : Int) : Prop := GivesLong s i l (.g d) ((BitVec.ofInt 64 z).setWidth 512) Flags.none
      let sx := x.toInt
      let sy := y.toInt
      let ux : Int := x.toNat
      let uy : Int := y.toNat
      gives (.div d a b) (lat sx sy) (q sx sy) ∧ gives (.rem d a b) (lat sx sy) (r sx sy)
      ∧ gives (.divu d a b) (lat ux uy) (q ux uy) ∧ gives (.remu d a b) (lat ux uy) (r ux uy)
      ∧ (y ≠ 0 → gives (.divCk d a b) (lat sx sy) (q sx sy) ∧ gives (.remCk d a b) (lat sx sy) (r sx sy)
          ∧ gives (.divuCk d a b) (lat ux uy) (q ux uy) ∧ gives (.remuCk d a b) (lat ux uy) (r ux uy)))
  ∧ (
    ∀ (s : State) (d a b : Fin 32), Alone s → s.me.st.sup = false → s.gval b = 0 →
      ∀ i ∈ [Instr.divCk d a b, .divuCk d a b, .remCk d a b, .remuCk d a b],
        ∃ t, exec i s = .next t ∧ TookTrap s t s.cur.pc 0x041 0 0)

/-! ### Scalar floating point (chapter 4) -/

/-- R76, R84–R86: arithmetic, minimum, maximum, sign operations, compares and classes, on operands read under FTZ and rounded once by RM, with the flags of R34. R88: the fused operations round the exact product and sum once, with the signs their names give. -/
def Obligations.FloatingResults : Prop :=
  (
    ∀ (s : State) (d a b : Fin 32) (f : Fmt), s.cur.slot < 16 →
      let F := fmtOf f
      let x := F.read s.cur.fcsr.ftz (s.gval a).toNat
      let y := F.read s.cur.fcsr.ftz (s.gval b).toNat
      let rm := s.cur.fcsr.rm
      let z := s.cur.fcsr.ftz
      let nx := (s.gval a).toNat
      let ny := (s.gval b).toNat
      let gives (i : Instr) (r : Nat × Flags) : Prop := GivesFp s i d (f = .d) r
      gives (.fadd d a b f) (F.addVal rm z x y)
      ∧ gives (.fsub d a b f) (F.addVal rm z x y.negate)
      ∧ gives (.fmul d a b f) (F.mul rm z x y)
      ∧ gives (.fdiv d a b f) (F.div rm z x y)
      ∧ gives (.fsqrt d a f) (F.sqrt rm z x)
      ∧ gives (.fmin d a b f) (F.minmax false z nx ny)
      ∧ gives (.fmax d a b f) (F.minmax true z nx ny)
      ∧ gives (.fcsign d a b f) (F.sign (fun _ n => n) nx ny, Flags.none)
      ∧ gives (.fnsign d a b f) (F.sign (fun _ n => !n) nx ny, Flags.none)
      ∧ gives (.fxsign d a b f) (F.sign (fun m n => m ^^ n) nx ny, Flags.none)
      ∧ gives (.feq d a b f) ((F.cmp .eq z nx ny).1.toNat, (F.cmp .eq z nx ny).2)
      ∧ gives (.flt d a b f) ((F.cmp .lt z nx ny).1.toNat, (F.cmp .lt z nx ny).2)
      ∧ gives (.fle d a b f) ((F.cmp .le z nx ny).1.toNat, (F.cmp .le z nx ny).2)
      ∧ gives (.fkind d a f) (F.kind nx, Flags.none))
  ∧ (
    ∀ (s : State) (d a b c : Fin 32) (f : Fmt2), s.cur.slot < 16 →
      let F := fmtOf2 f
      let z := s.cur.fcsr.ftz
      let rd (r : Fin 32) := F.read z (s.gval r).toNat
      let fma (p q : FpVal) := F.fma s.cur.fcsr.rm z p (rd b) q
      GivesFp s (.fmadd d a b c f) d (f = .d) (fma (rd a) (rd c))
      ∧ GivesFp s (.fmsub d a b c f) d (f = .d) (fma (rd a) (rd c).negate)
      ∧ GivesFp s (.fnmadd d a b c f) d (f = .d) (fma (rd a).negate (rd c).negate)
      ∧ GivesFp s (.fnmsub d a b c f) d (f = .d) (fma (rd a).negate (rd c)))

/-- R87: conversions between formats and to and from integers; out of range they saturate with NV, a NaN gives 0. -/
def Obligations.FloatingConversionResults : Prop :=
  ∀ (s : State) (d a : Fin 32) (f g : Fmt) (m : CvtMode), s.cur.slot < 16 →
    let rm := s.cur.fcsr.rm
    let z := s.cur.fcsr.ftz
    let x := (s.gval a).toNat
    let mode := match m with | .static r => r | .dyn => rm
    let int (r : Int × Flags) : Nat × Flags := ((r.1 % 2 ^ 64).toNat, r.2)
    GivesFp s (.fcvt d a g f) d (f = .d ∨ g = .d) ((fmtOf f).roundVal rm z ((fmtOf g).read z x))
    ∧ GivesFp s (.fcvti d a m f) d (f = .d) (int (fpToInt (fmtOf f) mode z (-(2 ^ 63)) (2 ^ 63 - 1) x))
    ∧ GivesFp s (.fcvtiu d a m f) d (f = .d) (int (fpToInt (fmtOf f) mode z 0 (2 ^ 64 - 1) x))
    ∧ GivesFp s (.icvtf d a f) d (f = .d) (intToFp (fmtOf f) rm (s.gval a).toInt)
    ∧ GivesFp s (.ucvtf d a f) d (f = .d) (intToFp (fmtOf f) rm x)

/-! ### Vector instructions (chapter 6) -/

/-- R161: moves between g, v and m registers, by lane and by bit. R165, R166: compares write a bit for each enabled lane; mask logic writes all 16 bits. -/
def Obligations.VectorMoveAndMaskResults : Prop :=
  (
    ∀ (s : State) (d a : Fin 16) (g h : Fin 32) (m mk : Fin 8), s.cur.slot < 16 →
      let k := (s.gval h).toNat % 16
      let old := s.cur.regs.getV d
      GivesLanes s (.vbcst d g mk) d mk (fun _ => ((s.gval g).setWidth 32, Flags.none))
      ∧ (∃ v, GivesV s (.vins d g h) d v ∧ ∀ j < 16, lane v j = if j = k then (s.gval g).setWidth 32 else if old.tag = .void then 0 else lane old.val j)
      ∧ GivesG s (.vext g a h) g ((lane (s.vval a) k).setWidth 64)
      ∧ GivesG s (.vexts g a h) g (BitVec.ofInt 64 (lane (s.vval a) k).toInt)
      ∧ GivesM s (.mtm m g) m ((s.gval g).setWidth 16)
      ∧ GivesG s (.mfm g m) g ((s.mval m).setWidth 64)
      ∧ GivesG s (.mpopc g m) g (BitVec.ofNat 64 ((List.range 16).countP (fun j => (s.mval m).getLsbD j)))
      ∧ GivesG s (.mffs g m) g (BitVec.ofNat 64 ((List.range 16).takeWhile (fun j => !(s.mval m).getLsbD j)).length))
  ∧ (
    ∀ (s : State) (d p q mk : Fin 8) (a b : Fin 16), s.cur.slot < 16 →
      let x (k : Nat) := lane (s.vval a) k
      let y (k : Nat) := lane (s.vval b) k
      let fp (i : Instr) (op : FpCmp) : Prop := GivesBits s i d mk (fun k => f32.cmp op s.cur.fcsr.ftz (x k).toNat (y k).toNat)
      let int (i : Instr) (r : Nat → Bool) : Prop := GivesBits s i d mk (fun k => (r k, Flags.none))
      fp (.vfeqS d a b mk) .eq ∧ fp (.vfltS d a b mk) .lt ∧ fp (.vfleS d a b mk) .le
      ∧ int (.veq d a b mk) (fun k => x k = y k) ∧ int (.vne d a b mk) (fun k => x k ≠ y k)
      ∧ int (.vlt d a b mk) (fun k => (x k).toInt < (y k).toInt) ∧ int (.vle d a b mk) (fun k => (x k).toInt ≤ (y k).toInt)
      ∧ int (.vltu d a b mk) (fun k => (x k).toNat < (y k).toNat) ∧ int (.vleu d a b mk) (fun k => (x k).toNat ≤ (y k).toNat)
      ∧ GivesM s (.mand d p q) d (s.mval p &&& s.mval q) ∧ GivesM s (.mor d p q) d (s.mval p ||| s.mval q)
      ∧ GivesM s (.mxor d p q) d (s.mval p ^^^ s.mval q) ∧ GivesM s (.mandn d p q) d (s.mval p &&& ~~~s.mval q)
      ∧ GivesM s (.mnot d p) d (~~~s.mval p))

/-- R162, R164: each FP32 lane obeys the scalar operation of R84, R85 or R88 in binary32. -/
def Obligations.VectorFloatResults : Prop :=
  ∀ (s : State) (d a b c : Fin 16) (mk : Fin 8), s.cur.slot < 16 →
    let rm := s.cur.fcsr.rm
    let z := s.cur.fcsr.ftz
    let bits (r : Fin 16) (k : Nat) : Nat := (lane (s.vval r) k).toNat
    let rd (r : Fin 16) (k : Nat) : FpVal := f32.read z (bits r k)
    let gives (i : Instr) (r : Nat → Nat × Flags) : Prop := GivesLanes s i d mk (fun k => (BitVec.ofNat 32 (r k).1, (r k).2))
    gives (.vfaddS d a b mk) (fun k => f32.addVal rm z (rd a k) (rd b k))
    ∧ gives (.vfsubS d a b mk) (fun k => f32.addVal rm z (rd a k) (rd b k).negate)
    ∧ gives (.vfmulS d a b mk) (fun k => f32.mul rm z (rd a k) (rd b k))
    ∧ gives (.vfdivS d a b mk) (fun k => f32.div rm z (rd a k) (rd b k))
    ∧ gives (.vfsqrtS d a mk) (fun k => f32.sqrt rm z (rd a k))
    ∧ gives (.vfminS d a b mk) (fun k => f32.minmax false z (bits a k) (bits b k))
    ∧ gives (.vfmaxS d a b mk) (fun k => f32.minmax true z (bits a k) (bits b k))
    ∧ gives (.vfcsignS d a b mk) (fun k => (f32.sign (fun _ n => n) (bits a k) (bits b k), Flags.none))
    ∧ gives (.vfnsignS d a b mk) (fun k => (f32.sign (fun _ n => !n) (bits a k) (bits b k), Flags.none))
    ∧ gives (.vfxsignS d a b mk) (fun k => (f32.sign (fun m n => m ^^ n) (bits a k) (bits b k), Flags.none))
    ∧ gives (.vfmaddS d a b c mk) (fun k => f32.fma rm z (rd a k) (rd b k) (rd c k))

/-- R163: INT32 lanes; no integer form raises a flag. -/
def Obligations.VectorIntegerResults : Prop :=
  ∀ (s : State) (d a b : Fin 16) (mk : Fin 8), s.cur.slot < 16 →
    let gives (i : Instr) (g : BitVec 32 → BitVec 32 → BitVec 32) : Prop :=
      GivesLanes s i d mk (fun k => (g (lane (s.vval a) k) (lane (s.vval b) k), Flags.none))
    let sat (x : Int) : BitVec 32 := BitVec.ofInt 32 (max (-(2 ^ 31)) (min (2 ^ 31 - 1) x))
    gives (.vadd d a b mk) (fun x y => BitVec.ofNat 32 (x.toNat + y.toNat))
    ∧ gives (.vsub d a b mk) (fun x y => BitVec.ofInt 32 (x.toInt - y.toInt))
    ∧ gives (.vmul d a b mk) (fun x y => BitVec.ofNat 32 (x.toNat * y.toNat))
    ∧ gives (.vand d a b mk) (fun x y => x &&& y)
    ∧ gives (.vor d a b mk) (fun x y => x ||| y)
    ∧ gives (.vxor d a b mk) (fun x y => x ^^^ y)
    ∧ gives (.vsll d a b mk) (fun x y => BitVec.ofNat 32 (x.toNat * 2 ^ (y.toNat % 32)))
    ∧ gives (.vsrl d a b mk) (fun x y => BitVec.ofNat 32 (x.toNat / 2 ^ (y.toNat % 32)))
    ∧ gives (.vsra d a b mk) (fun x y => BitVec.ofInt 32 (x.toInt / 2 ^ (y.toNat % 32)))
    ∧ gives (.vmin d a b mk) (fun x y => BitVec.ofInt 32 (min x.toInt y.toInt))
    ∧ gives (.vmax d a b mk) (fun x y => BitVec.ofInt 32 (max x.toInt y.toInt))
    ∧ gives (.vminu d a b mk) (fun x y => BitVec.ofNat 32 (min x.toNat y.toNat))
    ∧ gives (.vmaxu d a b mk) (fun x y => BitVec.ofNat 32 (max x.toNat y.toNat))
    ∧ gives (.vadds d a b mk) (fun x y => sat (x.toInt + y.toInt))
    ∧ gives (.vsubs d a b mk) (fun x y => sat (x.toInt - y.toInt))

/-- R167: conversions of lanes, packing of two registers into 16-bit elements, and unpacking of either half. -/
def Obligations.VectorConversionResults : Prop :=
  ∀ (s : State) (d a b : Fin 16) (mk : Fin 8), s.cur.slot < 16 →
    let rm := s.cur.fcsr.rm
    let z := s.cur.fcsr.ftz
    let x (k : Nat) : Nat := (lane (s.vval a) k).toNat
    let elem (j : Nat) : Nat := (s.vval a).toNat / 2 ^ (16 * j) % 2 ^ 16
    let gives (i : Instr) (r : Nat → Nat × Flags) : Prop := GivesLanes s i d mk (fun k => (BitVec.ofNat 32 (r k).1, (r k).2))
    let int (r : Int × Flags) : Nat × Flags := ((r.1 % 2 ^ 32).toNat, r.2)
    let packed (i : Instr) (f : FpFmt) : Prop :=
      let e (j : Nat) : Nat × Flags := fpConvert f32 f rm z (if j < 16 then lane (s.vval a) j else lane (s.vval b) (j - 16)).toNat
      ∃ v, GivesVFlags s i d v ((List.range 32).foldl (fun acc j => acc.or (e j).2) Flags.none)
        ∧ ∀ j < 32, v.toNat / 2 ^ (16 * j) % 2 ^ 16 = (e j).1
    gives (.vcvtWS d a mk) (fun k => int (fpToInt f32 rm z (-(2 ^ 31)) (2 ^ 31 - 1) (x k)))
    ∧ gives (.vcvtWuS d a mk) (fun k => int (fpToInt f32 rm z 0 (2 ^ 32 - 1) (x k)))
    ∧ gives (.vcvtSW d a mk) (fun k => intToFp f32 rm (lane (s.vval a) k).toInt)
    ∧ gives (.vcvtSWu d a mk) (fun k => intToFp f32 rm (x k))
    ∧ packed (.vcvtHS d a b) f16 ∧ packed (.vcvtBfS d a b) bf16
    ∧ gives (.vcvtSHLo d a mk) (fun k => f32.roundVal rm false (f16.read z (elem k)))
    ∧ gives (.vcvtSHHi d a mk) (fun k => f32.roundVal rm false (f16.read z (elem (k + 16))))
    ∧ gives (.vcvtSBfLo d a mk) (fun k => f32.roundVal rm false (bf16.read z (elem k)))
    ∧ gives (.vcvtSBfHi d a mk) (fun k => f32.roundVal rm false (bf16.read z (elem (k + 16))))

/-- R168: vquant writes 32 codes of quantise_block into its half of vd, keeps the other bits (0 where vd was Void), and writes the scale byte into mk. R169, R170: vdeq gives lane i the value of element 16q + i under the scale byte in mk; vcnz counts the elements of each lane whose encoding is nonzero. -/
def Obligations.QuantiseAndDequantiseResults : Prop :=
  (
    ∀ (s : State) (d a : Fin 16) (b : Fin 8), s.cur.slot < 16 →
      let vals := (List.range 32).map (fun j => f32.read false (if j < 16 then lane (s.vval a) j else lane (s.vval (nextV a)) (j - 16)).toNat)
      let old := s.cur.regs.getV d
      let kept (j : Nat) : Bool := if old.tag = .void then false else old.val.getLsbD j
      let gives (i : Instr) (n p : Nat) : Prop :=
        let (codes, sb) := quantiseBlock vals n
        let w := n + 1
        ∃ t v, exec i s = .next t ∧ t.me.regs.getV d = Reg.full v ∧ t.me.regs.getM b = Reg.full (if b = 0 then 0xFFFF else sb.setWidth 16)
          ∧ (∀ j < 32, v.toNat / 2 ^ (32 * w * p + w * j) % 2 ^ w = codes.getD j 0)
          ∧ (∀ j < 512, j < 32 * w * p ∨ 32 * w * (p + 1) ≤ j → v.getLsbD j = kept j)
          ∧ t.me.fcsr = s.me.fcsr.raise (quantFlags vals codes sb n) ∧ OnlyRegsFlags s t [.v d, .m b]
      gives (.vquantTap8P0 d a b) 7 0 ∧ gives (.vquantTap8P1 d a b) 7 1 ∧ gives (.vquantTap6P0 d a b) 5 0 ∧ gives (.vquantTap6P1 d a b) 5 1)
  ∧ (
    ∀ (s : State) (d a : Fin 16) (b mk : Fin 8), s.cur.slot < 16 →
      let bits (w j : Nat) : Nat := (s.vval a).toNat / 2 ^ (w * j) % 2 ^ w
      let deq (i : Instr) (n q : Nat) : Prop := GivesLanes s i d mk (fun k =>
        let r := dequant s.cur.fcsr.rm (bits (n + 1) (16 * q + k)) n ((s.mval b).setWidth 8)
        (BitVec.ofNat 32 r.1, r.2))
      let cnz (i : Instr) (w : Nat) (mine : Nat → List Nat) (zeros : List Nat) : Prop :=
        GivesLanes s i d mk (fun k => (BitVec.ofNat 32 ((mine k).countP (fun j => bits w j ∉ zeros)), Flags.none))
      deq (.vdeqTap8Q0 d a b mk) 7 0 ∧ deq (.vdeqTap8Q1 d a b mk) 7 1 ∧ deq (.vdeqTap8Q2 d a b mk) 7 2 ∧ deq (.vdeqTap8Q3 d a b mk) 7 3
      ∧ deq (.vdeqTap6Q0 d a b mk) 5 0 ∧ deq (.vdeqTap6Q1 d a b mk) 5 1 ∧ deq (.vdeqTap6Q2 d a b mk) 5 2 ∧ deq (.vdeqTap6Q3 d a b mk) 5 3
      ∧ deq (.vdeqTap6Q4 d a b mk) 5 4
      ∧ cnz (.vcnzB d a mk) 8 (fun k => [4 * k, 4 * k + 1, 4 * k + 2, 4 * k + 3]) [0]
      ∧ cnz (.vcnzTap6 d a mk) 6 (fun k => (List.range 85).filter (fun j => 6 * j / 32 = k)) [0]
      ∧ cnz (.vcnzH d a mk) 16 (fun k => [2 * k, 2 * k + 1]) [0, 0x8000]
      ∧ cnz (.vcnzS d a mk) 32 (fun k => [k]) [0, 0x80000000]
      ∧ cnz (.vcnzW d a mk) 32 (fun k => [k]) [0])

/-- R49, R171: a reduction is the pairwise tree over the 16 lanes, a disabled lane entering as the identity, its flags ORed once. -/
def Obligations.ReductionResults : Prop :=
  ∀ (s : State) (d : Fin 32) (a : Fin 16) (mk : Fin 8), s.cur.slot < 16 →
    let rm := s.cur.fcsr.rm
    let z := s.cur.fcsr.ftz
    let leaf (ident : BitVec 32) (k : Nat) : BitVec 32 × Flags := (if (s.mval mk).getLsbD k then lane (s.vval a) k else ident, Flags.none)
    let node (g : BitVec 32 → BitVec 32 → BitVec 32 × Flags) (p q : BitVec 32 × Flags) : BitVec 32 × Flags := ((g p.1 q.1).1, (p.2.or q.2).or (g p.1 q.1).2)
    let tree (ident : BitVec 32) (g : BitVec 32 → BitVec 32 → BitVec 32 × Flags) : BitVec 32 × Flags :=
      let l (k : Nat) := leaf ident k
      let n := node g
      let quarter (k : Nat) := n (n (l k) (l (k + 1))) (n (l (k + 2)) (l (k + 3)))
      n (n (quarter 0) (quarter 4)) (n (quarter 8) (quarter 12))
    let fp (i : Instr) (ident : BitVec 32) (g : Nat → Nat → Nat × Flags) : Prop :=
      let r := tree ident (fun x y => (BitVec.ofNat 32 (g x.toNat y.toNat).1, (g x.toNat y.toNat).2))
      GivesGFlags s i d (r.1.setWidth 64) r.2
    let int (i : Instr) (ident : BitVec 32) (signed : Bool) (g : BitVec 32 → BitVec 32 → BitVec 32) : Prop :=
      let r := tree ident (fun x y => (g x y, Flags.none))
      GivesG s i d (if signed then BitVec.ofInt 64 r.1.toInt else r.1.setWidth 64)
    fp (.vredFaddS d a mk) 0x80000000 (fun x y => f32.addVal rm z (f32.read z x) (f32.read z y))
    ∧ fp (.vredFminS d a mk) 0x7F800000 (f32.minmax false z) ∧ fp (.vredFmaxS d a mk) 0xFF800000 (f32.minmax true z)
    ∧ int (.vredAdd d a mk) 0 true (fun x y => x + y)
    ∧ int (.vredMin d a mk) 0x7FFFFFFF true (fun x y => if x.toInt ≤ y.toInt then x else y)
    ∧ int (.vredMax d a mk) 0x80000000 true (fun x y => if y.toInt ≤ x.toInt then x else y)
    ∧ int (.vredMinu d a mk) 0xFFFFFFFF false (fun x y => if x.toNat ≤ y.toNat then x else y)
    ∧ int (.vredMaxu d a mk) 0 false (fun x y => if y.toNat ≤ x.toNat then x else y)
    ∧ int (.vredAnd d a mk) 0xFFFFFFFF false (fun x y => x &&& y) ∧ int (.vredOr d a mk) 0 false (fun x y => x ||| y)
    ∧ int (.vredXor d a mk) 0 false (fun x y => x ^^^ y)

/-- R172, R173: permutes copy lanes; estimates are Pending for 16 cycles, disabled lanes as R14 gives. The sign of log2(1.0) is the model's choice (log 148). -/
def Obligations.PermuteAndEstimateResults : Prop :=
  ∀ (s : State) (d a b : Fin 16) (g : Fin 32) (mk : Fin 8), s.cur.slot < 16 →
    let x (k : Nat) := lane (s.vval a) k
    let y (k : Nat) := lane (s.vval b) k
    let old := s.cur.regs.getV d
    let est (i : Instr) (f : Bool → Nat → Nat × Flags) : Prop :=
      let r (k : Nat) := f s.cur.fcsr.ftz (x k).toNat
      ∃ v, GivesLong s i 16 (.v d) v (((List.range 16).filter (fun k => (s.mval mk).getLsbD k)).foldl (fun acc k => acc.or (r k).2) Flags.none)
        ∧ ∀ k < 16, lane v k = if (s.mval mk).getLsbD k then BitVec.ofNat 32 (r k).1 else if old.tag = .void then 0 else lane old.val k
    GivesLanes s (.vperm d a b mk) d mk (fun k => (x ((y k).toNat % 16), Flags.none))
    ∧ GivesLanes s (.vrot d a g mk) d mk (fun k => (x ((k + (s.gval g).toNat % 16) % 16), Flags.none))
    ∧ (∃ v, GivesV s (.vmerge d a b mk) d v ∧ ∀ k < 16, lane v k = if (s.mval mk).getLsbD k then x k else y k)
    ∧ est (.vfrecipS d a mk) estRecip ∧ est (.vfrsqrtS d a mk) estRsqrt ∧ est (.vfexp2S d a mk) estExp2 ∧ est (.vflog2S d a mk) estLog2

/-! ### Branches, control registers and the system major (chapters 4 and 8) -/

/-- R89, R90: a compare or mask branch sets the PC to its own address plus four times its sign-extended offset when its relation holds, and changes nothing else. -/
def Obligations.BranchResults : Prop :=
  ∀ (s : State) (a b : Fin 32) (m : Fin 8) (o : BitVec 13), s.cur.slot < 16 →
    let x := s.gval a
    let y := s.gval b
    let k := s.mval m
    let target : Word := BitVec.ofInt 64 (s.cur.pc.toInt + 4 * o.toInt)
    GivesBranch s (.beq a b o) (x = y) target ∧ GivesBranch s (.bne a b o) (x ≠ y) target
    ∧ GivesBranch s (.blt a b o) (x.toInt < y.toInt) target ∧ GivesBranch s (.bge a b o) (y.toInt ≤ x.toInt) target
    ∧ GivesBranch s (.bltu a b o) (x.toNat < y.toNat) target ∧ GivesBranch s (.bgeu a b o) (y.toNat ≤ x.toNat) target
    ∧ GivesBranch s (.bmany m o) (k ≠ 0) target ∧ GivesBranch s (.bmnone m o) (k = 0) target
    ∧ GivesBranch s (.bmall m o) (k = 0xFFFF) target ∧ GivesBranch s (.bmnall m o) (k ≠ 0xFFFF) target

/-- R91, R92: jal and jalr write the address of the next bundle into gd (discarded for g0) and jump; a target of jalr whose bits 1:0 are not 0 traps with cause 0x061, cr.tval holding the target, and writes nothing. -/
def Obligations.JumpResults : Prop :=
  ∀ (s : State) (d a : Fin 32) (o : BitVec 18) (i : BitVec 13), s.cur.slot < 16 →
    let goes (x : Instr) (target : Word) : Prop :=
      ∃ t, exec x s = .next t ∧ t.me.pc = target ∧ t.me.byBranch = true ∧ t.me.regs.getG d = Reg.full (if d = 0 then 0 else s.cur.nextPc)
        ∧ (∀ r, r ≠ .g d → SameReg s t r) ∧ { t.me with regs := s.me.regs, pc := s.me.pc, byBranch := s.me.byBranch } = s.me ∧ OnlyMySlot s t
    let target : Word := BitVec.ofInt 64 ((s.gval a).toInt + i.toInt)
    goes (.jal d o) (BitVec.ofInt 64 (s.cur.pc.toInt + 4 * o.toInt))
    ∧ (target.toNat % 4 = 0 → goes (.jalr d a i) target)
    ∧ (target.toNat % 4 ≠ 0 → Alone s → s.me.st.sup = false → ∃ t, exec (.jalr d a i) s = .next t ∧ TookTrap s t s.cur.pc 0x061 target 0)

/-- R94, R16: crr, crs and crc give gd the register as it stood before the bundle, and crw completes, for every index that the mode may access; a user-mode access of 0x100 or above traps with cause 0x001, cr.tval holding the word, and crw, crs and crc then write nothing. A crw of a register of which the mode may write a field ends the damage of its storage, every other leaves damage as it was (the model's choice, log 23). R230, R390: a bundle of one word whose registers are sound is judged to trap with cause 0x1A4 and cr.tval 0 where it reads a damaged control register. R17, R18, R19: what the identity and counter registers read: the package's number in its pod, die, cluster, core, slot, generation and index; launch and context; the cycle count; the core's time; the cycles to the next refresh window and its period. -/
def Obligations.ControlRegisterAccess : Prop :=
  (
    ∀ (s : State) (d a : Fin 32) (i : BitVec 12), s.cur.slot < 16 →
      ((s.me.st.sup = true ∨ i.toNat < 0x100) →
        GivesG s (.crr d i) d (s.readCR i.toNat)
        ∧ (∃ t, exec (.crw a i) s = .next t ∧ t.me.regs = s.me.regs ∧ SameMemory s t
            ∧ (crWritable s.me.st.sup i.toNat = true → t.damagedCR s.cur.core s.cur.slot i.toNat = false)
            ∧ (crWritable s.me.st.sup i.toNat = false → t.me.crDamage = s.me.crDamage ∧ t.crDamage = s.crDamage))
        ∧ ∀ x ∈ [Instr.crs d a i, .crc d a i], ∃ t, exec x s = .next t ∧ t.me.regs.getG d = Reg.full (if d = 0 then 0 else s.readCR i.toNat)
            ∧ (∀ r, r ≠ .g d → SameReg s t r) ∧ SameMemory s t)
      ∧ (s.damagedCR s.cur.core s.cur.slot i.toNat = true → (s.me.regs.getG a).tag = .full → (s.me.regs.getG a).mark = none →
        ∀ w, ∀ x ∈ [Instr.crr d i, .crs d a i, .crc d a i],
          s.judge s.cur.core s.cur.slot [(x, w)] = .trap { cause := 0x1A4, tval := 0, tinf := BitVec.ofNat 64 (i.toNat * 32 + 2 ^ 17) })
      ∧ (s.me.st.sup = false → 0x100 ≤ i.toNat → Alone s →
        ∀ x ∈ [Instr.crr d i, .crw a i, .crs d a i, .crc d a i], ∃ t, exec x s = .next t
          ∧ TookTrap s t s.cur.pc 0x001 (s.cur.curWord.setWidth 64) (if s.cur.pair then BitVec.ofNat 64 s.cur.word else if s.cur.pc.getLsbD 2 then 1 else 0)))
  ∧ (
    ∀ (s : State) (d : Fin 32), s.cur.slot < 16 → s.myCore.shadowOf = none → s.me.gen < 65536 → s.me.idx < 2 ^ 24 → s.cur.core < podCores →
      (s.pkg (pkgOf s.cur.core)).podPkg ≤ pkgOf s.cur.core →
      let c := s.cur.core
      let reads (i : BitVec 12) (x : Nat) : Prop := GivesG s (.crr d i) d (BitVec.ofNat 64 x)
      reads 0x000 (s.me.idx + 2 ^ 24 * (s.me.gen + 2 ^ 16 * (s.cur.slot + 2 ^ 4 * (c % 16 + 2 ^ 4 * (c / 16 % 24 + 2 ^ 5 * (c / 384 % 4 + 2 ^ 2 * (s.pkg (pkgOf c)).podPkg))))))
      ∧ reads 0x001 (s.me.launch % 2 ^ 32 + 2 ^ 32 * s.me.ctx) ∧ reads 0x002 (s.cyc (pkgOf c)) ∧ reads 0x003 s.myCore.time
      ∧ reads 0x050 ((2048 - s.cyc (pkgOf c) % 2048) % 2048) ∧ reads 0x051 2048)

/-- R17, R94, R224: a write of a stored slot-scoped register is read back with the bits that it does not hold cleared; crs writes the OR with the old value and crc the AND with the complement; no other register of the thread, no other slot and no memory changes. -/
def Obligations.ControlRegisterWrites : Prop :=
  ∀ (s : State) (d a : Fin 32), s.cur.slot < 16 →
    ∀ e ∈ userRegister ++ (if s.me.st.sup then supervisorRegister else []),
      let w := s.gval a
      let old := s.readCR e.1.toNat
      let writes (x : Instr) (v : Word) : Prop := ∃ t, exec x s = .next t ∧ t.readCR e.1.toNat = e.2 v ∧ OnlyMySlot s t
        ∧ ∀ e' ∈ userRegister ++ supervisorRegister, e' ≠ e → e'.1 ≠ e.1 → t.readCR e'.1.toNat = s.readCR e'.1.toNat
      writes (.crw a e.1) w ∧ writes (.crs d a e.1) (old ||| w) ∧ writes (.crc d a e.1) (old &&& ~~~w)

/-- R97, R98, R99: exit begins the thread's retirement; scall traps with cause 0x1C0 plus its code and returns to the word after it; brk traps with cause 0x1E1 at itself; hret and sret return in the mode that may run them, and are illegal in the other. -/
def Obligations.SystemInstructions : Prop :=
  ∀ (s : State) (c : Fin 32), Alone s →
    (∃ t, exec .exit s = .next t ∧ t.me = { s.me with occ := .draining, block := none, ints := [], openSince := none, parkLimit := none, stopping := false }
      ∧ (∃ p ∈ t.agenda, p.due = 4 * s.cycle + 2 ∧ p.ev = .threadRetirement s.meRef) ∧ OnlyMySlot s { t with agenda := s.agenda, fresh := s.fresh })
    ∧ (s.me.st.sup = false →
      (∃ t, exec (.scall c) s = .next t ∧ TookTrap s t (s.cur.pc + 4) (0x1C0 + c.val) 0 0)
      ∧ (∃ t, exec .brk s = .next t ∧ TookTrap s t s.cur.pc 0x1E1 s.cur.pc 0)
      ∧ (s.me.st.intrap = true → ∃ t, exec .hret s = .next t ∧ OnlyMySlot s t
          ∧ t.me = { s.me with pc := clear2 s.me.epc, byBranch := true, st := { s.me.st with intrap := false } })
      ∧ (s.me.st.intrap = false → ∃ t, exec .hret s = .next t ∧ TookTrap s t s.cur.pc 0x001 (s.cur.curWord.setWidth 64) (if s.cur.pair then BitVec.ofNat 64 s.cur.word else if s.cur.pc.getLsbD 2 then 1 else 0))
      ∧ (∃ t, exec .sret s = .next t ∧ TookTrap s t s.cur.pc 0x001 (s.cur.curWord.setWidth 64) (if s.cur.pair then BitVec.ofNat 64 s.cur.word else if s.cur.pc.getLsbD 2 then 1 else 0)))
    ∧ (s.me.st.sup = true →
      (∃ t, exec .sret s = .next t ∧ OnlyMySlot s t
        ∧ t.me = { s.me with pc := clear2 s.me.sepc, byBranch := true, st := { s.me.st with sup := s.me.psup, ie := s.me.pie } })
      ∧ ∀ x ∈ [Instr.scall c, .hret, .brk], ∃ t, exec x s = .next t ∧ HaltedSupervisor s t)

/-- R216, R222, R223: a trap of a thread in user mode, whatever its cause, acts as TookTrap says; a supervisor trap halts the slot (R227). R214, R222, R223: a trap of one member of a gang splits it: every member that still holds its slot becomes independent, and the member that trapped is at the handler's entry. -/
def Obligations.TrapDelivery : Prop :=
  (
    ∀ (s : State) (cause : Nat) (tval tinf : Word), Alone s →
      (s.me.st.sup = false → TookTrap s (s.trap cause tval tinf) s.cur.pc cause tval tinf)
      ∧ (s.me.st.sup = true → HaltedSupervisor s (s.trap cause tval tinf)))
  ∧ (
    ∀ (s : State) (cause : Nat) (tval tinf : Word), s.cur.slot < 16 → s.me.st.role ≠ .independent → s.me.st.sup = false →
      s.myCore.mirror = none → s.me.block = none → s.matches_ s.meRef = true → s.meRef ∈ s.members s.meRef → (∀ m ∈ s.members s.meRef, m.slot < 16) →
      let t := s.trap cause tval tinf
      (∀ m ∈ s.members s.meRef, s.matches_ m = true → (t.slot m.core m.slot).gang = [] ∧ (t.slot m.core m.slot).st.role = .independent ∧ (t.slot m.core m.slot).st.gidx = 0)
      ∧ t.me.pc = (if s.me.takesUser cause then s.me.tvec else s.me.svec)
      ∧ t.me.st.sup = !(s.me.takesUser cause)
      ∧ SameMemory s t)

/-! ### Loads, stores, fences, tagged words and atomics (chapter 5) -/

/-- R100: the class of an effective address: below 2^55 global; bits 61:55 not 0 or bits 63:62 01 a page fault (0x081); bits 63:62 11 the own scratchpad, 10 the scratchpad of a core by package of the pod, die, cluster and core, both with cause 0x062 where bits that must be 0 are not, or no such core exists. -/
def Obligations.AddressClasses : Prop :=
  ∀ (s : State) (c : CoreKey) (ea : Word),
    let n := ea.toNat
    (n < 2 ^ 55 → s.classify c ea = .global)
    ∧ (2 ^ 55 ≤ n → n < 2 ^ 63 → s.classify c ea = .bad 0x081)
    ∧ (∀ off < 2 ^ 18, n = 3 * 2 ^ 62 + off → s.classify c ea = .spad c off)
    ∧ (3 * 2 ^ 62 + 2 ^ 18 ≤ n → s.classify c ea = .bad 0x062)
    ∧ (∀ p < 512, ∀ d < 4, ∀ k < 24, ∀ j < 16, ∀ off < 2 ^ 18, n = 2 ^ 63 + p * 2 ^ 29 + d * 2 ^ 27 + k * 2 ^ 22 + j * 2 ^ 18 + off →
        s.classify c ea = if p ≤ (s.pkg (pkgOf c)).podN then .spad ((((s.pod0 (pkgOf c) + p) * 4 + d) * 24 + k) * 16 + j) off else .bad 0x062)
    ∧ (2 ^ 63 ≤ n → n < 3 * 2 ^ 62 → (2 ^ 63 + 2 ^ 38 ≤ n ∨ 24 ≤ n / 2 ^ 22 % 32) → s.classify c ea = .bad 0x062)

/-- R103, R104, R105: a load from the own scratchpad writes its n bytes, little-endian, sign- or zero-extended, in the issue cycle, and changes nothing else; one whose bytes meet a poisoned word marks its register with cause 0x1A1 and the source, the address standing as its value (R219, R220). -/
def Obligations.OwnScratchpadLoads : Prop :=
  ∀ (s : State) (d a : Fin 32) (v : Fin 16) (i : BitVec 13) (off : Nat), s.cur.slot < 16 → off < 2 ^ 18 →
    BitVec.ofInt 64 ((s.gval a).toInt + i.toInt) = ownAddr off →
    let free (n : Nat) : Prop := off % n = 0 ∧ s.lockTrap s.meRef (.spad s.cur.core) off n false (ownAddr off) = none
    let ready (n : Nat) : Prop := free n ∧ s.myCore.spadPoisonIn off n = none
    let x (n : Nat) : Nat := bytesNat (Memory.getN s.myCore.spad off n)
    (ready 1 → GivesG s (.ldB d a i) d (BitVec.ofInt 64 (BitVec.ofNat 8 (x 1)).toInt) ∧ GivesG s (.ldBu d a i) d (BitVec.ofNat 64 (x 1)))
    ∧ (ready 2 → GivesG s (.ldH d a i) d (BitVec.ofInt 64 (BitVec.ofNat 16 (x 2)).toInt) ∧ GivesG s (.ldHu d a i) d (BitVec.ofNat 64 (x 2)))
    ∧ (ready 4 → GivesG s (.ldW d a i) d (BitVec.ofInt 64 (BitVec.ofNat 32 (x 4)).toInt) ∧ GivesG s (.ldWu d a i) d (BitVec.ofNat 64 (x 4)))
    ∧ (ready 8 → GivesG s (.ldD d a i) d (BitVec.ofNat 64 (x 8)))
    ∧ (ready 64 → GivesV s (.ldV v a i) v (BitVec.ofNat 512 (x 64)))
    ∧ ∀ f ∈ loadForms d a v i, free f.2.1 → ∀ src, s.myCore.spadPoisonIn off f.2.1 = some src →
        ∃ t, exec f.1 s = .next t ∧ t.me.regs = s.me.regs.put f.2.2.1 ((ownAddr off).setWidth 512) (some { cause := 0x1A1, info := BitVec.ofNat 32 src })
          ∧ OnlyRegs s t [f.2.2.1]

/-- R103, R104, R105: a store to the own scratchpad writes the low n bytes of its source, the least significant at the lowest address, in the issue cycle; every other byte and every register is as before. -/
def Obligations.OwnScratchpadStores : Prop :=
  ∀ (s : State) (x a : Fin 32) (v : Fin 16) (i : BitVec 13) (off : Nat), s.cur.slot < 16 → off < 2 ^ 18 →
    BitVec.ofInt 64 ((s.gval a).toInt + i.toInt) = ownAddr off →
    ∀ f ∈ storeForms s x a v i, off % f.2.1 = 0 → s.lockTrap s.meRef (.spad s.cur.core) off f.2.1 true (ownAddr off) = none →
      StoresOwn s f.1 off f.2.1 f.2.2

/-- R100, R101, R102: a plain load or store traps, in the order of R101, with cause 0x081 or 0x062 for its class of address, 0x061 for an address that its width does not divide, 0x082 for a page that does not let it through, 0x081 for a page whose walk has failed, and with the values of a range lock that it meets (R195); cr.tval holds the address, and no byte of memory changes. One that misses the TLB while no walk for it has failed is tried again (R13). -/
def Obligations.PlainAccessTraps : Prop :=
  ∀ (s : State) (d a : Fin 32) (v : Fin 16) (i : BitVec 13), Alone s → s.me.st.sup = false →
    let ea := BitVec.ofInt 64 ((s.gval a).toInt + i.toInt)
    ∀ f ∈ (loadForms d a v i).map (fun f => (f.1, f.2.1, false)) ++ (storeForms s d a v i).map (fun f => (f.1, f.2.1, true)),
      (∀ c, s.classify s.cur.core ea = .bad c → AccessTrap s f.1 { cause := c, tval := ea, tinf := 0 })
      ∧ ((∀ c, s.classify s.cur.core ea ≠ .bad c) → ea.toNat % f.2.1 ≠ 0 → AccessTrap s f.1 { cause := 0x061, tval := ea, tinf := 0 })
      ∧ (∀ e, s.classify s.cur.core ea = .global → ea.toNat % f.2.1 = 0 → s.myCore.tlb.find? (fun e => e.maps s.me.ctx ea.toNat) = some e →
          (e.u = false ∨ (if f.2.2 then e.w else e.r) = false) → AccessTrap s f.1 { cause := 0x082, tval := ea, tinf := 0 })
      ∧ (s.classify s.cur.core ea = .global → ea.toNat % f.2.1 = 0 → s.myCore.tlb.find? (fun e => e.maps s.me.ctx ea.toNat) = none →
          (s.myCore.walkFaults.contains { slot := s.cur.slot, ctx := s.me.ctx, vpn := ea.toNat / 2 ^ 16 } = true → AccessTrap s f.1 { cause := 0x081, tval := ea, tinf := 0 })
          ∧ (s.myCore.walkFaults.contains { slot := s.cur.slot, ctx := s.me.ctx, vpn := ea.toNat / 2 ^ 16 } = false → Parks s f.1))
      ∧ (∀ c off w, s.classify s.cur.core ea = .spad c off → ea.toNat % f.2.1 = 0 → s.lockTrap s.meRef (.spad c) off f.2.1 f.2.2 ea = some w → AccessTrap s f.1 w)

/-- R105, R109, R149: a load from global memory whose page is mapped and that meets no outstanding access of its thread leaves its destination Pending and goes to the cluster cache 18 cycles after issue, or straight to its home for an uncached page, with the core's time and, on a versioned page, cr.snap; memory and the rest of the thread stay as they are. R106, R270: a load or store of global memory or of another core's scratchpad that overlaps an outstanding access of its thread does not issue. That the second case of R270 holds of every access is the model's reading (log 77). -/
def Obligations.GlobalLoadsIssueAndOverlapsWait : Prop :=
  (
    ∀ (s : State) (d a : Fin 32) (v : Fin 16) (i : BitVec 13) (e : TlbEntry), s.cur.slot < 16 → s.cur.status = .run → s.me.tx = none → s.me.st.tx = false →
      let ea := BitVec.ofInt 64 ((s.gval a).toInt + i.toInt)
      Mapped s ea .load e →
      ∀ f ∈ loadForms d a v i, ea.toNat % f.2.1 = 0 → s.lockTrap s.meRef .global ea.toNat f.2.1 false ea = none →
        s.me.meets (e.phys ea.toNat) f.2.1 = false →
        ∃ t x, exec f.1 s = .next t ∧ Leaves s t .long (e.phys ea.toNat) f.2.1 (some f.2.2.1) false
          ∧ (if e.uncached then Sent t (s.cycle + s.homeLatency s.myClu e.home / 2) (.homeLoad x) else Sent t (s.cycle + 18) (.clusterCacheAccess x))
          ∧ x.agent = .thread s.meRef ∧ x.id = s.fresh ∧ x.op = .load ∧ x.va = ea ∧ x.pa = e.phys ea.toNat ∧ x.size = f.2.1 ∧ x.home = e.home
          ∧ x.ts = s.myCore.time ∧ x.snap = (if e.v then s.me.snap else 0) ∧ x.dst = some f.2.2.1 ∧ x.ext = f.2.2.2)
  ∧ (
    ∀ (s : State) (d a : Fin 32) (v : Fin 16) (i : BitVec 13) (o : Outstanding), s.cur.slot < 16 → s.me.st.tx = false → o ∈ s.me.out → o.size ≠ 0 →
      let ea := BitVec.ofInt 64 ((s.gval a).toInt + i.toInt)
      let meets (pa n : Nat) : Prop := pa < o.pa + o.size ∧ o.pa < pa + n
      (∀ e, Mapped s ea .load e → ∀ f ∈ loadForms d a v i, ea.toNat % f.2.1 = 0 → s.lockTrap s.meRef .global ea.toNat f.2.1 false ea = none →
        meets (e.phys ea.toNat) f.2.1 → Parks s f.1)
      ∧ (∀ e, Mapped s ea .store e → ∀ f ∈ storeForms s d a v i, ea.toNat % f.2.1 = 0 → s.lockTrap s.meRef .global ea.toNat f.2.1 true ea = none →
        meets (e.phys ea.toNat) f.2.1 → Parks s f.1)
      ∧ (∀ c off, c ≠ s.cur.core → s.classify s.cur.core ea = .spad c off →
        (∀ f ∈ loadForms d a v i, ea.toNat % f.2.1 = 0 → s.lockTrap s.meRef (.spad c) off f.2.1 false ea = none → meets (spadPlace c off) f.2.1 → Parks s f.1)
        ∧ (∀ f ∈ storeForms s d a v i, ea.toNat % f.2.1 = 0 → s.lockTrap s.meRef (.spad c) off f.2.1 true ea = none → meets (spadPlace c off) f.2.1 → Parks s f.1)))

/-- R105, R110, R151, R395: a store to global memory outside a transaction goes to its home with the core's time and its bytes, or stands in the store buffer of a mirrored pair; in a transaction, on a versioned page of its own package, its bytes stand in the transaction's sector image, or fail the transaction when a 33rd sector would be needed, or go nowhere in one restored as failed (R352); no byte of memory changes. -/
def Obligations.GlobalStoresIssue : Prop :=
  ∀ (s : State) (x a : Fin 32) (v : Fin 16) (i : BitVec 13) (e : TlbEntry), s.cur.slot < 16 → s.cur.status = .run →
    let ea := BitVec.ofInt 64 ((s.gval a).toInt + i.toInt)
    let pa := e.phys ea.toNat
    Mapped s ea .store e →
    ∀ f ∈ storeForms s x a v i, ea.toNat % f.2.1 = 0 → s.lockTrap s.meRef .global ea.toNat f.2.1 true ea = none → s.me.meets pa f.2.1 = false →
      (s.me.tx = none → s.me.st.tx = false → s.myCore.mirror = none →
        ∃ t y, exec f.1 s = .next t ∧ Leaves s t .globalStore pa f.2.1 none false ∧ Sent t (s.cycle + s.homeLatency s.myClu e.home / 2) (.homeStore y)
          ∧ y.agent = .thread s.meRef ∧ y.id = s.fresh ∧ y.op = .store ∧ y.va = ea ∧ y.pa = pa ∧ y.size = f.2.1 ∧ y.home = e.home
          ∧ y.ts = s.myCore.time ∧ y.data.toNat % 256 ^ f.2.1 = f.2.2 % 256 ^ f.2.1)
      ∧ (s.me.tx = none → s.me.st.tx = false → ∀ m, s.myCore.mirror = some m →
        ∃ t m' y, exec f.1 s = .next t ∧ t.me.out = { id := s.fresh, kind := .globalStore, pa := pa, size := f.2.1 } :: s.me.out ∧ t.agenda = s.agenda ∧ SameMemory s t
          ∧ t.myCore.mirror = some m' ∧ m'.store = m.store ++ [{ access := y, at_ := s.cycle }] ∧ y.op = .store ∧ y.pa = pa ∧ y.size = f.2.1 ∧ y.data.toNat % 256 ^ f.2.1 = f.2.2 % 256 ^ f.2.1)
      ∧ (∀ tx, s.me.tx = some tx → s.me.st.tx = true → e.v = true → pkgOfPA e.pa = pkgOf s.cur.core → e.pa % 65536 = 0 →
        ∃ t tx', exec f.1 s = .next t ∧ t.me = { s.me with tx := some tx' } ∧ OnlySent s t ∧ t.agenda = s.agenda
          ∧ (tx.discards = true → tx' = tx)
          ∧ (tx.discards = false → (∃ y ∈ tx.sectors, y.sector = pa / 64 * 64) ∨ tx.sectors.length < 32 →
              tx'.failed = tx.failed ∧ ∃ y ∈ tx'.sectors, y.sector = pa / 64 * 64
                ∧ ∀ j < f.2.1, y.mask.getLsbD (pa % 64 + j) = true ∧ y.data.toNat / 256 ^ (pa % 64 + j) % 256 = f.2.2 / 256 ^ j % 256)
          ∧ (tx.discards = false → (∀ y ∈ tx.sectors, y.sector ≠ pa / 64 * 64) → 32 ≤ tx.sectors.length → tx' = { tx with failed := true }))

/-- R105, R254: a load or store of another core's scratchpad that meets no outstanding access of its thread goes to that core as a request, arriving after the way between the two cores; a load leaves its destination Pending. -/
def Obligations.RemoteScratchpadAccesses : Prop :=
  ∀ (s : State) (d a : Fin 32) (v : Fin 16) (i : BitVec 13) (c : CoreKey) (off : Nat), s.cur.slot < 16 → s.cur.status = .run → c ≠ s.cur.core →
    let ea := BitVec.ofInt 64 ((s.gval a).toInt + i.toInt)
    s.classify s.cur.core ea = .spad c off →
    (∀ f ∈ loadForms d a v i, ea.toNat % f.2.1 = 0 → s.lockTrap s.meRef (.spad c) off f.2.1 false ea = none → s.me.meets (spadPlace c off) f.2.1 = false →
      ∃ t r, exec f.1 s = .next t ∧ Leaves s t .long (spadPlace c off) f.2.1 (some f.2.2.1) false ∧ Sent t (s.cycle + s.oneWay s.cur.core c) (.remoteRequestArrival r)
        ∧ r.thread = s.meRef ∧ r.id = s.fresh ∧ r.target = c ∧ r.off = off ∧ r.op = .load f.2.1 f.2.2.2 ∧ r.dst = some f.2.2.1 ∧ r.time = s.myCore.time ∧ r.ctx = s.me.ctx)
    ∧ (∀ f ∈ storeForms s d a v i, ea.toNat % f.2.1 = 0 → s.lockTrap s.meRef (.spad c) off f.2.1 true ea = none → s.me.meets (spadPlace c off) f.2.1 = false →
      ∃ t r, exec f.1 s = .next t ∧ Leaves s t .remoteStore (spadPlace c off) f.2.1 none false ∧ Sent t (s.cycle + s.oneWay s.cur.core c) (.remoteRequestArrival r)
        ∧ r.thread = s.meRef ∧ r.id = s.fresh ∧ r.target = c ∧ r.off = off ∧ r.op = .store f.2.1 ∧ r.dst = none ∧ r.time = s.myCore.time ∧ r.ctx = s.me.ctx
        ∧ r.data.toNat % 256 ^ f.2.1 = f.2.2 % 256 ^ f.2.1)

/-- R174–R176: vgath gives every enabled lane the word at base plus its zero-extended 32-bit offset, all of them in the own scratchpad, and vscat stores the enabled lanes' words, a higher lane's over a lower one's; lanes that the mask leaves out take no part. -/
def Obligations.GatherScatterResults : Prop :=
  ∀ (s : State) (v w : Fin 16) (a : Fin 32) (mk : Fin 8) (f : Nat → Nat), s.cur.slot < 16 → s.primaryOf s.cur.core = none →
    let on (k : Nat) : Prop := k < 16 ∧ (s.mval mk).getLsbD k = true
    (∀ k, on k → BitVec.ofNat 64 ((s.gval a).toNat + (lane (s.vval w) k).toNat) = ownAddr (f k) ∧ f k < 2 ^ 18 ∧ f k % 4 = 0) →
    ((∀ k, on k → s.lockTrap s.meRef (.spad s.cur.core) (f k) 4 false (ownAddr (f k)) = none ∧ s.myCore.spadPoisonIn (f k) 4 = none) →
      ∃ x, GivesV s (.vgath v a w mk) v x ∧ ∀ k < 16, lane x k =
        if (s.mval mk).getLsbD k then BitVec.ofNat 32 (bytesNat (Memory.getN s.myCore.spad (f k) 4))
        else if (s.cur.regs.getV v).tag = .void then 0 else lane (s.cur.regs.getV v).val k)
    ∧ ((∀ k, on k → s.lockTrap s.meRef (.spad s.cur.core) (f k) 4 true (ownAddr (f k)) = none) →
      ∃ t, exec (.vscat v a w mk) s = .next t ∧ t.me = s.me ∧ (∀ c i, t.slot c i = s.slot c i) ∧ (∀ c, c ≠ s.cur.core → t.core c = s.core c) ∧ SameMemory s t
        ∧ (∀ k, on k → (∀ j, on j → k < j → f j ≠ f k) → ∀ b < 4, Memory.get t.myCore.spad (f k + b) = BitVec.ofNat 8 ((lane (s.vval v) k).toNat / 256 ^ b))
        ∧ ∀ x, (∀ k, on k → x < f k ∨ f k + 4 ≤ x) → Memory.get t.myCore.spad x = Memory.get s.myCore.spad x)

/-- R113, R114: an ordered load or store of the own scratchpad that has nothing to wait for acts as the plain one, the loads zero-extending; an acquire (every load, a store of kind full) at a scope other than .th holds the thread until its outstanding operations complete. -/
def Obligations.OrderedAccessResults : Prop :=
  ∀ (s : State) (d n : Fin 32) (full : Bool) (e : Scope) (off : Nat), s.cur.slot < 16 → s.cur.status = .run → off < 2 ^ 18 → s.gval n = ownAddr off → s.me.st.tx = false →
    (∀ f ∈ orderedLoadForms d n full e, off % f.2 = 0 → s.lockTrap s.meRef (.spad s.cur.core) off f.2 false (ownAddr off) = none →
      s.myCore.spadPoisonIn off f.2 = none → (full = false ∨ e = .th ∨ s.me.out = []) →
      ∃ t, exec f.1 s = .next t ∧ t.me.regs.getG d = Reg.full (if d = 0 then 0 else BitVec.ofNat 64 (bytesNat (Memory.getN s.myCore.spad off f.2)))
        ∧ (∀ r, r ≠ .g d → SameReg s t r) ∧ t.me.hold = (s.me.hold || e != .th) ∧ { t.me with regs := s.me.regs, hold := s.me.hold } = s.me ∧ OnlyMySlot s t)
    ∧ (∀ f ∈ orderedStoreForms d n full e, off % f.2 = 0 → s.lockTrap s.meRef (.spad s.cur.core) off f.2 true (ownAddr off) = none →
      s.primaryOf s.cur.core = none → (e = .th ∨ s.me.out = [] ∨ s.cur.stage ≠ 0) →
      ∃ t, exec f.1 s = .next t ∧ (∀ a, Memory.get t.myCore.spad a = if off ≤ a ∧ a < off + f.2 then BitVec.ofNat 8 ((s.gval d).toNat / 256 ^ (a - off)) else Memory.get s.myCore.spad a)
        ∧ t.me.hold = (s.me.hold || (full && e != .th)) ∧ { t.me with hold := s.me.hold } = s.me ∧ SameMemory s t)

/-- R113: an instruction that waits as a release, with an earlier operation of its thread outstanding, waits after issue, and neither stores nor writes a register: the ordered stores, the ordered loads of kind full, and the atomics of kind release or full, at their scopes, whose checks pass; and a release fence. R115: a fence that has nothing to wait for before it changes nothing but, as an acquire at a scope other than .th, the thread's hold. -/
def Obligations.ReleaseWaitsAndFences : Prop :=
  (
    ∀ (s : State) (d n x : Fin 32) (e : Scope) (off : Nat) (w : Width) (p : TlbEntry), s.cur.slot < 16 → s.cur.stage = 0 → s.me.out ≠ [] → s.me.st.tx = false → s.me.tx = none →
      s.primaryOf s.cur.core = none →
      (∀ k, ordReleases k e = true → ∃ t, exec (.fence k e) s = .next t ∧ Waits s t .release)
      ∧ (e ≠ .th → off < 2 ^ 18 → s.gval n = ownAddr off → ∀ full,
          ∀ f ∈ orderedStoreForms d n full e ++ orderedLoadForms d n true e, off % 8 = 0 → s.myCore.locks = [] → ∃ t, exec f.1 s = .next t ∧ Waits s t .release)
      ∧ (Mapped s (s.gval n) .atomic p → (s.gval n).toNat % 8 = 0 → s.lockTrap s.meRef .global (s.gval n).toNat (widthBytes w) true (s.gval n) = none →
          ∀ k, k = .rel ∨ k = .full → ∀ f ∈ atomicForms d n x k w, ∃ t, exec f.1 s = .next t ∧ Waits s t .release))
  ∧ (
    ∀ (s : State) (k : OrdKind) (e : Scope), s.cur.slot < 16 → s.cur.status = .run → (k = .plain ∨ k = .acq ∨ e = .th ∨ s.me.out = [] ∨ s.cur.stage ≠ 0) →
      ∃ t, exec (.fence k e) s = .next t ∧ t.me = { s.me with hold := s.me.hold || (e != .th && (k = .acq || k = .full)) } ∧ OnlyMySlot s t)

/-- R116, R117: a tagged operation on a word of the own scratchpad whose full/empty bit meets its condition acts at once: ldfe and ldff load the doubleword, ldfe leaving it empty; stfe, stf and ste store, leaving it full, full and empty; no other bit or byte changes; a load with the ordering bit at a scope other than .th holds its thread (R113). One whose bit does not meet the condition waits, and is listed at the core. -/
def Obligations.TaggedWordResults : Prop :=
  ∀ (s : State) (d n : Fin 32) (r : Bool) (e : Scope) (off : Nat), s.cur.slot < 16 → s.cur.status = .run → off < 2 ^ 18 → off % 8 = 0 → s.gval n = ownAddr off →
    s.lockTrap s.meRef (.spad s.cur.core) off 8 true (ownAddr off) = none → s.primaryOf s.cur.core = none → (r = false ∨ e = .th ∨ s.me.out = [] ∨ s.cur.stage ≠ 0) →
    let isFull := s.myCore.full.contains (off / 8)
    let bits (t : State) (f : Bool) : Prop := ∀ w, t.myCore.full.contains w = if w = off / 8 then f else s.myCore.full.contains w
    let loads (x : Instr) (after : Bool) : Prop := ∃ t, exec x s = .next t ∧ (∀ y, y ≠ .g d → SameReg s t y) ∧ { t.me with regs := s.me.regs, hold := s.me.hold } = s.me
      ∧ t.me.hold = (s.me.hold || (r && e != .th))
      ∧ (s.myCore.spadPoisonIn off 8 = none → t.me.regs.getG d = Reg.full (if d = 0 then 0 else BitVec.ofNat 64 (bytesNat (Memory.getN s.myCore.spad off 8))))
      ∧ t.myCore.spad = s.myCore.spad ∧ bits t after ∧ SameMemory s t
    let stores (x : Instr) (after : Bool) : Prop := ∃ t, exec x s = .next t ∧ t.me = s.me ∧ bits t after ∧ SameMemory s t
      ∧ ∀ a, Memory.get t.myCore.spad a = if off ≤ a ∧ a < off + 8 then BitVec.ofNat 8 ((s.gval d).toNat / 256 ^ (a - off)) else Memory.get s.myCore.spad a
    let waits (x : Instr) : Prop := ∃ t b, exec x s = .next t ∧ t.me.block = some b ∧ t.cur.status = .blocked ∧ t.me.regs = s.me.regs ∧ SameMemory s t
      ∧ t.myCore.spad = s.myCore.spad ∧ t.myCore.full = s.myCore.full ∧ ∃ y, t.myCore.tagWait = s.myCore.tagWait ++ [y] ∧ y.off = off ∧ y.thread = s.meRef ∧ y.data = s.gval d
    (isFull = true → loads (.ldfe d n r e) false) ∧ (isFull = true → loads (.ldff d n r e) true) ∧ (isFull = false → stores (.stfe d n r e) true)
    ∧ stores (.stf d n r e) true ∧ stores (.ste d n r e) false
    ∧ (isFull = false → waits (.ldfe d n r e)) ∧ (isFull = false → waits (.ldff d n r e)) ∧ (isFull = true → waits (.stfe d n r e))

/-- R120–R126, R113: an atomic, a reservation, a conditional store, a compare, a reduction, an ordered reduction or its declaration, on a mapped page that may be read and written, and that meets no outstanding access of its thread, goes to its home with its operands, is outstanding, and leaves its destination, if it has one, Pending; memory is as before until the home performs it. -/
def Obligations.HomeOperationsIssue : Prop :=
  ∀ (s : State) (d n x : Fin 32) (r : OrdKind) (b : Bool) (w : Width) (o : RedOp) (e : Scope) (p : TlbEntry), s.cur.slot < 16 → s.cur.status = .run → s.me.st.tx = false →
    let ea := s.gval n
    Mapped s ea .atomic p → s.lockTrap s.meRef .global ea.toNat 8 true ea = none → s.lockTrap s.meRef .global ea.toNat 4 true ea = none → s.me.meets (p.phys ea.toNat) 8 = false → ea.toNat % 8 = 0 → (s.me.out = [] ∨ s.cur.stage ≠ 0) →
    let goes (i : Instr) (op : GlobalOp) (dst : Option (Fin 32)) (size : Nat) (data cmp : Word) (kind : OutKind) (hold : Bool) (ev : Access → Instr) : Prop :=
      ∃ t y, exec i s = .next t ∧ Leaves s t kind (p.phys ea.toNat) size (dst.map .g) hold ∧ Sent t (s.cycle + s.homeLatency s.myClu p.home / 2) (ev y)
        ∧ y.agent = .thread s.meRef ∧ y.id = s.fresh ∧ y.op = op ∧ y.va = ea ∧ y.pa = p.phys ea.toNat ∧ y.size = size ∧ y.home = p.home ∧ y.ts = s.myCore.time
        ∧ y.dst = dst.map .g ∧ y.data = data.setWidth 512 ∧ y.cmp = cmp
    let bytes := match w with
      | .w32 => 4
      | .w64 => 8
    (∀ f ∈ atomicForms d n x r w, goes f.1 (.amo f.2) (some d) bytes (s.gval x) 0 .atomic (r = .acq || r = .full) .atomicUnitOperation)
    ∧ goes (.lres d n b w) .lres (some d) bytes 0 0 .atomic b .atomicUnitOperation
    ∧ goes (.scnd d n x b w) .scnd (some d) bytes (s.gval x) 0 .atomic false .atomicUnitOperation
    ∧ goes (.cas d n x r w) .cas (some d) bytes (s.gval x) (s.gval d) .atomic (r = .acq || r = .full) .atomicUnitOperation
    ∧ goes (.red o w n x b e) (.red (redAtom o)) none bytes (s.gval x) 0 .reduction false .reductionApply
    ∧ goes (.redo d n x) (.redo (s.gval d).toNat) none 4 (s.gval x) 0 .reduction false .sliceOrderedMerge
    ∧ goes (.ordset d n x) .ordset (some d) (if (s.gval x).getLsbD 20 then 8 else 4) (s.gval x) 0 .atomic false .ordsetDeclaration

/-- R152: inside a transaction an ordered access at a scope other than .th, an atomic, a reservation or a reduction of global memory traps with cause 0x143; a plain access of global memory outside the versioned pages of its own package traps with cause 0x144, cr.tval holding the address. -/
def Obligations.TransactionAccessTraps : Prop :=
  ∀ (s : State) (d n x : Fin 32) (v : Fin 16) (i : BitVec 13) (full b : Bool) (r : OrdKind) (w : Width) (e : Scope) (o : RedOp) (p : TlbEntry),
    Alone s → s.me.st.sup = false → s.me.st.tx = true →
    let ea := s.gval n
    let eb := BitVec.ofInt 64 (ea.toInt + i.toInt)
    (Mapped s ea .atomic p → s.myCore.locks = [] → ea.toNat % 8 = 0 → e ≠ .th →
      ∀ j ∈ (orderedLoadForms d n full e ++ orderedStoreForms d n full e).map Prod.fst ++ (atomicForms d n x r w).map Prod.fst ++ [.lres d n b w, .scnd d n x b w, .cas d n x r w, .red o w n x b e, .redo d n x, .ordset d n x],
        ∃ info, AccessTrap s j { cause := 0x143, tval := 0, tinf := info })
    ∧ (s.myCore.locks = [] → (p.v = false ∨ pkgOfPA p.pa ≠ pkgOf s.cur.core) →
      (Mapped s eb .load p → ∀ f ∈ loadForms d n v i, eb.toNat % f.2.1 = 0 → AccessTrap s f.1 { cause := 0x144, tval := eb, tinf := 0 })
      ∧ (Mapped s eb .store p → ∀ f ∈ storeForms s d n v i, eb.toNat % f.2.1 = 0 → AccessTrap s f.1 { cause := 0x144, tval := eb, tinf := 0 }))

/-! ### Threads that meet: monitors, fills, barriers, messages, spawn, gangs, snapshots (chapters 5 and 6) -/

/-- R134, R135, R136, R137: mon answers the index of the monitor on its block, arming the lowest free one, or all ones when four watch other blocks; on global memory or another core's scratchpad it arms by a request and waits; monx disarms all; wait with nothing armed and no limit answers 0, otherwise it waits and is judged at the end of the cycle; an open makes its register Open; a fill of a legal register of an existing unit goes to its target, and any other traps with cause 0x121. -/
def Obligations.MonitorFillOpenResults : Prop :=
  ∀ (s : State) (d a b : Fin 32) (r : RegName) (off : Nat), s.cur.slot < 16 → s.cur.status = .run →
    let at_ : MonAt := .spad s.cur.core (off / 64)
    let on (i : Nat) (p : MonAt) : Prop := ∃ m, s.me.monitor i = some m ∧ m.at_ = p
    (off < 2 ^ 18 → s.gval a = ownAddr off → s.lockTrap s.meRef (.spad s.cur.core) off 1 false (ownAddr off) = none →
      (∀ i < 4, on i at_ → (∀ j < i, ¬ on j at_) → GivesG s (.mon d a) d (BitVec.ofNat 64 i))
      ∧ ((∀ i < 4, ¬ on i at_) → (∀ i < 4, s.me.monitor i ≠ none) → GivesG s (.mon d a) d (BitVec.ofInt 64 (-1)))
      ∧ ((∀ i < 4, ¬ on i at_) → ∀ i < 4, s.me.monitor i = none → (∀ j < i, s.me.monitor j ≠ none) →
          ∃ t m, exec (.mon d a) s = .next t ∧ t.me.regs.getG d = Reg.full (if d = 0 then 0 else BitVec.ofNat 64 i) ∧ (∀ x, x ≠ .g d → SameReg s t x)
            ∧ t.me.monitor i = some m ∧ m.at_ = at_ ∧ m.latched = false ∧ (∀ j, j ≠ i → t.me.monitor j = s.me.monitor j)
            ∧ { t.me with regs := s.me.regs, monitors := s.me.monitors } = s.me ∧ OnlyMySlot s t))
    ∧ (∀ e, Mapped s (s.gval a) .load e → s.me.st.tx = false → s.lockTrap s.meRef .global (s.gval a).toNat 1 false (s.gval a) = none →
        (∀ i < 4, ¬ on i (.mem (e.phys (s.gval a).toNat / 64 * 64))) → ∀ i < 4, s.me.monitor i = none → (∀ j < i, s.me.monitor j ≠ none) →
        ∃ t y, exec (.mon d a) s = .next t ∧ Waits s t (.monitorArm d i) ∧ Sent t (s.cycle + s.homeLatency s.myClu e.home / 2) (.homeLoad y)
          ∧ y.op = .arm i ∧ y.pa = e.phys (s.gval a).toNat / 64 * 64 ∧ y.dst = some (.g d))
    ∧ (∀ c o, s.classify s.cur.core (s.gval a) = .spad c o → c ≠ s.cur.core → s.lockTrap s.meRef (.spad c) o 1 false (s.gval a) = none →
        (∀ i < 4, ¬ on i (.spad c (o / 64))) → ∀ i < 4, s.me.monitor i = none → (∀ j < i, s.me.monitor j ≠ none) →
        ∃ t y, exec (.mon d a) s = .next t ∧ Waits s t (.monitorArm d i) ∧ Sent t (s.cycle + s.oneWay s.cur.core c) (.remoteRequestArrival y)
          ∧ y.op = .arm i ∧ y.target = c ∧ y.off = o ∧ y.thread = s.meRef)
    ∧ (∃ t, exec .monx s = .next t ∧ t.me = { s.me with monitors := Vector.replicate 4 none } ∧ OnlyMySlot s t)
    ∧ ((∀ i < 4, s.me.monitor i = none) → s.me.mlim = 0 → GivesG s (.wait d) d 0)
    ∧ ((∃ i < 4, s.me.monitor i ≠ none) ∨ s.me.mlim ≠ 0 →
        ∃ t, exec (.wait d) s = .next t ∧ Waits s t (.wait d) ∧ ∃ p ∈ t.agenda, p.due = 4 * s.cycle + 3 ∧ ∃ id, p.ev = .waitTimeout s.meRef id)
    ∧ (∃ t, exec (.openReg r) s = .next t ∧ t.me.regs = s.me.regs.retag .opened r ∧ OnlyRegs s t [r])
    ∧ (let gt := s.gval a
      let n := gt.toNat
      let legal : Prop := n / 2 ^ 7 % 2 ^ 17 = 0 ∧ (n / 2 ^ 5 % 4 = 0 ∨ n / 2 ^ 5 % 4 = 1 ∧ n % 32 < 16 ∨ n / 2 ^ 5 % 4 = 2 ∧ n % 32 < 8)
        ∧ n / 2 ^ 55 ≤ (s.pkg (pkgOf s.cur.core)).podN ∧ n / 2 ^ 48 % 32 < 24
      (legal → ∃ t m, exec (.fill a b) s = .next t ∧ Leaves s t .fill 0 0 none false ∧ Sent t (s.cycle + s.oneWay s.cur.core (s.coreById (pkgOf s.cur.core) n)) (.fillArrival m)
        ∧ m.sender = s.meRef ∧ m.target = s.refById (pkgOf s.cur.core) n ∧ some m.dst = regOf (n / 2 ^ 5 % 4) (n % 32) ∧ m.val = s.gval b ∧ m.time = s.myCore.time ∧ m.ctx = s.me.ctx ∧ m.id = s.fresh)
      ∧ (¬ legal → Alone s → s.me.st.sup = false → ∃ t, exec (.fill a b) s = .next t ∧ TookTrap s t s.cur.pc 0x121 gt 0))

/-- R130–R133, R142–R145: where the barrier and context instructions complete, of a thread that is a party of its launch and no follower: with nothing outstanding (R114, a release), bar.arr and bar arrive at the phase in progress when the thread has not arrived at it, bar.arr going on and bar then waiting for the end of that phase; bar.wt, and a bar whose arrival an interruption left standing, go on as an acquire when the phase of the thread's arrival has ended; spawn to a mapped address whose page names a core sends a context with the eight argument registers to that core, whose answer it awaits; mig does the same with the thread's own place and the next bundle's address, and to its own core does nothing. -/
def Obligations.BarrierAndContextCompletion : Prop :=
  ∀ (s : State) (b : Fin 4) (x d a y : Fin 32) (e : Scope) (p : CoreKey) (at_ : TlbEntry), s.cur.slot < 16 → s.cur.status = .run →
    let gp := s.gval x
    let r : BarRef := { launch := s.me.launch, scope := e, inst := instanceOf e p, b := b.val }
    let arrives (t : State) : Prop := t.me.arrival r = some { bar := r, phase := (s.barrier r).phase, stands := false }
      ∧ (∃ p ∈ t.agenda, p.due = s.now ∧ p.ev = .barrierArrival r (gp &&& 0xFFFFFFFFFFFFFF) s.myCore.time s.meRef) ∧ t.me.regs = s.me.regs ∧ SameMemory s t
    let holds (t : State) : Prop := t.me.hold = true ∧ { t.me with hold := s.me.hold, bars := s.me.bars } = s.me ∧ OnlyMySlot s t
    let leaves (i : Instr) (spawn : Bool) (pc : Word) (gd : Fin 32) : Prop := ∃ t m k, exec i s = .next t ∧ t.me.block = some k ∧ k.kind = .context m gd false ∧ t.cur.status = .blocked
      ∧ { t.me with block := s.me.block } = s.me ∧ t.myCore.flying = s.myCore.flying + 1 ∧ SameMemory s t
      ∧ Sent t (s.cycle + s.oneWay s.cur.core at_.hcore + 23) (.contextArrival m)
      ∧ m.spawn = spawn ∧ m.sender = s.meRef ∧ m.target = at_.hcore ∧ m.pc = pc ∧ m.args = carried.map s.gval ∧ m.idx = s.me.idx ∧ m.launch = s.me.launch ∧ m.ctx = s.me.ctx
      ∧ m.time = s.myCore.time ∧ m.place = (if spawn then none else s.me.place)
    (s.me.st.role ≠ .follower → s.me.place = some p →
      (gp.toNat < 2 ^ 56 → s.me.out = [] ∨ s.cur.stage ≠ 0 → (∀ z, s.me.arrival r = some z → z.phase ≠ (s.barrier r).phase) →
        (∃ t, exec (.barArr b x e) s = .next t ∧ arrives t ∧ OnlySent s t ∧ { t.me with bars := s.me.bars } = s.me)
        ∧ ((∀ z, s.me.arrival r = some z → z.stands = false) → ∃ t, exec (.bar b x e) s = .next t ∧ arrives t
            ∧ t.cur.status = .blocked ∧ ∃ k, t.me.block = some k ∧ k.kind = .barWait r (s.barrier r).phase))
      ∧ (∀ z, s.me.arrival r = some z → z.phase < (s.barrier r).phase →
        (∃ t, exec (.barWt b e) s = .next t ∧ holds t) ∧ (z.stands = true → gp.toNat < 2 ^ 56 → ∃ t, exec (.bar b x e) s = .next t ∧ holds t)))
    ∧ ((s.gval a).toNat < 2 ^ 55 → s.myCore.tlb.find? (fun z => z.maps s.me.ctx (s.gval a).toNat) = some at_ → s.me.st.tx = false →
      (s.myCore.flying < 64 → (s.gval y).toNat % 4 = 0 → leaves (.spawn d a y) true (s.gval y) d)
      ∧ (s.ownsAcc = false → s.me.snapThread = false → s.me.st.role = .independent → s.me.out = [] ∨ s.cur.stage ≠ 0 →
        (s.myCore.flying < 64 → at_.hcore ≠ s.cur.core → leaves (.mig a) false s.cur.nextPc 0)
        ∧ (at_.hcore = s.cur.core → ∃ t, exec (.mig a) s = .next t ∧ t.me = s.me ∧ t.agenda = s.agenda ∧ OnlySent s t)))

/-- R97, R130–R133, R143–R145: where they do nothing, wait or trap: bar.arr, bar.wt and bar do nothing in a follower; bar.wt, and a bar whose arrival stands, wait until the phase of the thread's arrival has ended; a second arrival at a phase, an arrival with bits 63:56 set, an arrival of a thread that is no party and a bar.wt without an arrival trap with cause 0x102 and sub-causes 2, 3, 4 and 1; at a mapped address, a spawn with a misaligned start address traps with cause 0x061, one of either in a transaction with 0x143, and a thread that owns an accumulator, holds a snapshot or belongs to a gang cannot migrate (cause 0x126, sub-causes 1, 3, 4). The sub-cause of a thread that is no party and the order of the sub-causes (log 133), and the order of spawn's checks (log 145), are the model's choice. -/
def Obligations.BarrierAndContextWaitsAndTraps : Prop :=
  ∀ (s : State) (b : Fin 4) (x d a y : Fin 32) (e : Scope), s.cur.slot < 16 → s.cur.status = .run →
    let gp := s.gval x
    let ga := s.gval a
    let ref (p : CoreKey) : BarRef := { launch := s.me.launch, scope := e, inst := instanceOf e p, b := b.val }
    let waits (t : State) (r : BarRef) (phase : Nat) : Prop := t.cur.status = .blocked ∧ (∃ k, t.me.block = some k ∧ k.kind = .barWait r phase) ∧ t.me.regs = s.me.regs ∧ SameMemory s t
    (s.me.st.role = .follower → GivesNothing s (.barArr b x e) ∧ GivesNothing s (.barWt b e) ∧ GivesNothing s (.bar b x e))
    ∧ (s.me.st.role ≠ .follower → ∀ p, s.me.place = some p → ∀ z, s.me.arrival (ref p) = some z → (s.barrier (ref p)).phase ≤ z.phase →
      (∃ t, exec (.barWt b e) s = .next t ∧ waits t (ref p) z.phase) ∧ (z.stands = true → gp.toNat < 2 ^ 56 → ∃ t, exec (.bar b x e) s = .next t ∧ waits t (ref p) z.phase))
    ∧ (Alone s → s.me.st.sup = false →
      (∀ i ∈ [Instr.barArr b x e, .bar b x e],
        (s.me.place = none → ∃ t, exec i s = .next t ∧ TookTrap s t s.cur.pc 0x102 0 (if gp.toNat < 2 ^ 56 then 4 else 3))
        ∧ ∀ p, s.me.place = some p →
          (∀ z, s.me.arrival (ref p) = some z → z.phase = (s.barrier (ref p)).phase → (i = .bar b x e → z.stands = false) →
            ∃ t, exec i s = .next t ∧ TookTrap s t s.cur.pc 0x102 0 2)
          ∧ ((∀ z, s.me.arrival (ref p) = some z → z.phase ≠ (s.barrier (ref p)).phase) → 2 ^ 56 ≤ gp.toNat → ∃ t, exec i s = .next t ∧ TookTrap s t s.cur.pc 0x102 0 3))
      ∧ ((∀ p, s.me.place = some p → s.me.arrival (ref p) = none) → ∃ t, exec (.barWt b e) s = .next t ∧ TookTrap s t s.cur.pc 0x102 0 1))
    ∧ (∀ at_ : TlbEntry, ga.toNat < 2 ^ 55 → s.myCore.tlb.find? (fun z => z.maps s.me.ctx ga.toNat) = some at_ →
      (Alone s → s.me.st.sup = false →
        ((s.gval y).toNat % 4 ≠ 0 → LookupTrap s (.spawn d a y) { cause := 0x061, tval := s.gval y, tinf := 0 })
        ∧ (s.me.st.tx = true → (s.gval y).toNat % 4 = 0 → ∃ info, LookupTrap s (.spawn d a y) { cause := 0x143, tval := 0, tinf := info })
        ∧ (s.me.st.tx = true → ∃ info, AccessTrap s (.mig a) { cause := 0x143, tval := 0, tinf := info }))
      ∧ (s.me.st.tx = false → s.me.out = [] ∨ s.cur.stage ≠ 0 → ∀ sub : Nat,
        (s.ownsAcc = true ∧ sub = 1 ∨ s.ownsAcc = false ∧ s.me.snapThread = true ∧ sub = 3
          ∨ s.ownsAcc = false ∧ s.me.snapThread = false ∧ s.me.st.role ≠ .independent ∧ sub = 4) →
        ∃ s', OnlySent s s' ∧ s'.me = s.me ∧ s'.cur = s.cur ∧ exec (.mig a) s = .next ((forgetWalks s').trap 0x126 ga (BitVec.ofNat 64 sub))))

/-- R138–R141: msend with a payload of 1 to 256 bytes in the own scratchpad sends them to an existing core and waits for its answer; mrecv and mpoll copy the oldest message of the mailbox, the high-priority ring first, to the given place, free its entry and answer its header, and with no message in that ring look once more at the end of their issue cycle (R388); without a message then, mpoll answers 0 and mrecv waits; a mailbox above 3 and a malformed descriptor trap with cause 0x123. That the destination without a message is checked as one byte is the model's choice (log 134). -/
def Obligations.MessageResults : Prop :=
  ∀ (s : State) (d a b : Fin 32) (off : Nat), s.cur.slot < 16 → s.cur.status = .run → off < 2 ^ 18 → off % 8 = 0 →
    let gb := s.gval b
    let n := gb.toNat
    let len := n % 512
    let shaped : Prop := n / 2 ^ 12 % 2 ^ 32 = 0 ∧ 1 ≤ len ∧ len ≤ 256 ∧ n / 2 ^ 55 ≤ (s.pkg (pkgOf s.cur.core)).podN ∧ n / 2 ^ 48 % 32 < 24
    let unlocked (k : Nat) (w : Bool) : Prop := off + k ≤ 2 ^ 18 ∧ s.lockTrap s.meRef (.spad s.cur.core) off k w (s.gval a) = none
    (shaped → s.gval a = ownAddr off → unlocked len false →
      ∃ t r k, exec (.msend a b) s = .next t ∧ t.me.block = some k ∧ k.kind = .message r false ∧ t.cur.status = .blocked ∧ { t.me with block := s.me.block } = s.me ∧ OnlySent s t
        ∧ Sent t (s.cycle + s.oneWay s.cur.core (s.coreById (pkgOf s.cur.core) n)) (.remoteRequestArrival r) ∧ r.thread = s.meRef ∧ r.target = s.coreById (pkgOf s.cur.core) n
        ∧ r.op = .message (n / 2 ^ 9 % 4) (gb.getLsbD 11) len (Memory.getN s.myCore.spad off len))
    ∧ (¬ shaped → Alone s → s.me.st.sup = false → ∃ t, exec (.msend a b) s = .next t ∧ TookTrap s t s.cur.pc 0x123 gb 0)
    ∧ (3 < n → Alone s → s.me.st.sup = false → ∀ i ∈ [Instr.mrecv d a b, .mpoll d a b], ∃ t, exec i s = .next t ∧ TookTrap s t s.cur.pc 0x123 gb 0)
    ∧ (n ≤ 3 → s.cur.stage = 0 → s.myCore.oldest (2 * n + 1) = none → ∀ i ∈ [Instr.mrecv d a b, .mpoll d a b],
      ∃ t k, exec i s = .next t ∧ t.me.block = some k ∧ k.kind = .receive ∧ t.cur.status = .blocked ∧ { t.me with block := s.me.block } = s.me ∧ SameMemory s t
        ∧ ∃ x ∈ t.resumes, x.due = 4 * s.cycle + 3 ∧ x.thread = s.meRef ∧ x.id = k.id ∧ x.cur = { s.cur with stage := 1, status := .run })
    ∧ (n ≤ 3 → s.gval a = ownAddr off → s.cur.stage ≠ 0 → s.myCore.nextMessage n = none → unlocked 1 true →
      GivesG s (.mpoll d a b) d 0
      ∧ ∃ t k, exec (.mrecv d a b) s = .next t ∧ t.me.block = some k ∧ k.kind = .receive ∧ t.cur.status = .blocked ∧ { t.me with block := s.me.block } = s.me ∧ OnlySent s t)
    ∧ (∀ m, s.myCore.nextMessage n = some m → m.ring = 2 * n + 1 ∨ m.ring = 2 * n ∧ ∀ x ∈ s.myCore.rings, x.ring ≠ 2 * n + 1)
    ∧ (n ≤ 3 → s.gval a = ownAddr off → s.primaryOf s.cur.core = none → ∀ m, (s.cur.stage ≠ 0 ∧ s.myCore.nextMessage n = some m ∨ s.myCore.oldest (2 * n + 1) = some m) →
      unlocked m.len true → 1 ≤ m.len → ∀ i ∈ [Instr.mrecv d a b, .mpoll d a b], ∃ t, exec i s = .next t
        ∧ t.me.regs.getG d = Reg.full (if d = 0 then 0 else s.messageHeader m) ∧ (∀ x, x ≠ .g d → SameReg s t x) ∧ { t.me with regs := s.me.regs } = s.me
        ∧ t.myCore.rings = s.myCore.rings.erase m ∧ SameMemory s t
        ∧ ∀ x, Memory.get t.myCore.spad x = if off ≤ x ∧ x < off + m.len then Memory.get s.myCore.spad (s.myCore.ringAt m.ring m.place + (x - off)) else Memory.get s.myCore.spad x)

/-- R212, R214, R239: gang with a count from 1 to 3, every needed slot of the quad free and of the launch's placement, starts that many followers with its Full g and m registers, without their marks, and context, one for each next core of the quad, and answers 0; a count outside 1 to 3 answers 2, a member of a gang gets 3, a core without the slots or a mirrored launch 1, with nothing else changed; split makes its thread independent. The order of the answers is the model's choice (log 79). -/
def Obligations.GangResults : Prop :=
  ∀ (s : State) (d a : Fin 32), s.cur.slot < 16 → s.me.out = [] ∨ s.cur.stage ≠ 0 →
    let n := (s.gval a).toNat
    let core (k : Nat) : CoreKey := s.cur.core / 4 * 4 + (s.cur.core % 4 + k) % 4
    let free (c : CoreKey) : Prop := (s.slot c s.cur.slot).occ = .free ∧ ∃ l, s.launch? s.me.launch = some l ∧ c ∈ l.cores
    (n = 0 ∨ 3 < n → GivesG s (.gang d a) d 2)
    ∧ (1 ≤ n → n ≤ 3 → s.me.st.role ≠ .independent → GivesG s (.gang d a) d 3)
    ∧ (1 ≤ n → n ≤ 3 → s.me.st.role = .independent → (s.mirroredLaunch = true ∨ ∃ k, 1 ≤ k ∧ k ≤ n ∧ ¬ free (core k)) → GivesG s (.gang d a) d 1)
    ∧ (1 ≤ n → n ≤ 3 → s.me.st.role = .independent → s.mirroredLaunch = false → (∀ k, 1 ≤ k → k ≤ n → free (core k)) →
      ∃ t, exec (.gang d a) s = .next t ∧ t.me.regs.getG d = Reg.full 0 ∧ t.me.st = { s.me.st with role := .leader, gidx := 0 } ∧ t.me.gang.length = n ∧ SameMemory s t
        ∧ ∀ k, 1 ≤ k → k ≤ n → let f := t.slot (core k) s.cur.slot
          f.occ = .thread ∧ f.gen = ((s.slot (core k) s.cur.slot).gen + 1) % 65536 ∧ f.gang = [s.meRef] ∧ f.st.role = .follower ∧ f.st.gidx.val = k ∧ f.idx = s.me.idx
            ∧ f.launch = s.me.launch ∧ f.ctx = s.me.ctx ∧ f.pc = s.me.pc
            ∧ (∀ i, i ≠ d → (s.me.regs.getG i).tag = .full → f.regs.getG i = { s.me.regs.getG i with mark := none }) ∧ (∀ i, i ≠ 0 → (s.me.regs.getM i).tag ≠ .full → (f.regs.getM i).tag = .void)
            ∧ ∀ i, (f.regs.getV i).tag = .void)
    ∧ ∃ t, exec .split s = .next t ∧ t.me = { s.me with gang := [], st := { s.me.st with role := .independent, gidx := 0 } } ∧ OnlyMySlot s t

/-- R148, R150, R153, R154: snap and txb ask the registry of the package, which waits for no memory access; a fifth transaction of a core answers 0 at once, and so does a txc without a transaction, or with one that wrote nothing; a failed one answers 2; a txc that wrote goes to every home it wrote at and waits; txa and the answers 0 and 2 of a txc end the transaction, with cr.snap as it was before; snend gives the thread its launch's snapshot back; snap, snend and txb in a transaction trap with cause 0x143. -/
def Obligations.SnapshotTransactionResults : Prop :=
  ∀ (s : State) (d : Fin 32), s.cur.slot < 16 → s.cur.status = .run → s.primaryOf s.cur.core = none →
    let asks (i : Instr) (p : RegistryReq → Prop) : Prop := ∃ t k q, exec i s = .next t ∧ t.me.block = some k ∧ k.kind = .registry d ∧ t.cur.status = .blocked
      ∧ { t.me with block := s.me.block } = s.me ∧ SameMemory s t ∧ Sent t (s.cycle + s.homeLatency s.myClu (pkgOf s.cur.core * 96) / 2) (.registryRequest (pkgOf s.cur.core) q) ∧ p q
    let ended (t : State) (tx : Tx) : Prop := t.me.tx = none ∧ t.me.snap = tx.savedSnap ∧ t.me.st = { s.me.st with tx := false } ∧ SameMemory s t
    (s.me.st.tx = false →
      asks (.snap d) (fun q => ∃ id, q = .snap s.meRef id (max s.myCore.time 1))
      ∧ (s.myCore.openTx < 4 → asks (.txb d) (fun q => ∃ id, q = .txb s.meRef id (max s.myCore.time 1)))
      ∧ (4 ≤ s.myCore.openTx → ∃ t, exec (.txb d) s = .next t ∧ t.me.regs.getG d = Reg.full 0 ∧ (∀ r, r ≠ .g d → SameReg s t r) ∧ t.me.st = s.me.st ∧ SameMemory s t)
      ∧ (s.me.snapThread = false → s.holdsSnapshot s.meRef = false → GivesNothing s .snend)
      ∧ (s.me.snapThread = true ∨ s.holdsSnapshot s.meRef = true → ∃ t, exec .snend s = .next t ∧ t.me = { s.me with snap := s.launchSnap s.me.launch, snapThread := false } ∧ SameMemory s t
          ∧ ∀ p, (t.pkg p).registry = (s.pkg p).registry.filter (fun e => e.owner ≠ .thread s.meRef)))
    ∧ (s.me.tx = none → GivesG s (.txc d) d 0 ∧ GivesNothing s .txa)
    ∧ (∀ tx, s.me.tx = some tx →
      (tx.failed = true → ∃ t, exec (.txc d) s = .next t ∧ ended t tx ∧ t.me.regs.getG d = Reg.full (if d = 0 then 0 else 2) ∧ ∀ r, r ≠ .g d → SameReg s t r)
      ∧ (tx.failed = false → tx.sectors = [] → ∃ t, exec (.txc d) s = .next t ∧ ended t tx ∧ t.me.regs.getG d = Reg.full 0 ∧ ∀ r, r ≠ .g d → SameReg s t r)
      ∧ (tx.failed = false → tx.sectors ≠ [] → ∃ t k, exec (.txc d) s = .next t ∧ t.me.block = some k ∧ k.kind = .txc d ∧ t.cur.status = .blocked ∧ t.me.regs = s.me.regs ∧ SameMemory s t
          ∧ ∀ x ∈ tx.sectors, ∃ id, Sent t (s.cycle + s.homeLatency s.myClu x.home / 2) (.transactionPrepare s.meRef id x.home))
      ∧ ∃ t, exec .txa s = .next t ∧ ended t tx ∧ t.me.regs = s.me.regs)
    ∧ (Alone s → s.me.st.sup = false → s.me.st.tx = true → ∀ i ∈ [Instr.snap d, .snend, .txb d], ∃ info, AccessTrap s i { cause := 0x143, tval := 0, tinf := info })

/-- R127, R128, R146, R211, R324: cpub of a mapped code page marks each line that its bytes meet, one each 4 cycles from cycle 60 of its issue on, and waits until its times have reached its scope; more than 65,536 bytes or two pages trap with cause 0x164, a page without code with 0x163; cfgld answers 0 after 8 cycles for an image in the cluster's cache, and else asks for its map entry; lnch sends the places of its record, four mapped sectors that the supervisor may read, to the launch unit of the die, 100 cycles away. -/
def Obligations.PublishLoadLaunchResults : Prop :=
  ∀ (s : State) (d n x : Fin 32) (e : Scope) (p : TlbEntry), s.cur.slot < 16 → s.cur.status = .run →
    let gb := s.gval n
    let k := (s.gval x).toNat
    let far := s.homeLatency s.myClu p.home - 120
    let maps (va : Word) : Prop := va.toNat < 2 ^ 55 ∧ s.myCore.tlb.find? (fun e => e.maps s.me.ctx va.toNat) = some p
    (maps gb → k ≤ 65536 → (k = 0 ∨ gb.toNat / 65536 = (gb.toNat + k - 1) / 65536) → (s.me.st.sup = true ∨ p.u = true) →
      (p.r = true ∨ p.w = true ∨ p.x = true) →
      (p.code = true → s.me.st.tx = false → s.me.out = [] ∨ s.cur.stage ≠ 0 →
        ∃ t id q l, exec (.cpub n x e) s = .next t ∧ Waits s t (.cpub l q)
          ∧ (0 < k → ∀ i, p.phys gb.toNat / 256 + i ≤ (p.phys gb.toNat + k - 1) / 256 → Sent t (s.cycle + 60 + 4 * i + far) (.publishMark { thread := s.meRef, id := id, line := 256 * (p.phys gb.toNat / 256 + i) } q))
          ∧ s.myCore.time < q
          ∧ Sent t (s.cycle + 60 + 4 * (if k = 0 then 0 else (p.phys gb.toNat + k - 1) / 256 + 1 - p.phys gb.toNat / 256) + s.broadcast s.cur.core e + far) (.cpubTimeBroadcast s.meRef id e q))
      ∧ (p.code = false → Alone s → s.me.st.sup = false → AccessTrap s (.cpub n x e) { cause := 0x163, tval := gb, tinf := 0 }))
    ∧ (gb.toNat < 2 ^ 55 → 65536 < k → Alone s → s.me.st.sup = false → AccessTrap s (.cpub n x e) { cause := 0x164, tval := gb, tinf := s.gval x })
    ∧ (((s.clu s.myClu).cached s.me.ctx ((s.gval n).toNat % 1024)).isSome = true →
      ∃ t, exec (.cfgld d n) s = .next t ∧ t.me.regs = s.me.regs.retag .pending (.g d) ∧ Completes s t (s.cycle + 8) (.g d) 0 ∧ OnlySent s t)
    ∧ (((s.clu s.myClu).cached s.me.ctx ((s.gval n).toNat % 1024)).isSome = false →
      ∃ t f, exec (.cfgld d n) s = .next t ∧ t.me.regs = s.me.regs.retag .pending (.g d) ∧ t.me.out = { id := s.fresh, kind := .long, pa := 0, size := 0 } :: s.me.out ∧ SameMemory s t
        ∧ (t.clu s.myClu).imgFetches = (s.clu s.myClu).imgFetches ++ [f] ∧ f.ctx = s.me.ctx ∧ f.fid = (s.gval n).toNat % 1024 ∧ f.addr = none
        ∧ f.answer.thread = s.meRef ∧ f.answer.id = s.fresh ∧ f.answer.dst = .g d
        ∧ f.at_ = s.cycle + s.sectorLatency s.myClu s.me.ctx (s.mapEntry (pkgOf s.cur.core) s.me.ctx ((s.gval n).toNat % 1024)))
    ∧ (gb.toNat % 256 = 0 → maps gb → p.r = true → s.myCore.locks = [] → s.me.st.tx = false → s.me.out = [] ∨ s.cur.stage ≠ 0 →
      ∃ t m, exec (.lnch d n) s = .next t ∧ t.me.regs = s.me.regs.retag .pending (.g d) ∧ t.me.out = { id := s.fresh, kind := .long, pa := 0, size := 0 } :: s.me.out ∧ SameMemory s t
        ∧ Sent t (s.cycle + 100) (.lnchSubmission m) ∧ m.thread = s.meRef ∧ m.dst = d ∧ m.va = gb ∧ m.time = s.myCore.time ∧ m.issue = s.cycle
        ∧ m.sectors = (List.range 4).map (fun i => p.phys gb.toNat + 64 * i))

/-! ### The tile unit, the copy engine and the server (chapters 7 and 8) -/

/-- R177, R181, R186, R187: a tile command whose operands are in order enters the unit's queue with what it samples at issue, and claims its accumulator: mma, gmma and mmas with their format, kv, A, scale bytes and weight record, and a read lock on A (a gmma on the first core of its quad only); mzero, the drains and an mva write with their own operands. R181: what a tile multiply refuses, in order: a format that it cannot use (0x0C1), an accumulator of another slot (0x0C4, with the owner), A in global memory (0x063), A not 64-byte aligned (0x061), a weight handle with bits set that must be 0 (0x0C2); neither queue nor lock nor owner changes. -/
def Obligations.TileCommandsQueueOrAreRefused : Prop :=
  (
    ∀ (s : State) (a : Fin 4) (x y : Fin 32) (v : Fin 16), s.cur.slot < 16 → s.cur.status = .run → s.primaryOf s.cur.core = none → AccFree s a →
      let place := s.gval y
      TileQueues s (.mzero a) a [] (fun c => c.op = .mzero)
      ∧ TileQueues s (.mvaToAccumulator a v y) a [] (fun c => c.op = .mvaWrite (place.toNat % 32) (place.toNat / 32 % 2) (s.vval v))
      ∧ (a ∉ s.myCore.accDamage →
        TileQueues s (.mdrain a x y) a [] (fun c => c.op = .mdrain false false ((s.gval x).toNat % 1024) (s.gval y))
        ∧ TileQueues s (.mdrainZ a x y) a [] (fun c => c.op = .mdrain true false ((s.gval x).toNat % 1024) (s.gval y))
        ∧ TileQueues s (.mdrainRel a x y) a [] (fun c => c.op = .mdrain false true ((s.gval x).toNat % 1024) (s.gval y))
        ∧ ∀ f off, tileFmtOf s.me.mfmt.toNat = some f → s.gval x = ownAddr off → off % 64 = 0 →
          let h := (s.gval y).toNat
          ∀ k ∈ [(Instr.mma a x y, TileOp.mma, false), (.gmma a x y, .gmma, false), (.mmas a x y, .mmas, true)],
            let n := tileScales f k.2.2
            let leads : Bool := k.2.1 != .gmma || s.cur.core % 4 = 0
            (k.2.2 = true → f = .tap8 ∨ f = .int8) → off + 32 * tileRow k.2.2 ≤ 2 ^ 18 → s.me.ascl.toNat + 32 * n ≤ 2 ^ 18 →
            h % 64 = 0 → h + tileRecord f k.2.2 ≤ 2 ^ 24 → (∀ l ∈ s.myCore.locks, l.space = .weights → l.write = false) →
            (k.2.1 = .gmma → s.fourPerQuad = true) → (leads = true → s.myCore.locks.length < 16) →
            TileQueues s k.1 a (if leads then [{ space := .spad s.cur.core, lo := off, hi := off + 32 * tileRow k.2.2, write := false, owner := s.fresh }] else [])
              (fun c => c.op = k.2.1 ∧ c.fmt = f ∧ c.kv = min s.me.kval.toNat (tileKfull f k.2.2) ∧ c.aOff = off ∧ c.handle = h
                ∧ c.aScale = Memory.getN s.myCore.spad s.me.ascl.toNat (32 * n) ∧ (k.2.1 = .gmma → c.join = s.myCore.tile.joinNumber s.me.launch))))
  ∧ (
    ∀ (s : State) (a : Fin 4) (x y : Fin 32), Alone s → s.me.st.sup = false →
      let traps (i : Instr) (cause : Nat) (tval tinf : Word) : Prop := ∃ t, exec i s = .next t ∧ TookTrap s t s.cur.pc cause tval tinf
      ∀ i ∈ [Instr.mma a x y, .gmma a x y, .mmas a x y],
        (4 < s.me.mfmt.toNat → traps i 0x0C1 (s.readCR 0x020) 0)
        ∧ (s.me.mfmt.toNat ≤ 4 → i ≠ .mmas a x y ∨ s.me.mfmt.toNat = 0 ∨ s.me.mfmt.toNat = 2 →
          (∀ o, s.myCore.accOwn[a] = some o → o.val ≠ s.cur.slot → traps i 0x0C4 (BitVec.ofNat 64 a.val) (BitVec.ofNat 64 o.val))
          ∧ (AccFree s a → a ∉ s.myCore.accDamage →
            ((s.gval x).toNat < 2 ^ 62 → traps i 0x063 (s.gval x) 0)
            ∧ ∀ off < 2 ^ 18, s.gval x = ownAddr off →
              (off % 64 ≠ 0 → traps i 0x061 (s.gval x) 0)
              ∧ (off % 64 = 0 → off + 36864 ≤ 2 ^ 18 → s.me.ascl.toNat + 1152 ≤ 2 ^ 18 → ((s.gval y).toNat % 64 ≠ 0 ∨ 2 ^ 24 ≤ (s.gval y).toNat) → traps i 0x0C2 (s.gval y) 0))))

/-- R186, R190, R193, R201, R204–R206: where the instructions that read or steer the engines complete: with no command of its thread left on the accumulator, mva reads 16 elements of a row into its lanes and claims it, mwait does nothing and mwait.rel queues a release step, whose end it awaits; on an unowned accumulator both do nothing; once every copy command of its thread has completed or stopped, cwait answers whether one was cancelled and clears the note; gres lets the stopped command go on, gcan ends it with its locks and notes it; swset puts the low 56 bits of its source into the target of a sync word, carrying a full count into the generation; swwait answers a generation that differs from bits 15:0 of its source. That commands behind a stopped one of the thread count as stopped is the model's reading (log 39). -/
def Obligations.EngineWaitCompletion : Prop :=
  ∀ (s : State) (v : Fin 16) (n : Fin 4) (d a b : Fin 32) (off : Nat), s.cur.slot < 16 → s.cur.status = .run → s.primaryOf s.cur.core = none →
    let row := (s.gval b).toNat % 32
    let half := (s.gval b).toNat / 32 % 2
    let idle := s.myCore.tilePending s.meRef n = []
    let w := bytesNat (Memory.getN s.myCore.spad off 16)
    let target := (s.gval b).toNat % 2 ^ 56
    let count := w / 2 ^ 56 % 2 ^ 56
    let gen := w / 2 ^ 112
    (AccFree s n →
      (idle → n ∉ s.myCore.accDamage → ∃ t o, exec (.mvaToVector v n b) s = .next t ∧ (∀ r, r ≠ .v v → SameReg s t r) ∧ { t.me with regs := s.me.regs } = s.me ∧ SameMemory s t
        ∧ t.myCore.accOwn[n] = some o ∧ o.val = s.cur.slot ∧ t.myCore.acc = s.myCore.acc ∧ (t.me.regs.getV v).tag = .full ∧ (t.me.regs.getV v).mark = none
        ∧ ∀ i < 16, lane (t.me.regs.getV v).val i = s.myCore.acc[n].getD (32 * row + 16 * half + i) 0)
      ∧ (idle ∨ s.myCore.accOwn[n] = none → GivesNothing s (.mwait n))
      ∧ (s.myCore.accOwn[n] = none → GivesNothing s (.mwaitRel n))
      ∧ (idle → s.myCore.accOwn[n] ≠ none → s.myCore.tile.queue.length < 2 → ∃ t k c, exec (.mwaitRel n) s = .next t ∧ t.me.block = some k ∧ k.kind = .engine ∧ t.cur.status = .blocked
          ∧ { t.me with block := s.me.block } = s.me ∧ t.myCore.tile.queue = s.myCore.tile.queue ++ [c] ∧ c.op = .release ∧ c.acc = n ∧ c.thread = s.meRef ∧ SameMemory s t))
    ∧ (s.myCore.copyDone s.meRef = true → s.me.copyEnd ≤ s.cycle → s.myCore.copyFault s.meRef = none →
        ∃ t, exec (.cwait d) s = .next t ∧ t.me.regs.getG d = Reg.full (if d = 0 then 0 else if s.me.cancelled then 1 else 0)
          ∧ (∀ r, r ≠ .g d → SameReg s t r) ∧ { t.me with regs := s.me.regs, cancelled := s.me.cancelled } = s.me ∧ t.me.cancelled = false ∧ OnlyMySlot s t)
    ∧ (s.hasStopped = true →
      (∃ t, exec .gres s = .next t ∧ t.me = s.me ∧ SameMemory s t ∧ t.hasStopped = false
        ∧ t.myCore.copy.cmds.map (fun c => { c with stopped := none }) = s.myCore.copy.cmds.map (fun c => { c with stopped := none })
        ∧ ∃ q ∈ t.agenda, q.due = 4 * s.cycle + 2 ∧ q.ev = .copyCommandStart s.cur.core)
      ∧ ∀ c, s.myCore.copy.cmds.find? (fun c => c.thread = s.meRef && c.stopped.isSome) = some c → c.hasStopped = true →
        ∃ t, exec .gcan s = .next t ∧ { t.me with copyEnd := s.me.copyEnd } = { s.me with cancelled := true } ∧ SameMemory s t
          ∧ t.myCore.copy.cmds = s.myCore.copy.cmds.filter (fun x => x.id != c.id) ∧ t.myCore.locks = s.myCore.locks.filter (fun l => l.owner != c.id)
          ∧ ∃ q ∈ t.agenda, q.due = 4 * s.cycle + 2 ∧ q.ev = .copyCommandStart s.cur.core)
    ∧ (off < 2 ^ 18 → off % 16 = 0 → s.gval a = ownAddr off →
      (s.lockTrap s.meRef (.spad s.cur.core) off 16 true (ownAddr off) = none →
        StoresOwn s (.swset a b) off 16 (if target = 0 then count * 2 ^ 56 + gen * 2 ^ 112 else target + count % target * 2 ^ 56 + (gen + count / target) % 2 ^ 16 * 2 ^ 112))
      ∧ (s.lockTrap s.meRef (.spad s.cur.core) off 16 false (ownAddr off) = none → gen ≠ (s.gval b).toNat % 2 ^ 16 → GivesG s (.swwait d a b) d (BitVec.ofNat 64 gen)))

/-- R194–R200: a copy command that passes the checks of R198, and whose ranges conflict with no lock, enters the engine's queue with its operands and the locks of its ranges, wsld only in its launch's load window; one that meets a lock is tried again; one that fails a check traps with cause 0x0A2 and the check's number; no byte moves at issue. -/
def Obligations.CopyCommandsQueue : Prop :=
  ∀ (s : State) (d a b : Fin 32), s.cur.slot < 16 → s.cur.status = .run →
    ∀ f ∈ copyForms s d a b,
      let (i, kind, dst, dst2, src, src2, gc) := f
      let rs := s.copyRanges s.cur.core kind dst dst2 src src2 gc
      let conflicts := rs.any s.myCore.lockConflict
      (s.copyCheck kind dst dst2 src src2 gc = none → (kind = .wsld → (s.clu s.myClu).window = some s.me.launch) →
        (conflicts = false → s.myCore.locks.length + rs.length ≤ 16 →
          ∃ t c, exec i s = .next t ∧ t.me.out = { id := s.fresh, kind := .copyCommand, pa := 0, size := 0 } :: s.me.out ∧ { t.me with out := s.me.out } = s.me
            ∧ t.myCore.copy.cmds = s.myCore.copy.cmds ++ [c] ∧ c.id = s.fresh ∧ c.thread = s.meRef ∧ c.kind = kind ∧ c.dst = dst ∧ c.dst2 = dst2 ∧ c.src = src ∧ c.src2 = src2
            ∧ c.gc = gc ∧ c.ctx = s.me.ctx ∧ c.launch = s.me.launch ∧ c.next = 0 ∧ c.started = false ∧ c.stopped = none ∧ c.issue = s.cycle
            ∧ t.myCore.locks = s.myCore.locks ++ rs.map (fun r => { space := r.1, lo := r.2.1.toNat, hi := r.2.2.1.toNat, write := r.2.2.2, owner := s.fresh })
            ∧ t.myCore.spad = s.myCore.spad ∧ SameMemory s t ∧ (∀ k, k ≠ s.cur.core → t.core k = s.core k)
            ∧ ∃ q ∈ t.agenda, q.due = 4 * (s.cycle + 1) + 2 ∧ q.ev = .copyCommandStart s.cur.core)
        ∧ (conflicts = true → Parks s i))
      ∧ (Alone s → s.me.st.sup = false → ∀ n v, s.copyCheck kind dst dst2 src src2 gc = some (n, v) → ∃ t, exec i s = .next t ∧ TookTrap s t s.cur.pc 0x0A2 v (BitVec.ofNat 64 n))
      ∧ (Alone s → s.me.st.sup = false → s.copyCheck kind dst dst2 src src2 gc = none → kind = .wsld → (s.clu s.myClu).window ≠ some s.me.launch →
          ∃ t, exec i s = .next t ∧ TookTrap s t s.cur.pc 0x0C5 dst 0)

/-- R186, R192, R193, R201, R204, R206: where they are tried again, wait or trap: while commands of its thread are left on an accumulator, mva and, when it is owned, mwait and mwait.rel are tried again; a record of a poisoned drain traps them and is consumed; cwait is tried again until every command of its thread has completed or stopped, and in the cycle in which the last one completes, and then takes the trap of one that stopped or completed with a fault; gres and gcan without a stopped command trap with cause 0x0A4; swwait waits while the generation equals bits 15:0 of its source. -/
def Obligations.EngineWaitsAndTraps : Prop :=
  ∀ (s : State) (v : Fin 16) (n : Fin 4) (d a b : Fin 32) (off : Nat), s.cur.slot < 16 → s.cur.status = .run → s.primaryOf s.cur.core = none →
    let idle := s.myCore.tilePending s.meRef n = []
    let w := bytesNat (Memory.getN s.myCore.spad off 16)
    let ready : Prop := s.myCore.copyDone s.meRef = true ∧ s.me.copyEnd ≤ s.cycle
    ((∀ o, s.myCore.accOwn[n] = some o → o.val = s.cur.slot) → ¬ idle →
        (∃ t, exec (.mvaToVector v n b) s = .next t ∧ t.cur.status = .parked ∧ t.me.regs = s.me.regs ∧ t.me.pc = s.me.pc ∧ SameMemory s t)
        ∧ (s.myCore.accOwn[n] ≠ none → ∀ i ∈ [Instr.mwait n, .mwaitRel n],
          ∃ t, exec i s = .next t ∧ t.cur.status = .parked ∧ t.me.regs = s.me.regs ∧ t.me.pc = s.me.pc ∧ SameMemory s t))
    ∧ (Alone s → s.me.st.sup = false → (∀ o, s.myCore.accOwn[n] = some o → o.val = s.cur.slot) → idle → ∀ x, s.me.drainRecs.find? (fun r => r.1 = n) = some (n, x) →
        ∀ i ∈ [Instr.mvaToVector v n b, .mwait n, .mwaitRel n], ∃ t, exec i s = .next t
          ∧ TookTrap (s.modMe (fun sl => { sl with drainRecs := sl.drainRecs.filter (fun r => r.1 != n) })) t s.cur.pc x.cause x.tval x.tinf)
    ∧ (¬ ready → Parks s (.cwait d))
    ∧ (Alone s → s.me.st.sup = false → ready → ∀ x, s.myCore.copyFault s.meRef = some x → ∃ s' t, s'.me = s.me ∧ (x.cause ≠ 0x0A5 → s' = s)
        ∧ { s'.myCore with copy := s.myCore.copy } = s.myCore ∧ s'.cur = s.cur ∧ exec (.cwait d) s = .next t ∧ TookTrap s' t s.cur.pc x.cause x.tval x.tinf)
    ∧ (Alone s → s.me.st.sup = false → s.hasStopped = false → ∀ i ∈ [Instr.gres, .gcan], ∃ t, exec i s = .next t ∧ TookTrap s t s.cur.pc 0x0A4 0 0)
    ∧ (off < 2 ^ 18 → off % 16 = 0 → s.gval a = ownAddr off → s.lockTrap s.meRef (.spad s.cur.core) off 16 false (ownAddr off) = none →
      w / 2 ^ 112 = (s.gval b).toNat % 2 ^ 16 → ∃ t, exec (.swwait d a b) s = .next t ∧ Waits s t (.syncWait off (w / 2 ^ 112) d))

/-- R208, R209: a call leaves its destination Pending; while an earlier store, atomic or reduction of its thread is unacknowledged it waits; then it goes to the rooks of its cluster, 6 cycles away, with its arguments, context, mode and time; serve waits for its result, servn goes on. -/
def Obligations.ServerCallResults : Prop :=
  ∀ (s : State) (d a : Fin 32) (n : Fin 8) (f : BitVec 10), s.cur.slot < 16 → s.cur.status = .run →
    let early := ∃ o ∈ s.me.out, o.kind = .globalStore ∨ o.kind = .reduction ∨ o.kind = .atomic
    ∀ k ∈ [(Instr.serve d a n f, true), (.servn d a n f, false)],
      (s.cur.stage = 0 → early → s.primaryOf s.cur.core = none → ∃ t b, exec k.1 s = .next t ∧ t.me.regs = s.me.regs.retag .pending (.g d) ∧ t.me.block = some b ∧ b.kind = .stores
        ∧ t.cur.status = .blocked ∧ t.me.out = s.me.out ∧ OnlySent s t)
      ∧ (s.cur.stage ≠ 0 ∨ ¬ early → ∃ t m, exec k.1 s = .next t ∧ t.me.regs = s.me.regs.retag .pending (.g d)
        ∧ t.me.out = { id := s.fresh, kind := .call, pa := 0, size := 0 } :: s.me.out ∧ Sent t (s.cycle + 6) (.callArrival m) ∧ OnlySent s t
        ∧ m.thread = s.meRef ∧ m.id = s.fresh ∧ m.serve = k.2 ∧ m.dst = d ∧ m.fid = f.toNat ∧ m.ctx = s.me.ctx ∧ m.sup = s.me.st.sup ∧ m.cluster = s.myClu ∧ m.time = s.myCore.time
        ∧ m.args = (List.range (n.val + 1)).map (fun j => s.gval (a + ⟨j % 32, Nat.mod_lt _ (by decide)⟩))
        ∧ (k.2 = true → t.cur.status = .blocked ∧ ∃ b, t.me.block = some b ∧ b.kind = .serve)
        ∧ (k.2 = false → t.cur.status = .run ∧ t.me.block = s.me.block))

/-! ### Events of threads, homes and translation -/

/-- R11, R26, R29, R137, R10, R228, R212, R97, R246, R142–R145, R242, R243, R258, R341: what the events of threads do: results and fills reach their registers, acknowledgements end operations, limits and interrupts bring a thread to its handler, a follower's bundle takes its reserved cycle, a drained thread is scrubbed and its slot freed with its generation, contexts arrive, are installed and answered, and a tick raises the time of every core of its package. -/
def Obligations.ThreadEvents : Prop :=
  ∀ (s : State) (r : ThreadRef),
    let sl := s.slot r.core r.slot
    let k := s.core r.core
    (∀ c : Completion, c.thread = r → Held s r → k.portCycle ≠ s.cycle → (∃ o ∈ sl.out, o.id = c.id) → sl.regs.tag c.dst = .pending →
      Does s (.longOperationCompletion c) (fun t => (t.slot r.core r.slot).regs = sl.regs.put c.dst c.val c.mark ∧ Ends s t r c.id ∧ (t.core r.core).time = max k.time c.raise ∧ SameMemory s t))
    ∧ (∀ c : Completion, c.thread = r → k.portCycle = s.cycle → 2 ≤ k.portUsed →
      Does s (.longOperationCompletion c) (fun t => Posts t (4 * (s.cycle + 1)) (.longOperationCompletion c) ∧ t.slot r.core r.slot = sl))
    ∧ (∀ f : FillMsg, f.target = r → Held s r → k.fillCycle ≠ some s.cycle → (r.core = f.sender.core ∨ s.admitsCtx r.core f.ctx = true) → sl.isSaved = false → sl.regs.tag f.dst = .opened →
      Does s (.fillArrival f) (fun t => (t.slot r.core r.slot).regs = sl.regs.put f.dst (if f.bad.isSome then f.val.setWidth 512 else fillValue f.dst f.val) (f.bad.map poisonMark) ∧ (t.core r.core).time = max k.time f.time
        ∧ Posts t (4 * (s.cycle + s.oneWay r.core f.sender.core)) (.fillAcknowledgement f.sender f.id)))
    ∧ (∀ f : FillMsg, f.target = r → Single s r.core → k.fillCycle ≠ some s.cycle →
      (r.core ≠ f.sender.core ∧ s.admitsCtx r.core f.ctx = false ∨ s.matches_ r = false ∨ sl.isSaved = true ∨ sl.regs.tag f.dst ≠ .opened) →
      Does s (.fillArrival f) (fun t => (t.slot r.core r.slot).regs = sl.regs ∧ (t.core r.core).dropc = k.dropc + 1 ∧ (t.core r.core).time = max k.time f.time ∧ Posts t (4 * (s.cycle + s.oneWay r.core f.sender.core)) (.fillAcknowledgement f.sender f.id)))
    ∧ (∀ id, Held s r → (∃ o ∈ sl.out, o.id = id) → Does s (.fillAcknowledgement r id) (fun t => Ends s t r id ∧ SameMemory s t))
    ∧ (∀ since info, Plain s r → sl.occ = .thread → sl.openSince = some (since, info) → since + max 1 sl.wlim.toNat ≤ s.cycle → s.phase = 2 →
      Does s (.openWaitLimit r) (fun t => Entered s t r sl.pc 0x022 0 info))
    ∧ (∀ x, Plain s r → s.eligible r.core r.slot = true → sl.st.ie = true → lowestInt sl.ints = some x →
      Does s (.interruptTaken r) (fun t => Entered (s.modSlot r.core r.slot (fun sl => { sl with ints := sl.ints.erase x })) t r sl.pc x.code 0 x.info))
    ∧ (∀ f : FollowMsg, f.thread = r → Does s (.gangFollowerIssue f) (fun t => (t.core r.core).reservedCycle = some s.cycle ∧ t.forced = s.forced ++ [f]))
    ∧ (Held s r → sl.occ = .draining → k.engineBusy r = false →
      (sl.out ≠ [] → Does s (.threadRetirement r) (fun t => Posts t (4 * (s.cycle + 1) + 2) (.threadRetirement r) ∧ (t.slot r.core r.slot).occ = .draining))
      ∧ (sl.out = [] → k.owned r.slot = [] → Does s (.threadRetirement r) (fun t => (t.slot r.core r.slot).occ = .scrubbing ∧ (t.slot r.core r.slot).gen = sl.gen
          ∧ (t.slot r.core r.slot).tx = none ∧ (t.slot r.core r.slot).monitors = Vector.replicate 4 none ∧ Posts t (4 * (s.cycle + 33)) (.slotScrub r) ∧ SameMemory s t)))
    ∧ (r.slot < 16 → Single s r.core → sl.occ = .scrubbing → sl.gen = r.gen →
      Does s (.slotScrub r) (fun t => t.slot r.core r.slot = { Slot.init with gen := sl.gen } ∧ Posts t s.now (.contextInstallation r.core)))
    ∧ (∀ c : CtxMsg, s.phase < 2 → Does s (.contextArrival c) (fun t => Posts t (4 * s.cycle + 2) (.contextArrival c) ∧ SameMemory s t))
    ∧ (∀ c : CtxMsg, 2 ≤ s.phase → c.target = r.core → Single s r.core → (∀ l, s.launch? c.launch = some l → l.aborted = none) → s.coreSaved r.core = false → k.ctxLast = c.ctx → k.scrubUntil = none →
      (k.arrivals = [] → k.spillCnt = 0 → k.freeSlot = some r.slot → Does s (.contextArrival c) (fun t => (t.slot r.core r.slot).occ = .reserved ∧ (t.slot r.core r.slot).gen = (sl.gen + 1) % 65536
          ∧ (t.core r.core).time = max k.time c.time ∧ Posts t (4 * (s.cycle + 3)) (.contextInstallation r.core)
          ∧ Posts t (4 * (s.cycle + s.oneWay r.core c.sender.core)) (.contextReply c (.slot { core := r.core, slot := r.slot, gen := (sl.gen + 1) % 65536 }))))
      ∧ (k.freeSlot = none → k.spillCnt = 0 → k.arrivals.length < 16 → Does s (.contextArrival c) (fun t => (t.core r.core).arrivals = k.arrivals ++ [c]
          ∧ Posts t (4 * (s.cycle + s.oneWay r.core c.sender.core)) (.contextReply c .queued))))
    ∧ (∀ x : Install, Single s r.core → r.slot < 16 → k.installs = [x] → x.slot = r.slot → x.start + 3 ≤ s.cycle → k.arrivals = [] → k.spillCnt = 0 →
      Does s (.contextInstallation r.core) (fun t => let n := t.slot r.core r.slot
        n.occ = .thread ∧ n.pc = x.ctx.pc ∧ n.idx = x.ctx.idx ∧ n.launch = x.ctx.launch ∧ n.ctx = x.ctx.ctx ∧ n.gen = sl.gen ∧ n.byBranch = true
          ∧ (∀ i : Fin 32, 1 ≤ i.val → i.val ≤ 8 → (n.regs.getG i).val = x.ctx.args.getD (i.val - 1) 0 ∧ (n.regs.getG i).tag = .full) ∧ (∀ i, (n.regs.getV i).tag = .void)))
    ∧ (∀ got part, k.spillMove = some got → part < 3 → Does s (.spillMove r.core part) (fun t =>
        (t.core r.core).spillMove = some (got ++ Memory.getN k.spad (k.spillAt k.spillHead + 32 * part) 32) ∧ Posts t (4 * (s.cycle + 1) + 2) (.spillMove r.core (part + 1))))
    ∧ (∀ (c : CtxMsg) b d m n, c.sender = r → WaitsFor s r c.id b (.context m d false) → c.spawn = true → b.cur.aword = none →
      Does s (.contextReply c (.slot n)) (fun t => (t.slot r.core r.slot).regs.getG d = Reg.full (if d = 0 then 0 else BitVec.ofNat 64 (s.tidOf n.core n.slot n.gen 0))
        ∧ (t.slot r.core r.slot).block = none ∧ (t.core r.core).flying = k.flying - 1))
    ∧ (∀ id b d m, WaitsFor s r id b (.context m d true) → Plain s r →
      Does s (.migrationWaitLimit r id) (fun t => Entered s t r b.cur.pc 0x127 (b.cur.regs.getG (targetReg b.cur.instr)).val 0))
    ∧ (∀ c x, Does s (.contextSwitchScrub c x) (fun t => (∀ a, Memory.get (t.core c).spad a = 0) ∧ (t.core c).full = [] ∧ (t.core c).ctxLast = x ∧ (t.core c).scrubUntil = none ∧ (t.core c).mboxEn = false ∧ (t.core c).spillCap = 0))
    ∧ (∀ p, Does s (.timeTick p) (fun t => ∀ c, (t.core c).time = (s.core c).time + (if pkgOf c = p then 1 else 0)))

/-- R109–R111, R121–R126, R256, R259, R268, R342–R347: what the events of caches and homes do: an access whose turn has come and that meets no lock is performed: a load answers the newest bytes with their wts and leaves a lease of 256 beyond its time; a store writes its bytes at 1 + the largest of its time, wts and rts; an atomic answers the old value and stores the new one; a conditional store stores only while its thread's reservation on the line holds; a reduction is applied, a declaration is judged, a contribution to no declaration is counted; acknowledgements raise the core's time and end their store. A cache bank answers a hit in 18 cycles and sends a miss to the home. A walk whose turn has come and whose entry's sector is not locked goes on from a table to the next level and one that has its leaf ends; the leaf of one that is not stale comes into the TLB of the cores that wait. That a failing conditional store raises no time (log 144), that an ordered load leaves a lease (log 25) and that walks take turns and wait for locks (log 130) is the model's choice. -/
def Obligations.HomeEvents : Prop :=
  ∀ (s : State) (a : Access) (r : ThreadRef) (d : RegName), a.agent = .thread r → a.dst = some d →
    let x := s.sector a.pa
    let old := bytesNat (Memory.getN s.mem a.pa a.size)
    let v := a.data.toNat % 256 ^ a.size
    let clean : Prop := x.poison = none ∧ a.bad = none
    let bare : Prop := a.vbit = false ∧ x.chain = []
    let w := 1 + max a.ts (max x.wts x.rts)
    let ack (wts : Nat) : AckMsg := { agent := .thread r, id := a.id, wts := wts, ctx := a.ctx, va := a.va }
    (TurnNow s a false → a.op = .load → a.snap = 0 → a.cmp = 0 → x.lock = none →
      (x.poison = none → Does s (.homeLoad a) (fun t => Returns s t a r d a.reply (extend a.ext a.size (BitVec.ofNat 512 old)) none x.wts
        ∧ (t.sector a.pa).rts = max x.rts (a.ts + 256) ∧ (t.sector a.pa).wts = x.wts ∧ SameMemory s t))
      ∧ (∀ src, x.poison = some src → Does s (.homeLoad a) (fun t => Returns s t a r d a.reply (a.va.setWidth 512) (some { cause := 0x1A1, info := BitVec.ofNat 32 src }) x.wts ∧ SameMemory s t)))
    ∧ (TurnNow s a false → x.lock = none → a.bad = none →
      Does s (.homeStore a) (fun t => (t.sector a.pa).wts = w ∧ Posts t (4 * (s.cycle + a.reply)) (.storeAcknowledgement (ack w))
        ∧ (∀ i < a.size, Memory.get t.mem (a.pa + i) = BitVec.ofNat 8 (a.data.toNat / 256 ^ i)) ∧ (bare → Writes s t a.pa a.size a.data.toNat)))
    ∧ (TurnNow s a false → ∀ l, x.lock = some l → Does s (.homeStore a) (fun t => Posts t (4 * (s.cycle + 1)) (.homeStore { a with queued := true }) ∧ SameMemory s t))
    ∧ (∀ k : AckMsg, k.agent = .thread r → Held s r → (∃ o ∈ (s.slot r.core r.slot).out, o.id = k.id) →
      Does s (.storeAcknowledgement k) (fun t => (t.core r.core).time = max (s.core r.core).time k.wts ∧ Ends s t r k.id ∧ SameMemory s t))
    ∧ (TurnNow s a true → x.lock = none → clean → bare →
      (∀ op, a.op = .amo op → Does s (.atomicUnitOperation a) (fun t => Writes s t a.pa a.size (atomResult op (widthOf a.size) old v) ∧ Returns s t a r d a.reply (BitVec.ofNat 512 old) none w))
      ∧ (a.op = .lres → Does s (.atomicUnitOperation a) (fun t => SameMemory s t ∧ Returns s t a r d a.reply (BitVec.ofNat 512 old) none x.wts
          ∧ (∃ e ∈ (t.clu a.home).resv, e.thread = r ∧ e.line = a.pa / 256 * 256 ∧ Posts t (4 * (s.cycle + 4096)) (.reservationExpiry r e.id))))
      ∧ (a.op = .scnd → (∃ e ∈ (s.clu a.home).resv, e.thread = r ∧ e.line = a.pa / 256 * 256) → Does s (.atomicUnitOperation a) (fun t => Writes s t a.pa a.size v ∧ Returns s t a r d a.reply 0 none w))
      ∧ (a.op = .scnd → (∀ e ∈ (s.clu a.home).resv, e.thread ≠ r ∨ e.line ≠ a.pa / 256 * 256) → Does s (.atomicUnitOperation a) (fun t => SameMemory s t ∧ Returns s t a r d a.reply 1 none 0))
      ∧ (a.op = .cas → old = a.cmp.toNat % 256 ^ a.size → Does s (.atomicUnitOperation a) (fun t => Writes s t a.pa a.size v ∧ Returns s t a r d a.reply (BitVec.ofNat 512 old) none w))
      ∧ (a.op = .cas → old ≠ a.cmp.toNat % 256 ^ a.size → Does s (.atomicUnitOperation a) (fun t => SameMemory s t ∧ Returns s t a r d a.reply (BitVec.ofNat 512 old) none x.wts))
      ∧ (∀ op, a.op = .red op → Does s (.reductionApply a) (fun t => Writes s t a.pa a.size (atomResult op (widthOf a.size) old v)
          ∧ Posts t (4 * (s.cycle + a.reply)) (.storeAcknowledgement (ack w)))))
    ∧ (Does s (.ordsetDeclaration a) (fun t => SameMemory s t ∧ Returns s t a r d a.reply (BitVec.ofNat 512 ((s.clu a.home).declare a.pa (a.data.setWidth 64)).1) none 0
        ∧ (t.clu a.home).decls = (s.clu a.home).decls ++ (((s.clu a.home).declare a.pa (a.data.setWidth 64)).2).toList))
    ∧ ((∀ e ∈ (s.clu a.home).decls, e.target ≠ a.pa) → Does s (.sliceOrderedMerge a) (fun t => SameMemory s t
        ∧ (t.clu a.home).mergeErr = (s.clu a.home).mergeErr + 1 ∧ Posts t (4 * (s.cycle + a.reply)) (.storeAcknowledgement (ack 0))))
    ∧ (∀ e, (s.clu a.home).decls = [e] → e.target = a.pa → sliceOf a = e.next → sliceOf a < e.nsl → (s.clu a.home).merge = [] → TurnNow s a true → x.lock = none → clean → bare → a.size = (if e.wide then 8 else 4) →
        Does s (.sliceOrderedMerge a) (fun t => Writes s t a.pa a.size (atomResult e.op (widthOf a.size) old v)
          ∧ (t.clu a.home).decls = (if e.next + 1 = e.nsl then [] else [{ e with next := e.next + 1 }])))
    ∧ (∀ id, Does s (.reservationExpiry r id) (fun t => (∀ c, ∀ e ∈ (t.clu c).resv, e.thread ≠ r ∨ e.id ≠ id) ∧ SameMemory s t))
    ∧ (∀ c line f l, (s.core c).fills.find? (fun f => f.line = line) = some f → f.got = some l →
        Does s (.instructionLineFill c line) (fun t => (t.core c).time = max (s.core c).time f.wts ∧ { l with used := s.cycle } ∈ (t.core c).icache ∧ ∀ g ∈ (t.core c).fills, g.line ≠ line))
    ∧ (a.op = .load → a.uncached = false → a.queued = true → a.snap = 0 → a.cmp = 0 →
      ((∀ l ∈ ((s.clu a.src).settle s.cycle).cache, l.line ≠ a.pa / 256 * 256) →
        Does s (.clusterCacheAccess a) (fun t => Posts t (4 * (s.cycle + s.homeLatency a.src a.home / 2 - 18)) (.homeLoad { a with queued := false }) ∧ SameMemory s t))
      ∧ ∀ l y, ((s.clu a.src).settle s.cycle).cache.find? (fun l => l.line = a.pa / 256 * 256) = some l → (l.sectors[a.pa % 256 / 64]?).join = some y → a.ts ≤ y.rts →
        Does s (.clusterCacheAccess a) (fun t => Returns s t a r d 18 (extend a.ext a.size (BitVec.ofNat 512 (y.data.toNat / 256 ^ (a.pa % 64) % 256 ^ a.size))) none y.wts ∧ SameMemory s t))
    ∧ (∀ c id wk, (s.clu c).walks.find? (fun k => k.id = id) = some wk →
      let pa := pteAddr wk.table wk.va.toNat wk.level
      let entry : Word := BitVec.ofNat 64 (bytesNat (Memory.getN s.mem pa 8))
      let turn : Prop := (wk.turn = true ∨ inLpddr pa = false ∧ ChannelFree s pa) ∧ (s.sector pa).lock = none
      let verdict := readPte (s.pod0 (pkgOfClu c)) (s.pkg (pkgOfClu c)).podN (pkgOfClu c) wk.ctx wk.va.toNat wk.level entry
      (wk.result = none → turn → ∀ n, verdict = .table n → Does s (.pageWalkCompletion c id) (fun t => (∃ k ∈ (t.clu c).walks, k.id = id ∧ k.level = wk.level + 1 ∧ k.table = n) ∧ SameMemory s t
          ∧ Posts t (4 * (s.cycle + s.walkReply c pa + s.walkRead c (pteAddr n wk.va.toNat (wk.level + 1)))) (.pageWalkCompletion c id)))
      ∧ (wk.result = none → turn → ∀ e, verdict = .leaf e → Does s (.pageWalkCompletion c id) (fun t => (∃ k ∈ (t.clu c).walks, k.id = id ∧ k.result = some (some e)) ∧ Posts t (4 * (s.cycle + s.walkReply c pa)) (.pageWalkCompletion c id)))
      ∧ (∀ e, wk.result = some (some e) → wk.stale = false → ∀ y ∈ wk.waits, Does s (.pageWalkCompletion c id) (fun t => { e with used := s.cycle } ∈ (t.core y.1).tlb ∧ SameMemory s t))
      ∧ (wk.result = some none → wk.stale = false → ∀ y ∈ wk.waits, Does s (.pageWalkCompletion c id) (fun t => { slot := y.2, ctx := wk.ctx, vpn := wk.va.toNat / 2 ^ 16 } ∈ (t.core y.1).walkFaults)))

/-! ### Events between cores and of the registries -/

/-- R105, R116–R119, R131–R135, R138–R141, R254, R267, R341, R414: what crosses between cores: a request joins its target's FIFO of 64 or is sent again 64 cycles after its refusal is back; the remote port serves one request: a load answers the bytes, a store writes them and is acknowledged, a tagged operation whose condition holds changes its word and bit and is answered, one that must wait takes one of 32 entries; another context's load answers the mark 0x062, its store is dropped and counted; a monitor is armed, latched, and ends a wait with its bit; a wait past its limit answers 16; a phase whose parties have all arrived with no byte pending ends, and its release ends the waits for it after the latency of its scope; a ring with room takes a message, a full one refuses its sender, who resends; limits bring the thread to its handler with 0x101, 0x103 and 0x122. That a tagged operation whose condition holds acts whatever waits at its word is the model's choice (log 131). -/
def Obligations.RemoteEvents : Prop :=
  ∀ (s : State) (r : ThreadRef) (q : RemoteReq) (id : Nat) (b : Block), q.thread = r →
    let sl := s.slot r.core r.slot
    let c := q.target
    let k := s.core c
    let back := s.cycle + s.oneWay c r.core
    let there := s.cycle + s.oneWay r.core c
    (∀ n x, q.op = .load n x ∨ q.op = .store n → Does s (.refusalResend (.remote q)) (fun t => Posts t (4 * there) (.remoteRequestArrival { q with time := (s.core r.core).time })))
    ∧ (∀ m x, WaitsFor s r q.id b (.message x true) → (∃ mb p n l, q.op = .message mb p n l) → m = { q with budget := 1 } →
        Does s (.refusalResend (.remote q)) (fun t => Posts t (4 * there) (.remoteRequestArrival m)))
    ∧ (∀ (m x : CtxMsg) d w, m.sender = r → WaitsFor s r m.id b (.context x d w) →
        Does s (.refusalResend (.context m)) (fun t => Posts t (4 * (s.cycle + s.oneWay r.core m.target + 23)) (.contextArrival m)))
    ∧ (k.fifo.length < 64 → Does s (.remoteRequestArrival q) (fun t => (t.core c).fifo = k.fifo ++ [q]
        ∧ ((∃ o, q.op = .tagged o) → Posts t (4 * (s.cycle + q.budget) + 3) (.taggedBudgetExpiry c q.id))))
    ∧ (64 ≤ k.fifo.length → ∀ n x, q.op = .load n x ∨ q.op = .store n →
        Does s (.remoteRequestArrival q) (fun t => (t.core c).fifo = k.fifo ∧ Posts t (4 * (back + 64)) (.refusalResend (.remote q))))
    ∧ (∀ rest, Single s c → k.fifo = q :: rest → k.copy.port = [] → r.slot ≠ 16 →
      let served (p : State → Prop) : Prop := Does s (.remotePortAccess c) (fun t => (t.core c).fifo = rest ∧ SameMemory s t ∧ p t)
      (s.admitsReq q = true →
        (∀ n x d, q.op = .load n x → q.dst = some d → k.spadPoisonIn q.off n = none → served (fun t => Posts t (4 * back) (.longOperationCompletion
          { thread := r, id := q.id, dst := d, va := q.va, val := extend x n (BitVec.ofNat 512 (bytesNat (Memory.getN k.spad q.off n))), mark := none, raise := k.time, issue := q.issue, word := q.word })))
        ∧ (∀ n, q.op = .store n → served (fun t => WritesSpad s t c q.off n q.data.toNat ∧ (t.core c).time = max k.time q.time
            ∧ Posts t (4 * back) (.storeAcknowledgement { agent := .thread r, id := q.id, wts := 0, ctx := q.ctx, va := q.va })))
        ∧ (∀ o, q.op = .tagged o → k.spadPoisonIn q.off 8 = none →
          (s.tagReady c q.off o = true → served (fun t =>
            Posts t (4 * back) (.taggedReply r q.id (if o = .ldfe ∨ o = .ldff then BitVec.ofNat 64 (bytesNat (Memory.getN k.spad q.off 8)) else 0) none (max k.time q.time))
            ∧ (if o = .ldfe ∨ o = .ldff then (t.core c).spad = k.spad else WritesSpad s t c q.off 8 q.data.toNat)
            ∧ ((t.core c).full.contains (q.off / 8) = (if o = .ldfe ∨ o = .ste then false else if o = .ldff then k.full.contains (q.off / 8) else true))))
          ∧ (s.tagReady c q.off o = false → k.tagWait.countP (fun x => !x.local_) < 32 → served (fun t => ∃ x, (t.core c).tagWait = k.tagWait ++ [x] ∧ x.id = q.id
              ∧ x.off = q.off ∧ x.op = o ∧ x.data = q.data.setWidth 64 ∧ x.thread = r ∧ x.local_ = false ∧ (t.core c).spad = k.spad)))
        ∧ (∀ m < 4, q.op = .arm m → Held s r → served (fun t => (t.slot r.core r.slot).monitor m = some { at_ := .spad c (q.off / 64), va := q.va, from_ := s.cycle + 1, latched := false }
            ∧ Posts t (4 * back) (.monitorArmAcknowledgement r q.id m 0)))
        ∧ (∀ mb p n l, q.op = .message mb p n l → served (fun t => Posts t s.now (.messageArrival q))))
      ∧ (s.admitsReq q = false →
        (∀ n x d, q.op = .load n x → q.dst = some d → served (fun t => Posts t (4 * back) (.longOperationCompletion
          { thread := r, id := q.id, dst := d, va := q.va, val := q.va.setWidth 512, mark := some { cause := 0x062, info := 0 }, raise := 0, issue := q.issue, word := q.word })))
        ∧ (∀ n, q.op = .store n → served (fun t => (t.core c).spad = k.spad ∧ (t.core c).dropc = k.dropc + 1 ∧ Posts t (4 * back) (.storeAcknowledgement { agent := .thread r, id := q.id, wts := 0, ctx := q.ctx, va := q.va })))))
    ∧ (∀ x gd n, k.tagWait.find? (fun x => x.id = id) = some x → s.tagReady c x.off x.op = true → Single s c → k.spadPoisonIn x.off 8 = none → x.thread = r →
      let v : Word := if x.op = .ldfe ∨ x.op = .ldff then BitVec.ofNat 64 (bytesNat (Memory.getN k.spad x.off 8)) else 0
      (x.local_ = true → WaitsFor s r x.block b (.tagLocal n gd) → Does s (.taggedOperationPerformed c id) (fun t => (∀ y ∈ (t.core c).tagWait, y.id ≠ id)
          ∧ (t.slot r.core r.slot).regs = sl.regs.put (.g gd) (v.setWidth 512) none ∧ Goes s t r (s.cycle + 1)))
      ∧ (x.local_ = false → r.core = c ∨ s.admitsCtx c x.ctx = true → Does s (.taggedOperationPerformed c id) (fun t => (∀ y ∈ (t.core c).tagWait, y.id ≠ id)
          ∧ Posts t (4 * back) (.taggedReply r x.id v none (max k.time x.time)))))
    ∧ (∀ v m w gd, WaitsFor s r id b (.tagRemote gd) →
        Does s (.taggedReply r id v m w) (fun t => (t.slot r.core r.slot).regs = sl.regs.put (.g gd) (v.setWidth 512) m ∧ Goes s t r (s.cycle + 1) ∧ (t.core r.core).time = max (s.core r.core).time w))
    ∧ (∀ v m w, s.waiting? r id = none → Does s (.taggedReply r id v m w) (fun t => (t.core r.core).dropc = (s.core r.core).dropc + 1 ∧ SameMemory s t))
    ∧ (∀ gd n, Plain s r → WaitsFor s r id b (.tagRemote gd) → tagAddress b.cur.instr = some n → Does s (.taggedWaitLimit r id) (fun t => Entered s t r b.cur.pc 0x101 (b.cur.regs.getG n).val 0))
    ∧ (∀ x, k.tagWait.find? (fun x => x.id = id) = some x → Does s (.taggedBudgetExpiry c id) (fun t => (∀ y ∈ (t.core c).tagWait, y.id ≠ id)
        ∧ Posts t (4 * (s.cycle + s.oneWay c x.thread.core)) (.taggedCancelArrival x.thread id)))
    ∧ (∀ kd, WaitsFor s r id b kd → sl.stopping = false → s.takeInterrupt r.core r.slot b.cur.pc = none → Does s (.taggedCancelArrival r id) (fun t => Posts t (4 * (s.cycle + 1)) (.taggedWaitLimit r id)))
    ∧ (∀ gd j m w, WaitsFor s r id b (.monitorArm gd j) → Does s (.monitorArmAcknowledgement r id m w) (fun t =>
        (t.slot r.core r.slot).regs = sl.regs.put (.g gd) (BitVec.ofNat 512 (m % 2 ^ 64)) none ∧ Goes s t r s.cycle ∧ (t.core r.core).time = max (s.core r.core).time w))
    ∧ (∀ m x p w, Held s r → sl.monitor m = some x → x.at_ = .mem p → Does s (.monitorLatch r m p w) (fun t =>
        (t.slot r.core r.slot).monitor m = some { x with latched := true } ∧ (t.core r.core).time = max (s.core r.core).time w))
    ∧ (∀ gd, WaitsFor s r id b (.wait gd) →
      (sl.latches ≠ 0 → Does s (.waitTimeout r id) (fun t => (t.slot r.core r.slot).regs = sl.regs.setG gd (Reg.full (BitVec.ofNat 64 sl.latches)) ∧ Goes s t r (s.cycle + 1)
          ∧ ∀ i x, sl.monitor i = some x → (t.slot r.core r.slot).monitor i = some { x with latched := false }))
      ∧ (sl.latches = 0 → sl.mlim ≠ 0 → b.since + sl.mlim.toNat ≤ s.cycle → Does s (.waitTimeout r id) (fun t => (t.slot r.core r.slot).regs = sl.regs.setG gd (Reg.full 16) ∧ Goes s t r (s.cycle + 1)))
      ∧ (sl.latches = 0 → sl.mlim = 0 → Does s (.waitTimeout r id) (fun t => t = s)))
    ∧ (∀ br v w, Does s (.barrierArrival br v w r) (fun t => (t.barrier br).arrived = sl.idx :: (s.barrier br).arrived.filter (· != sl.idx)
        ∧ (t.barrier br).count = wrap56 ((s.barrier br).count + (v.setWidth 56).toInt) ∧ (t.barrier br).time = max (s.barrier br).time w ∧ Posts t s.now (.barrierPhaseCompletion br)))
    ∧ (∀ br l, s.launch? br.launch = some l →
      let x := s.barrier br
      let whole : Prop := x.arrived ≠ [] ∧ x.count = 0 ∧ l.parties br ≤ l.arrivals x
      (∀ e ∈ [(Scope.co, 8), (.qd, 10), (.cl, 24), (.di, 60), (.pk, 200)], br.scope = e.1 → whole → Does s (.barrierPhaseCompletion br) (fun t =>
          (t.barrier br).phase = x.phase + 1 ∧ (t.barrier br).arrived = [] ∧ (t.barrier br).count = 0 ∧ Posts t (4 * (s.cycle + e.2)) (.barrierRelease br x.phase x.time)))
      ∧ (¬ whole → Does s (.barrierPhaseCompletion br) (fun t => t = s)))
    ∧ (∀ br n w, WaitsFor s r id b (.barWait br n) → Does s (.barrierRelease br n w) (fun t => Goes s t r s.cycle ∧ (t.slot r.core r.slot).hold = true
        ∧ (t.core r.core).time = max (s.core r.core).time w))
    ∧ (∀ br n f e, Plain s r → WaitsFor s r id b (.barWait br n) → b.cur.instr = .barWt f e → Does s (.barrierWaitLimit r id) (fun t => Entered s t r b.cur.pc 0x103 0 (BitVec.ofNat 64 br.b)))
    ∧ (∀ mb p n l, q.op = .message mb p n l →
      let ring := 2 * mb + p.toNat
      let used := k.rings.countP (fun m => m.ring = ring)
      (k.mboxEn = false → Does s (.messageArrival q) (fun t => (t.core c).rings = k.rings ∧ Posts t (4 * (back + 1)) (.messageReply q .disabled)))
      ∧ (k.mboxEn = true → used < 2 ^ k.mboxDepth.toNat → Single s c → l.length = n → Does s (.messageArrival q) (fun t =>
          let place := k.ringTail.toList.getD ring 0
          (t.core c).rings = k.rings ++ [{ ring := ring, place := place, sender := r, len := n }] ∧ (t.core c).time = max k.time q.time
          ∧ (∀ i < n, Memory.get (t.core c).spad (k.ringAt ring place + i) = l.getD i 0) ∧ Posts t (4 * (back + (n + 31) / 32)) (.messageReply q .accepted)))
      ∧ (k.mboxEn = true → 2 ^ k.mboxDepth.toNat ≤ used →
        (k.waiters.length < 16 → Does s (.messageArrival q) (fun t => (t.core c).waiters = k.waiters ++ [{ thread := r, id := q.id, ring := ring }] ∧ (t.core c).rings = k.rings
            ∧ Posts t (4 * back) (.messageReply q .refusedListed)))
        ∧ (16 ≤ k.waiters.length → Does s (.messageArrival q) (fun t => (t.core c).waiters = k.waiters ∧ Posts t (4 * back) (.messageReply q .refusedListFull)))))
    ∧ (∀ kd, WaitsFor s r q.id b kd →
      Does s (.messageReply q .accepted) (fun t => Goes s t r (s.cycle + q.budget))
      ∧ (Plain s r → ∀ x y, b.cur.instr = .msend x y → Does s (.messageReply q .disabled) (fun t => Entered s t r b.cur.pc 0x124 (b.cur.regs.getG y).val 0))
      ∧ (sl.stopping = false → s.takeInterrupt r.core r.slot b.cur.pc = none → s.cycle < b.since + sl.wlim.toNat →
        Does s (.messageReply q .refusedListFull) (fun t => (t.slot r.core r.slot).block = some { b with kind := .message q true } ∧ Posts t (4 * (s.cycle + 256)) (.refusalResend (.remote q)))))
    ∧ (WaitsFor s r id b (.message q true) → Does s (.mailboxNoticeArrival r id) (fun t => Posts t (4 * (s.cycle + 1)) (.refusalResend (.remote q))))
    ∧ (∀ x y z, Plain s r → WaitsFor s r id b .receive → b.cur.instr = .mrecv x y z → Does s (.mailboxWaitLimit r id) (fun t => Entered s t r b.cur.pc 0x122 (b.cur.regs.getG z).val 0))

/-- R128, R138, R148–R155, R348, R349, R362–R365, R369–R374: what the registries and homes do for snapshots, transactions, publishes and shootdowns: the registry takes an entry while it has fewer than 4096, that which a snap replaces not counted, and answers the time, else 0; a floor sample is at most every time of its package, and 512 cycles later the floor of all 96 clusters but of those whose floor is higher; the collector removes a dead entry of the pool and goes on to the next; a home locks the sectors of a transaction that nothing newer and no other lock stands against; the commit time exceeds every time of the transaction, its core and its votes, and 0 stands for a conflict; a committed sector holds the buffered bytes with that time; the answer is 0 or 1 and ends the transaction; a mark raises the read times of its line above every lease and version of it, and the time that its publish will give to the lines and cores of its scope once every mark is made; a shootdown removes exactly the entries it names from the cores of its scope and ends when no access is left that it waits for; cr.mbox and cr.vpool take a value that fits. That a snap replaces the entry of its thread at a full registry (log 135) and that a publish time rises with its marks (log 132) is the model's choice. -/
def Obligations.VersionEvents : Prop :=
  ∀ (s : State) (r : ThreadRef) (id : Nat) (b : Block) (p : PkgKey) (w : Nat),
    let sl := s.slot r.core r.slot
    let reg := (s.pkg p).registry
    let lat := s.homeLatency (cluOf r.core) (cluOf r.core / 96 * 96)
    (∀ e ∈ [(RegistryReq.snap r id w, RegOwner.thread r, false, reg.filter (fun e => e.owner ≠ .thread r)), (.txb r id w, .txn r, true, reg)],
      (e.2.2.2.length < 4096 → Does s (.registryRequest p e.1) (fun t => (t.pkg p).registry = e.2.2.2 ++ [{ time := w, owner := e.2.1 }] ∧ Posts t (4 * (s.cycle + (lat - lat / 2))) (.registryAnswer r id e.2.2.1 w true)))
      ∧ (4096 ≤ e.2.2.2.length → Does s (.registryRequest p e.1) (fun t => (t.pkg p).registry = reg ∧ Posts t (4 * (s.cycle + (lat - lat / 2))) (.registryAnswer r id e.2.2.1 w false))))
    ∧ Does s (.registryRequest p (.release w)) (fun t => (t.pkg p).registry = reg.eraseP (fun e => e.time = w))
    ∧ (∀ gd, WaitsFor s r id b (.registry gd) →
      Does s (.registryAnswer r id false w true) (fun t => let n := t.slot r.core r.slot
        n.regs = sl.regs.setG gd (Reg.full (BitVec.ofNat 64 w)) ∧ n.snap = w ∧ n.snapThread = true ∧ n.st = sl.st ∧ Goes s t r s.cycle)
      ∧ Does s (.registryAnswer r id true w true) (fun t => let n := t.slot r.core r.slot
        n.regs = sl.regs.setG gd (Reg.full (BitVec.ofNat 64 w)) ∧ n.snap = w ∧ n.snapThread = false ∧ n.st = { sl.st with tx := true } ∧ Goes s t r s.cycle
          ∧ ∃ x, n.tx = some x ∧ x.time = w ∧ x.savedSnap = sl.snap ∧ x.sectors = [] ∧ x.failed = false)
      ∧ ∀ x, Does s (.registryAnswer r id x w false) (fun t => let n := t.slot r.core r.slot
        n.regs = sl.regs.setG gd (Reg.full 0) ∧ n.snap = sl.snap ∧ n.tx = sl.tx ∧ n.st = sl.st ∧ Goes s t r s.cycle))
    ∧ Does s (.floorSample p) (fun t => ∃ f, Posts t (4 * (s.cycle + 512)) (.floorApply p f) ∧ (∀ e ∈ reg, f ≤ e.time) ∧ (∀ e ∈ s.cores, pkgOf e.1 = p → f ≤ e.2.time)
        ∧ ∀ i < 4, f ≤ (s.die (4 * p + i)).time)
    ∧ Does s (.floorApply p w) (fun t => (∀ i < 96, (t.clu (96 * p + i)).floor = max (s.clu (96 * p + i)).floor w) ∧ SameMemory s t)
    ∧ (∀ c, Does s (.collectorSweep c) (fun t => (t.clu c).sweep = ((s.clu c).sweep + 1) % max 1 ((s.clu c).poolLen.toNat * 512)
        ∧ ∀ pa j, getKey (s.clu c).poolUsed (s.clu c).sweep = some pa → (s.sector pa).chain.findIdx (· = (s.clu c).sweep) = j → j < (s.sector pa).chain.length → s.deadAt c pa j = true →
          ∀ e ∈ (t.clu c).poolUsed, e.1 ≠ (s.clu c).sweep))
    ∧ (∀ c (v : Word), let fits : Prop := v.toNat % 65536 + v.toNat / 65536 % 65536 ≤ 43520
      ((s.clu c).poolUsed = [] → fits → Does s (.vpoolWrite c v) (fun t => (t.clu c).poolBase = v.setWidth 16 ∧ (t.clu c).poolLen = (v >>> 16).setWidth 16 ∧ (t.clu c).sweep = 0 ∧ SameMemory s t))
      ∧ ((s.clu c).poolUsed ≠ [] ∨ ¬ fits → Does s (.vpoolWrite c v) (fun t => t = s)))
    ∧ (∀ c (v : Word), let depth := min 4 (v.toNat / 1024 % 8)
      let fits : Prop := v.toNat % 1024 * 256 + 8 * 2 ^ depth * 256 ≤ 262144
      (fits → Single s c → Does s (.mboxWrite c v) (fun t => (t.core c).mboxBase = v.setWidth 10 ∧ (t.core c).mboxDepth.toNat = depth ∧ (t.core c).mboxEn = v.getLsbD 16
        ∧ (t.core c).rings = [] ∧ (t.core c).dropc = (s.core c).dropc + BitVec.ofNat 64 (s.core c).rings.length ∧ (t.core c).spad = (s.core c).spad))
      ∧ (¬ fits → Does s (.mboxWrite c v) (fun t => t = s)))
    ∧ (∀ kd tx, WaitsFor s r id b kd → sl.tx = some tx →
      let far := s.commitLatency (cluOf r.core) tx
      (∀ h, Does s (.transactionPrepare r id h) (fun t => SameMemory s t
        ∧ (∀ x ∈ tx.sectors, x.home = h → s.conflicts tx.time x.sector = false → (t.sector x.sector).lock = some r)
        ∧ (tx.waiting ≤ 1 → Posts t (4 * max s.cycle (b.since + far.1)) (.transactionVotesComplete r id))
        ∧ ∃ x v, (t.slot r.core r.slot).tx = some x ∧ x.votes = v :: tx.votes ∧ v.home = h ∧ (v.abort = true ↔ ∃ y ∈ tx.sectors, y.home = h ∧ s.conflicts tx.time y.sector = true)))
      ∧ Does s (.transactionVotesComplete r id) (fun t => SameMemory s t ∧ ∃ c, Posts t (4 * (s.cycle + far.1 + far.2)) (.commitAcknowledgement r id c)
        ∧ ((∃ v ∈ tx.votes, v.abort = true) → c = 0 ∧ ∀ v ∈ tx.votes, ∀ x ∈ v.locked, ∃ e ∈ t.agenda, e.ev = .transactionCommitApply r id x 0)
        ∧ ((∀ v ∈ tx.votes, v.abort = false) → tx.time < c ∧ (s.core r.core).time < c ∧ (∀ v ∈ tx.votes, v.rts < c ∧ v.wts < c)
            ∧ ∀ v ∈ tx.votes, ∀ x ∈ tx.sectors, x.home = v.home → ∃ e ∈ t.agenda, e.ev = .transactionCommitApply r id x.sector c))
      ∧ (∀ x, tx.sectors.find? (fun y => y.sector = x.sector) = some x → x.sector % 64 = 0 →
        Does s (.transactionCommitApply r id x.sector 0) (fun t => SameMemory s t ∧ (t.sector x.sector).lock ≠ some r)
        ∧ (w ≠ 0 → Does s (.transactionCommitApply r id x.sector w) (fun t => (t.sector x.sector).lock ≠ some r ∧ (t.sector x.sector).wts = w
            ∧ ∀ i < 64, x.mask.getLsbD i = true → Memory.get t.mem (x.sector + i) = (x.data >>> (8 * i)).setWidth 8)))
      ∧ (∀ gd, kd = .txc gd → Does s (.commitAcknowledgement r id w) (fun t => let n := t.slot r.core r.slot
          n.regs = sl.regs.setG gd (Reg.full (if w = 0 then 1 else 0)) ∧ n.tx = none ∧ n.snap = tx.savedSnap ∧ n.st = { sl.st with tx := false } ∧ Goes s t r s.cycle
            ∧ (t.core r.core).time = max (s.core r.core).time w)))
    ∧ (∀ line, line % 256 = 0 →
      ((∀ i < 4, (s.sector (line + 64 * i)).lock = none) → Does s (.publishMark { thread := r, id := id, line := line } w) (fun t => t.line line = .published ∧ SameMemory s t ∧ ∃ q, w ≤ q
        ∧ (∀ i < 4, (s.sector (line + 64 * i)).wts < q ∧ (s.sector (line + 64 * i)).rts < q ∧ (t.sector (line + 64 * i)).rts = q ∧ (t.sector (line + 64 * i)).wts = (s.sector (line + 64 * i)).wts)
        ∧ ∀ ls n, WaitsFor s r id b (.cpub ls n) → (t.slot r.core r.slot).block = some { b with kind := .cpub ls (max n q) }))
      ∧ ((∃ i < 4, (s.sector (line + 64 * i)).lock ≠ none) → Does s (.publishMark { thread := r, id := id, line := line } w) (fun t => t.lines = s.lines ∧ t.sectors = s.sectors ∧ Posts t (4 * (s.cycle + 1)) (.publishMark { thread := r, id := id, line := line } w))))
    ∧ (∀ e ls n, s.marksDue r id = false → WaitsFor s r id b (.cpub ls n) →
        Does s (.cpubTimeBroadcast r id e w) (fun t => Goes s t r s.cycle ∧ (∀ c ∈ s.coresIn e r.core, (t.core c).time = max (s.core c).time (max w n))
          ∧ ∀ l ∈ ls, ∀ i < 4, max w n ≤ (t.sector (l + 64 * i)).rts))
    ∧ (∀ e, s.marksDue r id = true → Does s (.cpubTimeBroadcast r id e w) (fun t => Posts t (4 * (s.cycle + 1)) (.cpubTimeBroadcast r id e w) ∧ t.slot r.core r.slot = sl))
    ∧ (∀ e (va : Word),
      let shot (i : Instr) (hit : TlbEntry → Bool) : Prop := Does s i (fun t => SameMemory s t ∧ (∀ c ∈ s.coresIn e r.core, (t.core c).tlb = (s.core c).tlb.filter (fun x => !hit x))
        ∧ (∀ c, c ∉ s.coresIn e r.core → t.core c = s.core c) ∧ Posts t (4 * (s.cycle + 30 + 2 * s.broadcast r.core e)) (.shootdownCompletion r id))
      shot (.tlbiContext r id e) (fun x => x.ctx == sl.ctx) ∧ shot (.tlbiPage r id e va) (fun x => x.maps sl.ctx va.toNat) ∧ shot (.tlbiAll r id e) (fun _ => true))
    ∧ (∀ d kd, s.shootdowns.find? (fun d => d.thread = r ∧ d.id = id) = some d → WaitsFor s r id b kd →
      (s.shootdownLive d = true → Does s (.shootdownCompletion r id) (fun t => Posts t (4 * (s.cycle + 1)) (.shootdownCompletion r id) ∧ t.slot r.core r.slot = sl))
      ∧ (s.shootdownLive d = false → Does s (.shootdownCompletion r id) (fun t => Goes s t r s.cycle ∧ ∀ x ∈ t.shootdowns, x.thread ≠ r ∨ x.id ≠ id)))

/-! ### Events of the engines and rooks -/

/-- R187, R189, R192, R193, R200, R205, R206, R273, R283, R289–R291, R301, R302, R305–R311, R415: what the events of the copy engine, the tile unit and the server do: the oldest command starts when no earlier one reads, and is then outstanding no more; a block read goes to its destination, is written there and acknowledged; bytes that arrive count at the sync word; the head of the tile queue starts 8 cycles after its issue and after the command before it, a gmma with its quad; a completed command frees its lock; a release step leaves zeros and no owner; a call is queued at the rook that holds its function, answered with SUB 5 or 6, or waits; packets are accepted and their results taken in order; a reply reaches its caller 5 cycles later with the fault of its packet; a load of an image takes 384 cycles; a port's access leaves it and its reply raises its packet's time; a drain joins the rook of its function; sources start, phases end, a frozen region answers SUB 6 and is released unconfigured. That a copy command is outstanding until its start and a tile command until its completion is the model's choice (log 138). -/
def Obligations.EngineEvents : Prop :=
  ∀ (s : State) (c : CoreKey) (r : ThreadRef) (id : Nat) (b : Block) (rook : RookKey), Single s c →
    let k := s.core c
    let sl := s.slot r.core r.slot
    let u := s.rook rook
    let clu := rook / 4
    (∀ x, (∀ y ∈ k.copy.cmds, y.stopped = none ∧ ∀ z ∈ y.blocks, z.asked = true) → k.copy.reader = none → k.copy.cmds.find? (fun y => !y.started) = some x → (∀ p ∈ s.agenda, p.ev ≠ .copyBlockRead c) →
      Does s (.copyCommandStart c) (fun t => (∃ y ∈ (t.core c).copy.cmds, y.id = x.id ∧ y.started = true) ∧ Posts t (4 * (s.cycle + 1)) (.copyBlockRead c) ∧ SameMemory s t
        ∧ (x.thread = r → Held s r → (∃ o ∈ sl.out, o.id = x.id) → Ends s t r x.id)))
    ∧ (∀ x so d, k.copy.reader = some x → (∀ y ∈ k.copy.cmds, y.id = x.id → y = x) → k.copyHalted x.id = false → x.kind ≠ .wsld →
      let p := { x with credit := 64 }.piece k
      s.classify c p.src = .spad c so → s.classify c p.dst = .spad c d → x.second p = none → p.len ≤ 64 → x.next < x.total → x.next + p.units = x.total →
      Does s (.copyBlockRead c) (fun t => (t.core c).copy.port = k.copy.port ++ [(x.id, s.fresh, false)] ∧ (t.core c).spad = k.spad ∧ Posts t (4 * s.cycle + 2) (.copyCommandStart c)
        ∧ ∃ y ∈ (t.core c).copy.cmds, y.id = x.id ∧ y.next = x.total ∧ ∃ z ∈ y.blocks, z.num = s.fresh ∧ z.src = p.src ∧ z.dst = p.dst ∧ z.len = p.len ∧ z.read = false))
    ∧ (∀ x cmd num z, k.copyCmd? cmd = some x → s.block? c cmd num = some z → k.copyHalted cmd = false →
      (z.read = true → z.sent = false → gcSwe x.gc = false → gcBe x.gc = false →
        (∀ so o, x.kind ≠ .wsld → s.classify c z.src = .spad c so → s.classify c z.dst = .spad c o → s.phase = 2 →
          Does s (.copyBlockWrite c cmd num) (fun t => WritesSpad s t c o z.len z.data.toNat ∧ SameMemory s t))
        ∧ (∀ e, x.kind = .gath ∨ x.kind = .scat → s.classify c z.dst = .global → z.to_ = some e →
          Does s (.copyBlockWrite c cmd num) (fun t => ∃ a, Posts t (4 * (s.cycle + s.homeLatency (cluOf c) e.home / 2)) (.homeStore a) ∧ a.pa = e.phys z.dst.toNat ∧ a.size = z.len
            ∧ a.data = z.data ∧ a.agent = .engine c cmd num ∧ a.ts = k.time ∧ (t.core c).spad = k.spad))
        ∧ (∀ e j v, x.kind = .cpy ∨ x.kind = .cpy2 → s.classify c z.dst = .global → z.to_ = some e → s.joinUnit c x z = some (j, v) →
          Does s (.copyBlockWrite c cmd num) (fun t => ∃ a, Posts t (4 * (s.cycle + s.homeLatency (cluOf c) e.home / 2)) (.homeStore a) ∧ a.pa = e.phys j.dst.toNat ∧ a.size = j.len
            ∧ a.data = j.data ∧ a.agent = .engine c cmd num ∧ a.ts = k.time ∧ (t.core c).spad = k.spad))
        ∧ (∀ j v, x.kind = .wsld → gcEsz x.gc = 0 → s.joinUnit c x z = some (j, v) →
          let due := max (s.cycle + x.slip) x.writeAt
          Does s (.copyBlockWrite c cmd num) (fun t => Posts t (max s.now (4 * (due + refreshWait (s.cyc (pkgOf c) + (due - s.cycle)) (x.dst.toNat + j.index)))) (.copyBlockWrite c cmd num)
            ∧ (t.clu (cluOf c)).weights = (s.clu (cluOf c)).weights ∧ SameMemory s t)))
      ∧ (z.read = true → z.sent = true → gcSwe x.gc = false → gcBe x.gc = false → x.kind = .wsld →
          Does s (.copyBlockWrite c cmd num) (fun t => SameMemory s t ∧ (t.clu (cluOf c)).weightCtx = some x.ctx
            ∧ ∀ i < z.len, Memory.get (t.clu (cluOf c)).weights (x.dst.toNat + z.index + i) = BitVec.ofNat 8 (z.data.toNat / 256 ^ i)))
      ∧ (∀ e w, z.to_ = some e → gcSwe x.gc = true → gcBe x.gc = false →
          let o := gcSync x.gc
          let v := bytesNat (Memory.getN k.spad o 16)
          let target := v % 2 ^ 56
          let count := (v / 2 ^ 56 % 2 ^ 56 + z.len) % 2 ^ 56
          let gen := v / 2 ^ 112
          Does s (.copyBlockAcknowledgement c cmd num w) (fun t => (t.core c).time = max k.time w
            ∧ WritesSpad s t c o 16 (if target = 0 then count * 2 ^ 56 + gen * 2 ^ 112 else target + count % target * 2 ^ 56 + (gen + count / target) % 2 ^ 16 * 2 ^ 112))))
    ∧ (∀ o g d x y z, Plain s r → WaitsFor s r id b (.syncWait o g d) → b.cur.instr = .swwait x y z → Does s (.syncWordWaitLimit r id) (fun t => Entered s t r b.cur.pc 0x104 (b.cur.regs.getG y).val 0))
    ∧ (∀ q rest, k.tile.run = none → k.tile.queue = q :: rest → max (q.issue + 8) (k.tile.lastEnd + 1) ≤ s.cycle →
      (q.op ≠ .gmma → Does s (.tileCommandStart c) (fun t => (t.core c).tile.queue = rest ∧ (∃ x, (t.core c).tile.run = some x ∧ x.cmd = q ∧ x.lead = q ∧ x.next = 0 ∧ x.at_ = s.cycle) ∧ (t.core c).acc = k.acc))
      ∧ (q.op = .gmma → Does s (.tileCommandStart c) (fun t => Posts t s.now (.gmmaJoin (c / 4)) ∧ (t.core c).tile = k.tile)))
    ∧ (∀ q l, s.joinHead (4 * q) = some l →
      ((∀ i < 4, ∃ x, s.joinHead (4 * q + i) = some x ∧ x.launch = l.launch ∧ x.join = l.join) → Does s (.gmmaJoin q) (fun t => ∀ i < 4, ∃ x, (t.core (4 * q + i)).tile.run = some x
          ∧ s.joinHead (4 * q + i) = some x.cmd ∧ x.lead = l ∧ x.next = 0 ∧ x.at_ = s.cycle))
      ∧ ((∃ i < 4, ∀ x, s.joinHead (4 * q + i) = some x → x.launch ≠ l.launch ∨ x.join ≠ l.join) → Does s (.gmmaJoin q) (fun t => t = s)))
    ∧ (∀ x, k.tile.run = some x → x.cmd.op = .mma ∨ x.cmd.op = .mzero ∨ x.cmd.op = .gmma ∨ x.cmd.op = .mmas → Does s (.tileCommandCompletion c) (fun t => (t.core c).tile.run = none ∧ (t.core c).tile.lastEnd = s.cycle
        ∧ (t.core c).locks = k.locks.filter (fun l => l.owner != x.cmd.id) ∧ (t.core c).accOwn = k.accOwn ∧ (x.cmd.thread = r → Held s r → (∃ o ∈ sl.out, o.id = x.cmd.id) → Ends s t r x.cmd.id)))
    ∧ (∀ a : Fin 4, Does s (.accumulatorReleaseStep c a) (fun t => (t.core c).acc[a] = [] ∧ (t.core c).accOwn[a] = none ∧ a ∉ (t.core c).accDamage ∧ (∀ x, x ≠ a → (t.core c).acc[x] = k.acc[x] ∧ (t.core c).accOwn[x] = k.accOwn[x])
        ∧ (r.core = c → WaitsFor s r id b .engine → b.cur.instr = .mwaitRel a → (∀ i < r.slot, ∀ x, (s.slot c i).block = some x → x.kind ≠ .engine) → Goes s t r (s.cycle + 1))))
    ∧ (∀ a n, Plain s r → sl.occ = .thread → sl.parkLimit = some { acc := a, since := some n } → n + max 1 sl.wlim.toNat ≤ s.cycle → (s.core r.core).onlyJoins r a s.cycle = true →
      Does s (.tileWaitLimit r) (fun t => Entered s t r sl.pc 0x0C6 (BitVec.ofNat 64 a.val) 0))
    ∧ (∀ p, Does s (.weightStoreRefresh p) (fun t => t = s))
    ∧ (∀ d : DrainMsg, s.holder d.cluster d.ctx d.fid = some rook → u.load = none →
      (imgMode u.img = 2 → u.frozen = false → Does s (.drainArrival d) (fun t => ∃ x ∈ (t.rook rook).drains, x.msg = d ∧ x.ended = none))
      ∧ (imgMode u.img ≠ 2 → u.frozen = false → Does s (.drainArrival d) (fun t => (d.cmd, { sub := 5, stage := 0, addr := 0 }) ∈ (t.clu d.cluster).lostDrains))
      ∧ (u.frozen = true → Does s (.drainArrival d) (fun t => (d.cmd, { sub := 6, stage := 0, addr := 0 }) ∈ (t.clu d.cluster).lostDrains)))
    ∧ (∀ d : DrainMsg, d.thread = r → Held s r → (∃ o ∈ sl.out, o.id = d.cmd) →
      Does s (.drainCompletion d none) (fun t => Ends s t r d.cmd ∧ (t.slot r.core r.slot).drainRecs = sl.drainRecs)
      ∧ ∀ f, (∀ x ∈ sl.drainRecs, x.1 ≠ d.acc) → Does s (.drainCompletion d (some f)) (fun t => Ends s t r d.cmd
          ∧ (t.slot r.core r.slot).drainRecs = sl.drainRecs ++ [(d.acc, { cause := 0x0E2, tval := f.addr, tinf := BitVec.ofNat 64 (f.stage + f.sub * 2 ^ 8 + d.fid * 2 ^ 16) })]))
    ∧ (∀ m : CallMsg,
      let answers (f : FaultRec) : Prop := Does s (.callArrival m) (fun t => Posts t (4 * (s.cycle + 5)) (.serverResult { call := m, val := 0, fault := some f, raise := 0 }) ∧ SameMemory s t)
      (s.holder m.cluster m.ctx m.fid = some rook → u.load = none →
        (imgMode u.img = 0 → u.frozen = false → Does s (.callArrival m) (fun t => (t.rook rook).calls = u.calls ++ [m] ∧ SameMemory s t))
        ∧ (imgMode u.img ≠ 0 → u.frozen = false → answers { sub := 5, stage := 0, addr := 0 }) ∧ (u.frozen = true → answers { sub := 6, stage := 0, addr := 0 }))
      ∧ (s.holder m.cluster m.ctx m.fid = none → (s.clu m.cluster).cached m.ctx m.fid = none → (∀ f, s.findImage m.cluster m.ctx m.fid = .unmapped f → answers f) ∧ (∀ f l n, s.findImage m.cluster m.ctx m.fid = .refused f l n → answers f))
      ∧ (s.holder m.cluster m.ctx m.fid = none → ((s.clu m.cluster).cached m.ctx m.fid ≠ none ∨ ∃ img l, s.findImage m.cluster m.ctx m.fid = .image img l) → Does s (.callArrival m) (fun t => (t.clu m.cluster).rookWait = (s.clu m.cluster).rookWait ++ [.call m])))
    ∧ (∀ m rest, u.acceptReady = true → u.calls = m :: rest → Does s (.argumentPortAccept rook) (fun t => (t.rook rook).calls = rest ∧ (t.rook rook).nextPkt = u.nextPkt + 1
        ∧ (∃ p, (t.rook rook).packets = u.packets ++ [p] ∧ p.num = u.nextPkt ∧ p.call = m ∧ p.tp = m.time ∧ p.result = none)
        ∧ ∀ j ∈ argumentRows u.img, (8 * j, 3, dataToken (m.args.getD j 0) (some u.nextPkt)) ∈ (t.rook rook).staged))
    ∧ (∀ tok rest, u.resultReady = true → u.resq = tok :: rest →
      (tok.kind = 0 → Does s (.resultPortTake rook) (fun t => (t.rook rook).resq = rest ∧ (t.rook rook).nextRes = u.nextRes + 1
          ∧ ∀ p ∈ (t.rook rook).packets, p.num = u.nextRes → p.result = some tok))
      ∧ (tok.kind ≠ 0 → Does s (.resultPortTake rook) (fun t => (t.rook rook).resq = rest ∧ (t.rook rook).packets = u.packets ∧ (t.rook rook).nextRes = u.nextRes)))
    ∧ (∀ p tok, u.packet? id = some p → p.result = some tok → Does s (.serverReply rook id) (fun t => (∀ x ∈ (t.rook rook).packets, x.num ≠ id)
        ∧ Posts t (4 * (s.cycle + 5)) (.serverResult { call := p.call, val := tok.val, fault := p.replyFault, raise := p.tp })))
    ∧ (∀ m : ResultMsg, m.call.thread = r → Held s r → (s.core r.core).portCycle ≠ s.cycle → sl.regs.tag (.g m.call.dst) = .pending → (∃ o ∈ sl.out, o.id = m.call.id) →
      (m.call.serve = false → Does s (.serverResult m) (fun t => Ends s t r m.call.id ∧ (t.core r.core).time = max (s.core r.core).time m.raise
          ∧ (t.slot r.core r.slot).regs = (match m.fault with
            | none => sl.regs.put (.g m.call.dst) (m.val.setWidth 512) none
            | some f => sl.regs.put (.g m.call.dst) (f.addr.setWidth 512) (some { cause := 0x0E1, info := BitVec.ofNat 32 (f.stage + f.sub * 2 ^ 8 + m.call.fid * 2 ^ 16) }))))
      ∧ (m.call.serve = true → WaitsFor s r id b .serve → m.fault = none → Does s (.serverResult m) (fun t => Ends s t r m.call.id ∧ Goes s t r s.cycle
          ∧ (t.slot r.core r.slot).regs = sl.regs.put (.g m.call.dst) (m.val.setWidth 512) none)))
    ∧ (∀ q rest img ctx fid, (s.clu clu).rookWait = q :: rest → q.key = (ctx, fid) → s.holder clu ctx fid = none → s.idleRook clu = some rook → (s.clu clu).cached ctx fid = some img →
      Does s (.configurationLoad clu ctx fid) (fun t => (t.rook rook).cfg = none ∧ (∃ l, (t.rook rook).load = some l ∧ l.cfg = { ctx := ctx, fid := fid, img := img } ∧ q ∈ l.waits
        ∧ Posts t (4 * (s.cycle + 384)) (.configurationLoadCompletion rook l.id)) ∧ ∀ x ∈ (t.clu clu).rookWait, x.key ≠ (ctx, fid)))
    ∧ (∀ l, u.load = some l → l.id = id → Does s (.configurationLoadCompletion rook id) (fun t => (t.rook rook).cfg = some l.cfg ∧ (t.rook rook).load = none ∧ (l.resume = false → (t.rook rook).packets = [])
        ∧ ∀ m, RookReq.call m ∈ l.waits → Posts t s.now (.callArrival m)))
    ∧ (∀ port va data toks e, imgMode u.img ≠ 2 → u.portReady port = true → u.portNext port = .access va data toks → portKind u.img port = 1 → (∀ x ∈ toks, x.poison = false) → toks ≠ [] →
      let pkt := toks.head?.bind Token.pkt
      u.flagged pkt = none → (u.port port).check (u.caller port pkt).1 (u.caller port pkt).2.1 va (portSize u.img port) false = .pass e → e.uncached = false → port < 4 →
      Does s (.memoryPortAccess rook port) (fun t => ∃ a n, Posts t (4 * (s.cycle + 18)) (.clusterCacheAccess a) ∧ a.agent = .port rook port n ∧ a.op = .load ∧ a.pa = e.phys va.toNat
        ∧ a.size = portSize u.img port ∧ a.ts = (u.caller port pkt).2.2 ∧ (∃ x ∈ ((t.rook rook).port port).busy, x.seq = n ∧ x.pkt = pkt ∧ x.va = va) ∧ SameMemory s t))
    ∧ (∀ port e v w n p, port < 4 → (u.port port).busy.find? (fun x => x.seq = id) = some e → e.pkt = some n → u.packet? n = some p → Does s (.memoryPortReply rook port id v false w) (fun t =>
        (∀ x ∈ ((t.rook rook).port port).busy, x.seq ≠ id) ∧ ∃ x, (t.rook rook).packet? n = some x ∧ x.tp = max p.tp w ∧ x.fault = p.fault))
    ∧ (∀ port w, port < 4 → (s.clu clu).walks.find? (fun x => x.id = id) = some w → w.ports.contains (rook * 4 + port) = true → imgMode u.img ≠ 2 →
      let kind := if portKind u.img port = 1 then AccKind.load else .store
      let gets (x : Option TlbEntry) (missed : Option (Nat × Nat × Nat)) : Prop := Does s (.portTranslationRefill rook port id) (fun t => ((t.rook rook).port port).xlat = x
        ∧ ((t.rook rook).port port).refilling = false ∧ ((t.rook rook).port port).missed = missed ∧ SameMemory s t)
      (w.stale = true → gets none none)
      ∧ (w.stale = false → w.result = some none → gets none (some (w.ctx, w.va.toNat / 2 ^ 16, 1)))
      ∧ ∀ e, w.stale = false → w.result = some (some e) →
          (permitted e kind (u.waitsAs port) = true → gets (some e) none) ∧ (permitted e kind (u.waitsAs port) = false → gets none (some (w.ctx, w.va.toNat / 2 ^ 16, 2))))
    ∧ (∀ n l, s.launch? n = some l →
      ((∀ x ∈ l.graph, (getKey l.acks x).isSome = true) → Does s (.streamGraphStart n) (fun t => ∀ x ∈ l.graph, (s.rook x).frozen = false → (t.rook x).running = true))
      ∧ ((∃ x ∈ l.graph, getKey l.acks x = none) → Does s (.streamGraphStart n) (fun t => t = s))
      ∧ (∀ w images p, w ≤ s.pcycNow p → Does s (.graphSwap n w (some p) images) (fun t => ∀ x ∈ l.rooks, pkgOfClu (x / 4) = p → (t.rook x).exhausted = true))
      ∧ (∀ w images p, s.pcycNow p < w → Does s (.graphSwap n w (some p) images) (fun t => Posts t (4 * (s.cycle + (w - s.pcycNow p))) (.graphSwap n w (some p) images) ∧ t.clusters = s.clusters))
      ∧ (∀ w images,
        let late := max w (s.pcycNow (l.die / 4) + 300 * (s.pkg (l.die / 4)).podDiam + 64)
        Does s (.graphSwap n w none images) (fun t => t.clusters = s.clusters
          ∧ ∀ x ∈ l.rooks, let p := pkgOfClu (x / 4)
            Posts t (4 * (s.cycle + (late - s.pcycNow p))) (.graphSwap n late (some p) images))))
    ∧ (s.phaseOver rook = true → u.next = none → Does s (.phaseEnd rook) (fun t => (t.rook rook).phaseEnded = true ∧ (t.rook rook).running = false ∧ Posts t s.now (.launchCompletion (u.reserved.getD 0))))
    ∧ (u.frozen = false → Does s (.arbiterFreeze rook) (fun t => ∀ x ∈ s.region rook, (s.rook x).live = true → (t.rook x).frozen = true ∧ (t.rook x).calls = []
        ∧ ∀ m ∈ (s.rook x).calls, Posts t (4 * (s.cycle + 5)) (.serverResult { call := m, val := 0, fault := some { sub := 6, stage := 0, addr := 0 }, raise := 0 })))
    ∧ (∀ n i, n < 64 → u.live = true → u.snapDone = false → u.saved n = false →
      (u.snapRoom n i = true → Does s (.snapArrival rook n i) (fun t => (t.rook rook).saved n = true ∧ (t.rook rook).snapped n = true ∧ SameMemory s t))
      ∧ (u.snapRoom n i = false → u.snap = none → Does s (.snapArrival rook n i) (fun t => Posts t (4 * (s.cycle + 1)) (.snapArrival rook n i) ∧ t.clusters = s.clusters)))
    ∧ (u.frozen = true → Does s (.releaseRegion rook) (fun t => ∀ x ∈ s.region rook, (t.rook x).cfg = none ∧ (t.rook x).frozen = false ∧ (t.rook x).load = none))
    ∧ (∀ x, Does s (.imageCacheInvalidation clu x) (fun t => (∀ f, (t.clu clu).cached x f = none) ∧ ∀ y f, y ≠ x → (t.clu clu).cached y f = (s.clu clu).cached y f))

/-- R284–R287, R292–R295, R381: what fires in a rook: an operation of a cell consumes its inputs, sends its result to its neighbours, writes its local register and moves its PC on; a compare also sends its bit as a control token; cbr goes to its target on a 1, steer passes its operand on a 1, fnc sends its marker; a marker at every input of an instruction passes it; a chain emits the indices of an iteration with its first and last bits; a reduction unit folds a token and answers at its level's marker; a special-function unit applies its function; a token or credit of a link reaches its channel. -/
def Obligations.RookEvents : Prop :=
  ∀ (s : State) (rook : RookKey) (cell : Fin 64),
    let u := s.rook rook
    let c := u.cell cell
    let i := imgInstr u.img cell c.pc
    let pkt := u.firstPkt c i
    let clean (code : Nat) : Prop := ∀ x p, sourceOf c i code = some (x, p) → p = none
    let val (code : Nat) : Option Word := (sourceOf c i code).map Prod.fst
    let ctl := (c.ctl i.cin).headD false
    let sends (t : State) (tok : Token) : Prop := ∀ d ∈ i.writes, ∀ n, neighbour cell d = some n → (n, (d + 2) % 4, tok) ∈ (t.rook rook).staged
    let moves (t : State) (jump : Bool) : Prop := ((t.rook rook).cell cell).pc = nextCellPc (imgCount u.img cell) i c.pc jump ∧ SameMemory s t ∧ (t.rook rook).lastFire = s.cycle
      ∧ ∀ d ∈ i.reads, ((t.rook rook).cell cell).queue d = (c.queue d).tail
    let gives (t : State) (v : Word) : Prop := sends t (dataToken v pkt) ∧ (i.lw = true → ((t.rook rook).cell cell).local_ i.lx = { val := v, poison := false, side := 0 })
    (u.cellAct cell = .fire → clean i.sa → clean i.sb → clean i.sc →
      (∀ a, val i.sa = some a →
        (∀ e ∈ [(Instr.cellPass rook cell, 0x01, a), (.cellCvtSW rook cell, 0x19, BitVec.ofNat 64 (intToFp f32 .rne (a.setWidth 32).toInt).1)
            , (.cellCvtWS rook cell, 0x1A, BitVec.ofInt 64 (fpToInt f32 .rne false (-2147483648) 2147483647 (a.toNat % 2 ^ 32)).1)],
          i.op = e.2.1 → Does s e.1 (fun t => moves t false ∧ gives t e.2.2))
        ∧ (i.op = 0x18 → Does s (.cellSteer rook cell) (fun t => moves t false ∧ (ctl = true → gives t a)))
        ∧ ∀ b, val i.sb = some b →
          let x := f32.read false (a.toNat % 2 ^ 32)
          let y := f32.read false (b.toNat % 2 ^ 32)
          let w (n : Nat) : Word := BitVec.ofNat 64 n
          (∀ e ∈ [(Instr.cellAdd rook cell, 0x02, a + b), (.cellSub rook cell, 0x03, a - b), (.cellMul rook cell, 0x04, a * b), (.cellAnd rook cell, 0x05, a &&& b)
              , (.cellOr rook cell, 0x06, a ||| b), (.cellXor rook cell, 0x07, a ^^^ b), (.cellShl rook cell, 0x08, a <<< (b.toNat % 64)), (.cellShr rook cell, 0x09, a >>> (b.toNat % 64))
              , (.cellSra rook cell, 0x0A, a.sshiftRight (b.toNat % 64)), (.cellMin rook cell, 0x0B, if a.toInt ≤ b.toInt then a else b), (.cellMax rook cell, 0x0C, if b.toInt ≤ a.toInt then a else b)
              , (.cellFaddS rook cell, 0x11, w (f32.addVal .rne false x y).1), (.cellFmulS rook cell, 0x12, w (f32.mul .rne false x y).1)
              , (.cellFmaxS rook cell, 0x14, w (f32.minmax true false a.toNat b.toNat).1), (.cellFminS rook cell, 0x15, w (f32.minmax false false a.toNat b.toNat).1)],
            i.op = e.2.1 → Does s e.1 (fun t => moves t false ∧ gives t e.2.2))
          ∧ (∀ e ∈ [(Instr.cellSeq rook cell, 0x0D, decide (a = b)), (.cellSlt rook cell, 0x0E, decide (a.toInt < b.toInt)), (.cellSltu rook cell, 0x0F, decide (a.toNat < b.toNat))
              , (.cellFltS rook cell, 0x16, (f32.cmp .lt false a.toNat b.toNat).1)],
            i.op = e.2.1 → Does s e.1 (fun t => moves t false ∧ gives t (if e.2.2 then 1 else 0)
              ∧ ∀ d ∈ i.cout, ∀ n, neighbour cell d = some n → (n, (d + 2) % 4, e.2.2) ∈ (t.rook rook).stagedC))
          ∧ ∀ z, val i.sc = some z →
            (i.op = 0x10 → Does s (.cellSel rook cell) (fun t => moves t false ∧ gives t (if z ≠ 0 then a else b)))
            ∧ (i.op = 0x13 → Does s (.cellFmaS rook cell) (fun t => moves t false ∧ gives t (w (f32.fma .rne false x y (f32.read false (z.toNat % 2 ^ 32))).1))))
      ∧ (i.op = 0x17 → Does s (.cellCbr rook cell) (fun t => moves t ctl))
      ∧ (i.op = 0x1B → Does s (.cellFnc rook cell) (fun t => moves t false ∧ sends t (markerToken 4 pkt))))
    ∧ (u.cellAct cell = .marker → ∀ d m, d ∈ i.reads → (c.queue d).head? = some m → Does s (.markerPass rook cell) (fun t => SameMemory s t ∧ ((t.rook rook).cell cell).pc = c.pc
        ∧ (∀ d ∈ i.reads, ((t.rook rook).cell cell).queue d = (c.queue d).tail)
        ∧ ∀ d ∈ i.writes, ∀ n, neighbour cell d = some n → ∃ x, (n, (d + 2) % 4, x) ∈ (t.rook rook).staged ∧ x.kind = m.kind ∧ x.val = 0 ∧ x.poison = false))
    ∧ (∀ k < 2, u.chainReady k s.cycle = true → (u.chain k).marks = [] → u.exhausted = false →
      let x := u.chain k
      let n (j : Nat) := if wordBits (imgBlock u.img (4 + k) j) 15 0 = 0 then 65536 else wordBits (imgBlock u.img (4 + k) j) 15 0
      Does s (.counterChainEmit rook k) (fun t => ((t.rook rook).cell (4 + k)).queue 0 = (u.cell (4 + k)).queue 0 ++ [dataToken (BitVec.ofNat 64
          (x.i0 + x.i1 * 2 ^ 16 + x.i2 * 2 ^ 32 + (if x.i0 = 0 then 2 ^ 62 else 0) + (if x.i0 + 1 = n 0 then 2 ^ 63 else 0))) u.sourcePkt]
        ∧ ((t.rook rook).chain k).next = s.cycle + (imgBlock u.img (4 + k) 3).toNat
        ∧ (x.i0 + 1 < n 0 → ((t.rook rook).chain k).i0 = x.i0 + 1 ∧ ((t.rook rook).chain k).marks = [])
        ∧ (n 0 ≤ x.i0 + 1 → x.i1 + 1 < n 1 → ((t.rook rook).chain k).i0 = 0 ∧ ((t.rook rook).chain k).i1 = x.i1 + 1 ∧ ((t.rook rook).chain k).marks = [1])))
    ∧ (∀ k < 2, u.redReady k = true → (u.red k).outq = [] → ∀ m rest, (u.red k).inq = m :: rest →
      let x := u.red k
      let op := wordBits (imgBlock u.img (6 + k) 0) 2 0
      let acc := x.acc.getD (redIdentity op)
      (m.kind = 0 → Does s (.reductionUnitStep rook k) (fun t => ((t.rook rook).red k).inq = rest ∧ ((t.rook rook).red k).outq = [] ∧ ((t.rook rook).red k).acc = some (redFold op acc m.val)))
      ∧ (m.kind = 1 → wordBits (imgBlock u.img (6 + k) 0) 5 4 = 1 → x.poison = none → u.emitRoom (70 + k) = true → Does s (.reductionUnitStep rook k) (fun t => ((t.rook rook).red k).inq = rest
          ∧ ((t.rook rook).red k).acc = none ∧ (∃ y, ((t.rook rook).cell (6 + k)).queue 0 = (u.cell (6 + k)).queue 0 ++ [y] ∧ y.val = acc ∧ y.kind = 0 ∧ y.poison = false)
          ∧ ∃ y, ((t.rook rook).red k).outq = [y] ∧ y.kind = 1)))
    ∧ (∀ k < 4, u.sfuReady k = true → ∀ m rest, u.sfuIn k = m :: rest → Does s (.specialFunctionStep rook k) (fun t => (t.rook rook).sfuIn k = rest
        ∧ ((t.rook rook).cell (56 + k)).queue 2 = (u.cell (56 + k)).queue 2 ++ [if m.kind = 0 ∧ m.poison = false then
            { m with val := BitVec.ofNat 64 (specialFn (wordBits (imgBlock u.img (8 + k) 0) 2 0) (m.val.toNat % 2 ^ 32)) } else m]))
    ∧ (∀ m rest, u.butterflyReady = true → u.butterfly.inq = m :: rest → u.butterfly.outq = [] → m.kind = 0 → u.butterfly.block = [] → u.emitRoom 76 = true →
      wordBits (imgBlock u.img 12 0) 2 0 = 0 → wordBits (imgBlock u.img 12 0) 4 3 = 0 →
      Does s (.butterflyConversion rook) (fun t => (t.rook rook).butterfly.inq = rest ∧ (t.rook rook).butterfly.outq = [] ∧ ((t.rook rook).cell 60).queue 2 = (u.cell 60).queue 2 ++ [m]))
    ∧ (∀ ch m, 1 ≤ ch → ch ≤ 7 → m.kind ≠ 5 → u.saved (80 + ch) = false → (u.link ch).inbuf = [] →
      (u.emitRoom (80 + ch) = true → Does s (.linkTokenArrival rook ch m) (fun t => ((t.rook rook).link ch).inbuf = [] ∧ ((t.rook rook).cell (8 * ch + 7)).queue 1 = (u.cell (8 * ch + 7)).queue 1 ++ [m]))
      ∧ (u.emitRoom (80 + ch) = false → Does s (.linkTokenArrival rook ch m) (fun t => ((t.rook rook).link ch).inbuf = [m])))
    ∧ (∀ ch, 1 ≤ ch → ch ≤ 7 → Does s (.linkCreditReturn rook ch) (fun t => ((t.rook rook).link ch).credit = (u.link ch).credit + 1 ∧ SameMemory s t))

/-! ### Events of launch units, the host and the management plane -/

/-- R318, R321–R334, R337, R350–R352, R356–R358, R367, R384, R385, R417: what the events of launch units, of pre-emption and of the host port do: a doorbell makes records available, one whose form R321 rejects is reported as invalid, one that may be admitted gets the next number, its slots and its start time; lnch is answered with a number or an error value; a die of another unit answers ready with its part reserved, or not ready; threads start at ENTRY with their arguments; a launch ends with its report, an entry is written once its ring has room, an abort stops threads; a runtime request is kept or counted as dropped; a pre-emption records its save set, a core is emptied as its record is written, the header ends it, a resume needs a valid header; a host write is applied and acknowledged, a read returns memory; a package offset that is neither memory nor register stops the model by name. -/
def Obligations.LaunchEvents : Prop :=
  ∀ (s : State) (d q : Nat), q < 16 →
    let k := s.die d
    let x := k.queue q
    let key := d / 4 * 2 ^ 32 + d % 4 * 2 ^ 30 + k.seq
    let pkg := d / 4
    let pk := s.pkg pkg
    let waiting : Prop := ∀ l ∈ s.launches, l.die = d → l.aborted = none → l.tau ≠ 0
    (∀ tail, Does s (.queueDoorbell d q tail) (fun t => ((t.die d).queue q).tail = tail ∧ ((t.die d).queue q).head = x.head ∧ (t.die d).time = max k.time (s.die (pkg * 4)).time
      ∧ Posts t (4 * (s.cycle + 1)) (.launchAdmission d) ∧ SameMemory s t))
    ∧ (∀ chead, Does s (.completionRingRelease d q chead) (fun t => ((t.die d).queue q).chead = chead ∧ ((t.die d).queue q).ctail = x.ctail ∧ Posts t s.now (.completionReport d)))
    ∧ (∀ m : LnchMsg, dieOf m.thread.core = d →
      let answers (t : State) (w : Nat) : Prop := Posts t (4 * max (m.issue + 200) s.cycle) (.longOperationCompletion
        { thread := m.thread, id := m.id, dst := .g m.dst, va := m.va, val := BitVec.ofNat 512 w, mark := none, raise := 0, issue := m.issue, word := 0 })
      (s.launch? (s.slot m.thread.core m.thread.slot).launch = none → Does s (.lnchSubmission m) (fun t => answers t (2 ^ 63 + 2) ∧ t.dies = s.dies))
      ∧ (∀ l, s.launch? (s.slot m.thread.core m.thread.slot).launch = some l →
        (64 ≤ k.devq.length → Does s (.lnchSubmission m) (fun t => answers t (2 ^ 63 + 1) ∧ t.dies = s.dies))
        ∧ (k.devq.length < 64 → (∃ pa ∈ m.sectors, s.unitLocked k.time pa = true) → Does s (.lnchSubmission m) (fun t => Posts t (4 * (s.cycle + 1)) (.lnchSubmission m) ∧ t.dies = s.dies))
        ∧ (k.devq.length < 64 → (∀ pa ∈ m.sectors, s.unitLocked k.time pa = false) →
          ((∃ pa ∈ m.sectors, (s.sector pa).poison ≠ none) → Does s (.lnchSubmission m) (fun t => answers t (2 ^ 63 + 2) ∧ (t.die d).devq = k.devq))
          ∧ ((∀ pa ∈ m.sectors, (s.sector pa).poison = none) →
            let y := lnchRecord (m.sectors.flatMap (fun pa => bytesWords (Memory.getN s.mem pa 64))) l.record
            let verdict := ((m.sectors.foldl (fun s pa => s.readAsUnit d pa 64) s).judgeRecordOf d y true).1
            (verdict = .wait → Does s (.lnchSubmission m) (fun t => Posts t (4 * (s.cycle + 1)) (.lnchSubmission m) ∧ (t.die d).devq = k.devq))
            ∧ (verdict = .unpublished → Does s (.lnchSubmission m) (fun t => answers t (2 ^ 63 + 3) ∧ (t.die d).devq = k.devq))
            ∧ (∀ c p, verdict = .invalid c p → Does s (.lnchSubmission m) (fun t => answers t (2 ^ 63 + 2) ∧ (t.die d).devq = k.devq))
            ∧ (∀ a b, verdict = .ok a b → Does s (.lnchSubmission m) (fun t => answers t (key % 2 ^ 32) ∧ Posts t (4 * (s.cycle + 1)) (.launchAdmission d)
                ∧ ∃ z, (t.die d).devq = k.devq ++ [z] ∧ z.record = y ∧ z.from_ = m.thread ∧ z.launch = key ∧ z.time = m.time))))))
    ∧ (waiting → (∀ i < 16, (k.queue i).head = (k.queue i).tail) → k.devq = [] → k.requests = [] → k.selected = none → Does s (.launchAdmission d) (fun t => t = s))
    ∧ (∀ p e n, waiting → k.selected = none → k.round = none → firstCandidate (s.candidates d) = some (.queue q, p, e, n) →
      let pa := x.recordAt d x.head
      (∀ i < 4, s.unitLocked k.time (pa + 64 * i) = false) → s.poisonAt pa 256 = none → s.formBad d (s.headRecord d q) false = true →
      Does s (.launchAdmission d) (fun t => t.launches = s.launches ∧ ((t.die d).queue q).head = x.head + 1
        ∧ ∃ y, (t.die d).reports = k.reports ++ [y] ∧ y.queue = some q ∧ y.entry[0]? = some (reportWord 0 3 0) ∧ y.entry[2]? = some (BitVec.ofNat 64 (pa % 2 ^ 42))))
    ∧ (∀ y own, waiting → k.selected = some y → y.src = .queue q → s.select d = s → y.graph = [] → y.wsl = [] →
      let r := y.record
      let tau := max 1 (max k.time (s.startBase d y.src r []))
      s.placeDie d r = some own → launchDies d r = [d] → recSnap r = false → recMirr r = false → s.launch? key = none → (∀ e ∈ own, e.2 < 16) →
      (∀ e ∈ own, (s.core e.1).needsScrub (recCtx r) = false ∧ (s.clu (cluOf e.1)).stale (recCtx r) = false) →
      Does s (.launchAdmission d) (fun t => ((t.die d).queue q).head = x.head + 1 ∧ (t.die d).seq = (if k.seq + 1 = 2 ^ 30 then 1 else k.seq + 1) ∧ (t.die d).time = tau
        ∧ (∀ e ∈ own, (t.slot e.1 e.2).occ = .reserved) ∧ Posts t (4 * (s.cycle + 40)) (.launchStart key d)
        ∧ ∃ l, t.launches = s.launches ++ [l] ∧ l.num = key ∧ l.die = d ∧ l.record = r ∧ l.slots = own ∧ l.tau = tau ∧ l.alive = own.length ∧ l.aborted = none))
    ∧ (∀ m : PlaceMsg, m.die = d →
      let answers (t : State) (ok : Bool) (n : Nat) : Prop := Posts t (4 * (s.cycle + s.unitTravel d m.home)) (.placementAnswer m ok n)
      (m ∉ k.requests → Does s (.placementRequest m) (fun t => (t.die d).requests = k.requests ++ [m] ∧ Posts t (4 * (s.cycle + 1)) (.launchAdmission d)))
      ∧ (m ∈ k.requests → s.placeDie d m.record = none → Does s (.placementRequest m) (fun t => (t.die d).requests = k.requests.erase m ∧ (t.die d).parts = k.parts ∧ answers t false 0))
      ∧ (∀ l, m ∈ k.requests → s.placeDie d m.record = some l →
        (m.snap = true → 4096 ≤ pk.registry.length → Does s (.placementRequest m) (fun t => (t.die d).parts = k.parts ∧ answers t false 1))
        ∧ (m.snap = false ∨ pk.registry.length < 4096 → Does s (.placementRequest m) (fun t => (t.die d).parts = k.parts ++ [{ round := m.round, slots := l, mirr := recMirr m.record }]
          ∧ (∀ e ∈ l, e.2 < 16 → (t.slot e.1 e.2).occ = .reserved) ∧ answers t true (if m.snap then k.time else 0)
          ∧ (t.pkg pkg).registry = pk.registry ++ (if m.snap then [{ time := k.time, owner := heldOwner m.round }] else [])))))
    ∧ (∀ (m : PlaceMsg) time, m.home = d →
      ((∀ y, k.round = some y → y.num ≠ m.round) → ∀ b, Does s (.placementAnswer m b time) (fun t => t = s))
      ∧ ∀ y, k.round = some y → y.num = m.round →
        Does s (.placementAnswer m true time) (fun t => (t.die d).round = some { y with waiting := y.waiting.filter (· != m.die), ready := y.ready ++ [m.die], times := y.times ++ [time] })
        ∧ Does s (.placementAnswer m false time) (fun t => (t.die d).round = some { y with
            waiting := [], ready := [], notReady := (if time = 0 then [m.die] else []), full := (if time = 0 then [] else [m.die / 4]), times := [] }))
    ∧ (∀ n die l, s.launch? n = some l →
      (l.aborted = none → recMirr l.record = false → (∀ e ∈ l.slots, Single s e.1 ∧ e.2 < 16) → l.slots.Nodup → Does s (.launchStart n die) (fun t => SameMemory s t
        ∧ ∀ idx c i, (idx, c, i) ∈ numbered l.slots → dieOf c = die → let y := t.slot c i
          y.occ = .thread ∧ y.pc = recEntry l.record ∧ y.idx = idx ∧ y.launch = n ∧ y.ctx = l.ctx ∧ y.gen = ((s.slot c i).gen + 1) % 65536 ∧ y.st.sup = false ∧ y.readyAt = s.cycle
            ∧ ∀ j : Fin 32, (y.regs.getG j).tag = (if j.val ≤ 8 then .full else .void) ∧ (1 ≤ j.val → j.val ≤ 8 → (y.regs.getG j).val = recDw l.record (3 + j.val))))
      ∧ (l.aborted ≠ none → Does s (.launchStart n die) (fun t => t = s))
      ∧ (l.alive ≠ 0 → Does s (.launchCompletion n) (fun t => t = s))
      ∧ (l.alive = 0 → s.rookStores l = true → Does s (.launchCompletion n) (fun t => t = s))
      ∧ (l.alive = 0 → (l.aborted = none → ∀ r ∈ l.rooks, r ∈ l.rooksDone) → s.rookStores l = false →
        let phase := s.phaseTimeOf l
        Does s (.launchCompletion n) (fun t => t.launch? n = none ∧ (∀ m, m ≠ n → t.launch? m = s.launch? m) ∧ phase ≤ (t.die l.die).time ∧ getKey (t.die l.die).phases n = some phase ∧ Posts t s.now (.completionReport l.die)
          ∧ (t.die l.die).reports = (s.die l.die).reports ++ [{ queue := (if l.host then l.queue.map Prod.snd else none), entry := [reportWord n (if l.aborted = none then 1 else 2) (l.aborted.getD 0), BitVec.ofNat 64 phase, l.recordAddr, 0], done := recDone l.record, doneTime := phase, ctx := l.ctx }]))
      ∧ (∀ cause, l.aborted = none → Does s (.abort n cause) (fun t => (∃ y, t.launch? n = some y ∧ y.aborted = some cause) ∧ Posts t s.now (.launchCompletion n)))
      ∧ (∀ cause, l.aborted ≠ none → Does s (.abort n cause) (fun t => t = s)))
    ∧ (∀ r, k.reports = [r] → k.hcalls = [] → r.queue = some q →
      (x.hasRoom = true → r.done = 0 → r.entry.length = 4 → Does s (.completionReport d) (fun t => (t.die d).reports = [] ∧ ((t.die d).queue q).ctail = x.ctail + 1
        ∧ SameMemory s t ∧ ∃ a, Posts t s.now (.homeStore a) ∧ a.agent = .launchUnit d ∧ a.pa = unitPa d x.cbase 32 + 32 * (x.ctail.toNat % 2 ^ min 12 x.clog.toNat) ∧ a.size = 32
          ∧ a.data = BitVec.ofNat 512 (bytesNat (r.entry.flatMap wordBytes)) ∧ a.ts = k.time))
      ∧ (x.hasRoom = false → Does s (.completionReport d) (fun t => (t.die d).reports = [r] ∧ SameMemory s t)))
    ∧ (∀ n idx src c i, (∃ y, (c, y) ∈ s.cores) → i < 16 → (s.slot c i).isSaved = false → (s.slot c i).movedTo = none →
      let named (e : CoreKey × Core) (j : Nat) : Prop := (e.2.slot j).occ = .thread ∧ (e.2.slot j).launch = n ∧ (e.2.slot j).idx = idx ∧ e.2.shadowOf = none
      ((∀ e ∈ s.cores, ∀ j < 16, ¬ named e j) → Does s (.inti n idx src) (fun t => t = s))
      ∧ ((∀ e ∈ s.cores, ∀ j < 16, named e j ↔ e.1 = c ∧ j = i) → (∀ e ∈ s.cores, e.1 = c → e.2 = s.core c) →
        Does s (.inti n idx src) (fun t => (t.slot c i).ints = (s.slot c i).ints ++ [{ code := 0x1E0, info := BitVec.ofNat 64 src }] ∧ Posts t s.now (.interruptTaken (s.refOf c i)))))
    ∧ (∀ c i a, dieOf c = d →
      (4 ≤ k.hcalls.length → Does s (.hcall c i a) (fun t => (t.core c).dropc = (s.core c).dropc + 1 ∧ t.dies = s.dies))
      ∧ (∀ sub b, k.hcalls.length < 4 → s.unitRead pkg (s.slot c i).ctx k.time (clear3 a) 24 = .fail sub b → Does s (.hcall c i a) (fun t => (t.core c).dropc = (s.core c).dropc + 1 ∧ t.dies = s.dies))
      ∧ (k.hcalls.length < 4 → s.unitRead pkg (s.slot c i).ctx k.time (clear3 a) 24 = .wait → Does s (.hcall c i a) (fun t => Posts t (4 * (s.cycle + 1)) (.hcall c i a) ∧ t.dies = s.dies))
      ∧ (∀ bs, k.hcalls.length < 4 → s.unitRead pkg (s.slot c i).ctx k.time (clear3 a) 24 = .ok bs → Does s (.hcall c i a) (fun t => (∃ o, (t.die d).hcalls = k.hcalls ++ [(o, (s.slot c i).launch, bytesWords bs)])
          ∧ Posts t s.now (.completionReport d) ∧ (t.core c).dropc = (s.core c).dropc)))
    ∧ (∀ ctx, (pk.preempt ≠ none → Does s (.preempt pkg ctx) (fun t => t = s) ∧ Does s (.resume pkg ctx) (fun t => t = s))
      ∧ (pk.preempt = none → (∀ e ∈ s.clusters, pkgOfClu e.1 = pkg → e.2.retiring = false) →
        (s.ctxLaunches pkg ctx = [] → Does s (.preempt pkg ctx) (fun t => (t.pkg pkg).pstat = BitVec.ofNat 64 (ctx * 2 ^ 16 + 2) ∧ (t.pkg pkg).preempt = none))
        ∧ (s.ctxLaunches pkg ctx ≠ [] → pk.ctxs.find? (fun e => e.1 = ctx) ≠ none → Does s (.preempt pkg ctx) (fun t => (t.pkg pkg).pstat = BitVec.ofNat 64 (ctx * 2 ^ 16 + 1)
            ∧ ∃ y, (t.pkg pkg).preempt = some y ∧ y.ctx = ctx ∧ y.resume = false ∧ y.start = s.cycle ∧ y.launches = (s.ctxLaunches pkg ctx).map Launch.num ∧ y.written = false)))
      ∧ (pk.preempt = none → s.readDescriptor pkg ctx = none → Does s (.resume pkg ctx) (fun t => (t.pkg pkg).pstat = BitVec.ofNat 64 (ctx * 2 ^ 16 + 2) ∧ (t.pkg pkg).preempt = none))
      ∧ (∀ y, pk.preempt = none → s.readDescriptor pkg ctx = some y →
        let s' := s.modPkg pkg (fun k => { k with ctxs := setKey k.ctxs ctx y })
        let w := s'.areaDw pkg ctx y.psa 0
        w / 2 ^ 63 ≠ 0 → w % 2 ^ 16 = ctx → w / 2 ^ 16 % 512 = pkg → Does s (.resume pkg ctx) (fun t => (t.pkg pkg).pstat = BitVec.ofNat 64 (ctx * 2 ^ 16 + 1) ∧ SameMemory s t
          ∧ ∃ z, (t.pkg pkg).preempt = some z ∧ z.ctx = ctx ∧ z.resume = true ∧ z.psa = y.psa)))
    ∧ (pk.preempt = none → Does s (.saveHeaderWrite pkg) (fun t => t = s) ∧ Does s (.resumedThreadStart pkg) (fun t => t = s))
    ∧ (∀ y, pk.preempt = some y →
      (∀ r : ThreadRef, pkgOf r.core = pkg → Held s r → (s.slot r.core r.slot).occ = .thread → (s.slot r.core r.slot).ctx = y.ctx → y.resume = false →
        Does s (.psave r) (fun t => (∃ b, (t.slot r.core r.slot).block = some b ∧ b.kind = .saved) ∧ (t.slot r.core r.slot).regs = (s.slot r.core r.slot).regs ∧ ∀ e ∈ t.clusters, ∀ z ∈ e.2.resv, z.thread ≠ r))
      ∧ (∀ c, pkgOf c = pkg → y.resume = false → c ∈ y.coresLeft → (s.core c).maySave = true → (s.core c).mirror = none → Does s (.coreRecordWrite c) (fun t =>
          (∀ i < 16, (s.slot c i).occ = .thread → t.slot c i = { Slot.init with gen := (s.slot c i).gen }) ∧ (t.core c).arrivals = [] ∧ (t.core c).spad = (s.core c).spad
          ∧ ∃ z, (t.pkg pkg).preempt = some z ∧ z.coresLeft = y.coresLeft.filter (· != c) ∧ (∃ j, z.jobs = y.jobs ++ [j] ∧ j.clu = cluOf c ∧ j.off = coreAt c ∧ j.rate = 64 ∧ j.left = s.coreRecord (s.core c) c) ∧ z.maxTime = max y.maxTime (s.core c).time))
      ∧ (∀ c, pkgOf c = pkg → c ∉ y.coresLeft → Does s (.coreRecordWrite c) (fun t => t = s))
      ∧ (∀ c, pkgOfClu c = pkg → y.resume = false → c ∈ y.weightsLeft → Does s (.weightStoreSave c) (fun t => (t.clu c).weights = (s.clu c).weights
          ∧ ∃ z, (t.pkg pkg).preempt = some z ∧ z.weightsLeft = y.weightsLeft.filter (· != c) ∧ (if (s.clu c).weightCtx = some y.ctx then ∃ j, z.jobs = y.jobs ++ [j] ∧ j.off = clusterAt c ∧ j.rate = 1024 ∧ j.left = Memory.getN (s.clu c).weights 0 (2 ^ 24) else z.jobs = y.jobs)))
      ∧ (∀ r, pkgOfClu (r / 4) = pkg → y.resume = false → r ∈ y.rooksLeft → Does s (.rookRecordWrite r) (fun t =>
          ∃ z, (t.pkg pkg).preempt = some z ∧ z.rooksLeft = y.rooksLeft.filter (· != r) ∧ ∃ j, z.jobs = y.jobs ++ [j] ∧ j.off = rookAt r ∧ j.rate = 64 ∧ j.left = rookRecord (s.rook r)))
      ∧ (y.resume = false → y.written = false → Does s (.saveHeaderWrite pkg) (fun t => (∃ z, (t.pkg pkg).preempt = some z ∧ z.written = true ∧ z.ctx = y.ctx) ∧ ∃ n, Posts t (4 * (s.cycle + n)) (.saveHeaderWrite pkg)))
      ∧ (y.resume = false → y.written = true → Does s (.saveHeaderWrite pkg) (fun t => (t.pkg pkg).preempt = none ∧ (t.pkg pkg).pstat = BitVec.ofNat 64 (y.ctx * 2 ^ 16 + 2) ∧ SameMemory s t))
      ∧ (y.resume = true → Does s (.resumedThreadStart pkg) (fun t => (t.pkg pkg).preempt = none ∧ (t.pkg pkg).pstat = BitVec.ofNat 64 (y.ctx * 2 ^ 16 + 2))))
    ∧ (∀ off bs, off < 2 ^ 42 →
      let pa := pkg * 2 ^ 42 + off
      (hostMem off bs.length = false → exec (.hostWrite pkg off bs) s = .fault .noSuchHostAddress) ∧ (hostMem off bs.length = false → exec (.hostRead pkg off bs.length) s = .fault .noSuchHostAddress)
      ∧ (hostMem off bs.length = true → pk.hostWait ≠ [] → Does s (.hostWrite pkg off bs) (fun t => (t.pkg pkg).hostWait = pk.hostWait ++ [.hostWrite pkg off bs] ∧ SameMemory s t))
      ∧ (hostMem off bs.length = true → pk.hostWait = [] → Does s (.hostWrite pkg off bs) (fun t => SameMemory s t ∧ (t.pkg pkg).hostOut.length = pk.hostOut.length + (bytePieces pa bs).length
          ∧ ∀ e ∈ bytePieces pa bs, ∃ a, Posts t (4 * (s.cycle + s.homeLatency (96 * pkg) (physHome e.1) / 2)) (.homeStore a) ∧ a.agent = .host pkg ∧ a.pa = e.1 ∧ a.size = e.2.length
            ∧ a.data = BitVec.ofNat 512 (bytesNat e.2) ∧ a.ts = (s.die (4 * pkg)).time ∧ a.vbit = pk.hwv))
      ∧ (hostMem off bs.length = true → pk.hostWait = [] → pk.hostOut = [] →
        (s.hostReadLocked pkg off bs.length = false → Does s (.hostRead pkg off bs.length) (fun t => (t.pkg pkg).hostReply = Memory.getN s.mem pa bs.length ∧ SameMemory s t))
        ∧ (s.hostReadLocked pkg off bs.length = true → Does s (.hostRead pkg off bs.length) (fun t => (t.pkg pkg).hostWait = [.hostRead pkg off bs.length] ∧ (t.pkg pkg).hostReply = pk.hostReply)))
      ∧ (hostMem off bs.length = true → (pk.hostWait ≠ [] ∨ pk.hostOut ≠ []) → Does s (.hostRead pkg off bs.length) (fun t => (t.pkg pkg).hostWait = pk.hostWait ++ [.hostRead pkg off bs.length])))
    ∧ (∀ bs, bs.length = 8 → pk.hostWait = [] →
      let w := BitVec.ofNat 64 (bytesNat bs)
      let at_ (o : Nat) (p : State → Prop) : Prop := Does s (.hostWrite pkg (2 ^ 42 + o) bs) p
      at_ (0x1000 + 0x40 * (16 * (d % 4) + q)) (fun t => ((t.die d).queue q).qbase = w &&& ~~~255#64 ∧ SameMemory s t)
      ∧ (pk.hostOut = [] → at_ (0x1018 + 0x40 * (16 * (d % 4) + q)) (fun t => Posts t s.now (.queueDoorbell d q (w.setWidth 32))))
      ∧ at_ 0x40000 (fun t => (t.pkg pkg).cdtb = BitVec.ofNat 64 (wordBits w 41 22 * 2 ^ 22)) ∧ at_ 0x40018 (fun t => (t.pkg pkg).intl = w)
      ∧ (pk.hostOut = [] → at_ 0x40020 (fun t => Posts t s.now (.inti (pkg * 2 ^ 32 + wordBits pk.intl 31 0) (wordBits w 23 0) (wordBits pk.intl 35 32))))
      ∧ (pk.hostOut = [] → at_ 0x40028 (fun t => ∃ cause, Posts t s.now (.abort (pkg * 2 ^ 32 + wordBits w 31 0) cause))) ∧ at_ 0x40030 (fun t => (t.pkg pkg).hwv = w.getLsbD 0))
    ∧ (∀ id w,
      (pk.hostWait = [] → Does s (.hostWriteAcknowledgement pkg id w) (fun t => (t.die (4 * pkg)).time = max (s.die (4 * pkg)).time w ∧ (t.pkg pkg).hostOut = pk.hostOut.filter (· != id) ∧ SameMemory s t))
      ∧ (∀ off n, pk.hostWait = [.hostRead pkg off n] → off < 2 ^ 42 → pk.hostOut.filter (· != id) = [] → (s.raiseDie (4 * pkg) w).hostReadLocked pkg off n = false →
        Does s (.hostWriteAcknowledgement pkg id w) (fun t => (t.pkg pkg).hostReply = Memory.getN s.mem (pkg * 2 ^ 42 + off) n ∧ (t.pkg pkg).hostWait = [])))

/-- R257, R382, R390, R394, R397, R398, R400–R411: what the events of errors, of mirrored pairs, of retirement and of the management plane do: a storage error is counted, or leaves its register, accumulator, control register or word damaged; a replayed message comes later; a shadow's bundle joins its cycle; a checkpoint is taken and numbered, a rollback puts the slots back; a request to retire is refused without a spare, and a retired cluster's logical number moves to the spare; refresh closes a group; a reset empties the package and runs bring-up to its outcome; SETPOD and the time limit give the identity that releases the dies; the opcodes of the port answer as R407 lists them; the clock moves by one step. -/
def Obligations.ManagementEvents : Prop :=
  ∀ (s : State) (r : ThreadRef) (pkg : PkgKey),
    let x := s.pkg pkg
    let y := x.yamus
    let sl := s.slot r.core r.slot
    (∀ d, Does s (.softError (.corrected d)) (fun t => (t.die d).elCorr = (s.die d).elCorr + 1))
    ∧ (∀ n, Held s r → fixedReg n = false → sl.regs.tag n = .full → Does s (.softError (.register r n)) (fun t => (t.slot r.core r.slot).regs = sl.regs.put n 0 (damageMark n)))
    ∧ (∀ c a, Does s (.softError (.accumulator c a)) (fun t => a ∈ (t.core c).accDamage ∧ (t.core c).acc = (s.core c).acc))
    ∧ (∀ n, Held s r →
      (crUnit r.core n.toNat = none → Does s (.softError (.control r n)) (fun t => n ∈ (t.slot r.core r.slot).crDamage))
      ∧ ∀ z, crUnit r.core n.toNat = some z → Does s (.softError (.control r n)) (fun t => (z, n.toNat) ∈ t.crDamage))
    ∧ (∀ c w, Does s (.softError (.scratchpad c w)) (fun t => getKey (t.core c).spadPoison w = some 4)) ∧ (∀ c w, Does s (.softError (.weightStore c w)) (fun t => getKey (t.clu c).weightPoison w = some 5))
    ∧ (∀ a, Does s (.softError (.memory a)) (fun t => (t.sector a).poison = some (if inLpddr a then 2 else 1)))
    ∧ (∀ c a, Does s (.softError (.instructionCache c a)) (fun t => ∀ l ∈ (t.core c).icache, l.line ≠ a))
    ∧ (∀ p ∈ s.agenda, s.agenda.find? (fun z => z.num = p.num) = some p → ∀ k i n,
      (p.crosses = false → Does s (.flitReplay (.replay k i p.num n)) (fun t => t.agenda = s.agenda))
      ∧ (p.crosses = true → s.late = [] → Does s (.flitReplay (.replay k i p.num n)) (fun t => Posts t (p.due + 4 * min n 64) p.ev
          ∧ ∀ z ∈ s.agenda, ∀ v w, p.wire = some v → z.wire = some w → v.sameRoute w = true → p.num < z.num → ∃ due, Posts t due z.ev ∧ p.due + 4 * min n 64 ≤ due)))
    ∧ (∀ f, Does s (.shadowBundle f) (fun t => t.forced = s.forced ++ [f]))
    ∧ (∀ c, (s.core c).mirror = none → Does s (.checkpoint c) (fun t => t = s) ∧ ∀ i pc, Does s (.mirroredRollback c i pc) (fun t => t = s))
    ∧ (∀ c m, (s.core c).mirror = some m →
      (m.waits = false → (s.core c).stopUntil ≤ s.cycle → s.phase = 0 → Does s (.checkpoint c) (fun t => (t.core c).stopUntil = s.cycle + 16 ∧ Posts t (4 * s.cycle + 3) (.checkpoint c)
        ∧ (t.core c).mirror = some { m with waits := true }))
      ∧ (m.waits = true → (s.core c).localBusy = false → (s.core m.shadow).localBusy = false → s.rollbackDue c = false → (∀ p ∈ s.agenda, ∀ f, p.ev = .shadowBundle f → f.leader.core ≠ c) →
        Does s (.checkpoint c) (fun t => (t.core c).mirrCkn = (s.core c).mirrCkn + 1 ∧ (∀ h ∈ m.store, ∃ due, Posts t due (.homeStore { h.access with issue := s.cycle }))
          ∧ ∃ z, (t.core c).mirror = some z ∧ z.ckSlots = (s.core c).slots.toList ∧ z.store = [] ∧ z.logCount = 0 ∧ z.mismatched = false ∧ z.waits = false))
      ∧ (∀ i pc, m.shadow ≠ c → m.mismatched = false → Does s (.mirroredRollback c i pc) (fun t => (t.core c).stopUntil = s.cycle + 33 + max m.logCount m.logShadow
          ∧ (t.core c).mirrRoll = (if (s.core c).mirrRoll = 255 then 255 else (s.core c).mirrRoll + 1) ∧ (∃ z, (t.core c).mirror = some z ∧ z.mismatched = true ∧ z.store = [])
          ∧ ∀ j < 16, j ∉ m.busy → (t.slot c j).regs = (m.ckSlots.getD j Slot.init).regs ∧ (t.slot c j).pc = (m.ckSlots.getD j Slot.init).pc)))
    ∧ (∀ c, let d := s.die (dieOfClu c)
      (s.clu c).retiring = false →
        ((d.spares = [] ∨ 2 ≤ d.remaps.count (c % 24)) → Does s (.retireCluster c) (fun t => (t.clu c).retiring = false))
        ∧ (d.spares ≠ [] → d.remaps.count (c % 24) < 2 → Does s (.retireCluster c) (fun t => (t.clu c).retiring = true ∧ SameMemory s t)))
    ∧ (∀ c spare rest, (s.die (dieOfClu c)).spares = spare :: rest → Does s (.retirementDone c) (fun t => (t.die (dieOfClu c)).repair = (s.die (dieOfClu c)).repair.set (c % 24) spare
      ∧ (t.die (dieOfClu c)).spares = rest ∧ (t.die (dieOfClu c)).remaps = (s.die (dieOfClu c)).remaps ++ [c % 24] ∧ (t.clu c).retiring = false ∧ (t.clu c).cache = [] ∧ (t.clu c).tlb = []
      ∧ (t.clu c).images = [] ∧ (t.clu c).weights = []))
    ∧ (∀ d g, g < (s.die d).groupFree.length → Does s (.lpddr6Refresh d g) (fun t => SameMemory s t ∧ t.free = s.free + 1 ∧ (s.die d).groupAt g ≤ (t.die d).groupAt g
      ∧ (t.die d).groupAt g ≤ max ((s.die d).groupAt g) (64 * (s.cycle + s.nsCycles (d / 4) 2800))))
    ∧ (∀ n, (x.podPkg = 0 → Does s (.pcycBeacon pkg n) (fun t => t = s))
      ∧ (x.podPkg ≠ 0 → let own : BitVec 64 := BitVec.ofNat 64 (s.pcycNow (pkg - x.podPkg))
        Does s (.pcycBeacon pkg n) (fun t => (t.pkg pkg).pcyc = (if (n - own + 2).toNat ≤ 4 then n else own) - BitVec.ofNat 64 (s.cyc pkg))))
    ∧ (∀ b : BringUp,
      let image := y.staged.getD b.image
      let empty (t : State) : Prop := (∀ e ∈ t.cores, pkgOf e.1 ≠ pkg) ∧ (∀ e ∈ t.mem, pkgOfPA e.1 ≠ pkg) ∧ (t.pkg pkg).released = false
      (fwAccepted image y.minCounter = false → Does s (.coldReset pkg b) (fun t => empty t ∧ (t.pkg pkg).yamus.recovery = some b ∧ (t.pkg pkg).yamus.step = 1))
      ∧ (fwAccepted image y.minCounter = true → ∀ r2 r3, repairDies y.record b.badClusters = some r2 → retireVaults r2 b.badVaults b.badClusters = some r3 →
        (b.lpddrOk = false → Does s (.coldReset pkg b) (fun t => empty t ∧ (t.pkg pkg).yamus.step = 4 ∧ (t.pkg pkg).yamus.replies.head? = some (.moduleFault 4)))
        ∧ (b.lpddrOk = true → b.diePairsOk = true → trainBirsyn b.birsyn ≠ none → Does s (.coldReset pkg b) (fun t => empty t ∧ (t.pkg pkg).yamus.step = 8 ∧ (t.pkg pkg).yamus.record = r3
            ∧ (t.pkg pkg).yamus.minCounter = max y.minCounter (fwCounter image) ∧ Posts t (4 * (s.cycle + 8500000000)) (.podIdentityTimeout pkg))))
      ∧ (y.recovery = none → ∃ t, exec (.reset pkg b) s = .next t ∧ exec (.coldReset pkg b) s = .next t))
    ∧ (y.step = 8 → Does s (.podIdentityTimeout pkg) (fun t => (t.pkg pkg).podPkg = 0 ∧ (t.pkg pkg).podN = 0 ∧ (t.pkg pkg).routes = [] ∧ (t.pkg pkg).yamus.unused = true
      ∧ Posts t (4 * (s.cycle + 1)) (.dieRelease pkg)))
    ∧ (y.step ≠ 8 → Does s (.podIdentityTimeout pkg) (fun t => t = s) ∧ Does s (.dieRelease pkg) (fun t => t = s))
    ∧ (y.step = 8 → x.podPkg = 0 → Does s (.dieRelease pkg) (fun t => (t.pkg pkg).released = true ∧ (t.pkg pkg).release = s.cycle ∧ (t.pkg pkg).yamus.step = 9 ∧ t.pcycNow pkg = 0))
    ∧ (y.recovery = none →
      let answers (e : Instr) (a : MgmtReply) (p : State → Prop) : Prop := Does s e (fun t => (t.pkg pkg).yamus.replies = a :: y.replies ∧ SameMemory s t ∧ p t)
      (∀ c : PodConfig, y.step = 8 → c.pkg % 512 ≤ c.npkg % 512 → c.pkg % 512 ≤ pkg → (∀ z ∈ c.routes, ∀ port ∈ z.2.2, s.portUp pkg port = true) → answers (.setpod pkg c) .done (fun t => (t.pkg pkg).podPkg = c.pkg % 512 ∧ (t.pkg pkg).podN = c.npkg % 512
        ∧ (t.pkg pkg).podDiam = c.diam % 16 ∧ (t.pkg pkg).podId = c.pod % 65536 ∧ Posts t (4 * (s.cycle + 1)) (.dieRelease pkg) ∧ ∀ p ∈ t.agenda, p.ev ≠ .podIdentityTimeout pkg))
      ∧ (∀ c, (y.step ≠ 8 ∨ ∃ z ∈ c.routes, ∃ port ∈ z.2.2, s.portUp pkg port = false) → answers (.setpod pkg c) .refused (fun t => (t.pkg pkg).podPkg = x.podPkg))
      ∧ answers (.status pkg) (.status y.step y.faultCode (fwVersion y.firmware)) (fun t => t.agenda = s.agenda)
      ∧ (∀ f, answers (.loadfw pkg f) .done (fun t => (t.pkg pkg).yamus.staged = some f ∧ (t.pkg pkg).yamus.firmware = y.firmware))
      ∧ (∀ n, let rep := attestReport y (s.repairMaps pkg) n
        answers (.attest pkg n) (.attest rep (Config.ecdsaSign pkg (Config.sha384 rep)) (Config.certificate pkg)) (fun t => t.agenda = s.agenda))
      ∧ (∀ z, y.readings = some z → answers (.telem pkg) (.telem z) (fun t => t.agenda = s.agenda))
      ∧ (∀ w, 800 ≤ w → w ≤ 2600 → answers (.setlim pkg w) .done (fun t => (t.pkg pkg).lim = w)) ∧ (∀ w, w < 800 ∨ 2600 < w → answers (.setlim pkg w) .refused (fun t => (t.pkg pkg).lim = x.lim))
      ∧ answers (.getrep pkg) (.repair (s.repairMaps pkg) y.record) (fun t => t.agenda = s.agenda) ∧ (∀ o, answers (.unknownOpcode pkg o) .unknown (fun t => t.agenda = s.agenda)))
    ∧ (∀ b, y.recovery = some b → Does s (.telem pkg) (fun t => t = s) ∧ Does s (.getrep pkg) (fun t => t = s) ∧ ∀ w, Does s (.setlim pkg w) (fun t => t = s))
    ∧ Does s (.telemetryRefresh pkg) (fun t => (t.pkg pkg).yamus.refreshes = y.refreshes + 1 ∧ (t.pkg pkg).yamus.readings ≠ none ∧ Posts t (4 * (s.cycle + 1000 * stepMHz x.step)) (.telemetryRefresh pkg))
    ∧ (x.podN = 0 → Does s (.clockStepDown pkg) (fun t => (t.pkg pkg).asked = min 5 (x.asked + 1) ∧ (t.pkg pkg).step = min 5 (x.asked + 1))
      ∧ Does s (.clockStepUp pkg) (fun t => (t.pkg pkg).asked = x.asked - 1 ∧ (t.pkg pkg).step = x.asked - 1) ∧ Does s (.thermalLimit pkg) (fun t => (t.pkg pkg).hot = true ∧ (t.pkg pkg).step = 5))
    ∧ (x.podN ≠ 0 → Does s (.clockStepDown pkg) (fun t => (t.pkg pkg).asked = min 5 (x.asked + 1) ∧ (t.pkg pkg).step = x.step
      ∧ (x.released = true → ∃ n, min 5 (x.asked + 1) ≤ n ∧ Posts t (4 * (s.cycle + (s.pcycNow (pkg - x.podPkg) + 300 * x.podDiam + 64 - s.pcycNow pkg))) (.podClockStepChange { pkg := pkg, step := n }))))
    ∧ (∀ n, Does s (.podClockStepChange { pkg := pkg, step := n }) (fun t => (t.pkg pkg).step = (if x.released then min n 5 else x.step) ∧ ∀ p, p ≠ pkg → (t.pkg p).step = (s.pkg p).step))

/-! ### The machine as a whole -/

/-- R9: g0 reads as 0 and m0 as 0xFFFF, both always Full; a write of either leaves every register as it was, and neither changes its tag on a result, the issue or completion of a long operation, an open, a fill or a scrub; an instruction whose destination is g0 or m0 completes, traps nowhere and leaves every register as it was. -/
def Obligations.ConstantRegisters : Prop :=
  (∀ r : Regs, r.getG 0 = Reg.full 0 ∧ r.getM 0 = Reg.full 0xFFFF ∧ r.tag (.g 0) = .full ∧ r.tag (.m 0) = .full
    ∧ (∀ x, r.setG 0 x = r) ∧ (∀ x, r.setM 0 x = r) ∧ (∀ t, r.retag t (.g 0) = r ∧ r.retag t (.m 0) = r) ∧ ∀ x m, r.put (.g 0) x m = r ∧ r.put (.m 0) x m = r)
  ∧ Regs.init.tag (.g 0) = .full ∧ Regs.init.tag (.m 0) = .full
  ∧ ∀ (s : State) (a b : Fin 32) (j k : Fin 8), s.cur.slot < 16 → ∀ i ∈ [Instr.add 0 a b, .mul 0 a b, .mand 0 j k, .mxor 0 j k],
      ∃ t, exec i s = .next t ∧ t.me.regs = s.me.regs ∧ t.cur.status = s.cur.status ∧ t.me.pc = s.me.pc

/-- R14: a vector result written under a mask replaces only the lanes whose mask bit is 1; the other lanes become 0 when the destination was Void and keep their values otherwise, and the register becomes Full; every other register, slot and byte is as before. -/
def Obligations.MaskedVectorWrites : Prop :=
  ∀ (s : State) (d : Fin 16) (k : Fin 8) (x : VWord), s.cur.slot < 16 →
    let t := s.putVMasked d k x
    let old := s.cur.regs.getV d
    (∀ l < 16, ((t.me.regs.getV d).val.extractLsb' (32 * l) 32) = (if (s.mval k).getLsbD l then x.extractLsb' (32 * l) 32
        else if old.tag = .void then 0 else old.val.extractLsb' (32 * l) 32))
    ∧ (t.me.regs.getV d).tag = .full ∧ OnlyRegs s t [.v d]

/-- R154: txa discards the transaction's buffer, releases T in the registry, restores the saved cr.snap and clears TX, all in its issue cycle; it changes nothing else, but that a launch unit whose round a full registry held back begins its round anew (R367). -/
def Obligations.TransactionAbort : Prop :=
  ∀ (s : State) (tx : Tx), s.cur.slot < 16 → s.primaryOf s.cur.core = none → s.me.tx = some tx →
    ∃ t, exec .txa s = .next t ∧ t.now = s.now ∧ t.cur.status = s.cur.status
      ∧ t.me = { s.me with tx := none, snap := tx.savedSnap, snapThread := false, st := { s.me.st with tx := false } }
      ∧ (t.pkg (pkgOf s.cur.core)).registry = (s.pkg (pkgOf s.cur.core)).registry.filter (fun e => e.owner ≠ .txn s.meRef)
      ∧ (∀ p, { t.pkg p with registry := (s.pkg p).registry } = s.pkg p)
      ∧ (∀ d, { t.die d with round := (s.die d).round } = s.die d) ∧ (∀ p ∈ s.agenda, p ∈ t.agenda)
      ∧ (∀ d, (t.die d).round = (s.die d).round ∨ ((t.die d).round = none ∧ ∃ r, (s.die d).round = some r ∧ pkgOf s.cur.core ∈ r.full))
      ∧ OnlyMySlot s { t with pkgs := s.pkgs, dies := s.dies, agenda := s.agenda, fresh := s.fresh }

/-- R17, R402: what reset leaves: in every slot of every core the control registers of R17 read the values that it gives, in user mode with interrupts enabled, g1–g31, v0–v15 and m1–m7 Void; package 0 runs at cycle 0 with every other package in reset (the model's choice, log 6), no launch lives, every byte of memory reads 0 and every sector has the version of time 0. -/
def Obligations.ResetState : Prop :=
  let s := State.reset
  (∀ (c : CoreKey) (i : Nat), i < 16 →
    let r := { s with cur := { Cur.init with core := c, slot := i } }
    (∀ e ∈ [(0x002, (0 : Word)), (0x003, 0), (0x008, 2), (0x010, 0), (0x011, 0), (0x012, 0), (0x013, 0), (0x015, 0), (0x020, 0), (0x021, 0), (0x022, 384), (0x023, 0), (0x024, 0), (0x030, 0)
      , (0x040, 0x100000), (0x041, 0), (0x051, 2048), (0x100, 0)], r.readCR e.1 = e.2)
    ∧ (s.slot c i).occ = .free
    ∧ (∀ g : Fin 32, ((s.slot c i).regs.getG g).tag = (if g = 0 then .full else .void)) ∧ (∀ v, ((s.slot c i).regs.getV v).tag = .void)
    ∧ (∀ m : Fin 8, ((s.slot c i).regs.getM m).tag = (if m = 0 then .full else .void)))
  ∧ (s.pkg 0).released = true ∧ (∀ p, p ≠ 0 → (s.pkg p).released = false) ∧ s.cycle = 0 ∧ s.launches = []
  ∧ (∀ a, Memory.get s.mem a = 0) ∧ (∀ a, (s.sector a).wts = 0) ∧ (∀ a, s.line a = .none) ∧ Memory.wf s.mem = true

/-- R17, R23, R53, R55, R218: a step of the issue phase runs the decoded instruction. When nothing else is due, slot i of core c is the next to be examined, its doubleword d stands in the instruction cache, the word at its PC decodes (with its P bit 0) to an instruction legal in its mode, its operands are ready and its engines have room, the step is exec of that instruction on the latch, the PC already at the next bundle, 8 cycles to the thread's next issue and H taken from the word; when d is a legal pair, it is exec of the C word and then of the A word, both reading the registers of the latch. A fault or refusal of exec is the step's. -/
def Obligations.StepRunsDecoded : Prop :=
  ∀ (s : State) (c j i : Nat) (d : BitVec 64) (s1 : State),
    let s0 := if c = s.scanCore then s else { s.endSearch s.scanCore with scanCore := c, scanOff := 0, scanIssued := none }
    let sl := s0.slot c i
    let pc := sl.pc
    let w0 : BitVec 32 := d.setWidth 32
    let w1 : BitVec 32 := (d >>> 32).setWidth 32
    s.phase = 1 → s.dueResume = none → s.dueEvent = none → s.forced = [] → s.nextCore = some (c, j, i) → i < 16 →
    s0.scanIssued = none → (s0.core c).reservedCycle ≠ some s.cycle → sl.stopping = false → sl.st.role = .independent → s0.takeInterrupt c i pc = none →
    s0.fetch c i = .word d s1 → (s1.core c).mirror = none → (s1.slot c i).st.role = .independent →
    let after (q : State) : State := { (q.clearWaits c i) with scanCore := c, scanOff := j + 1, scanIssued := some i }
    let latched (x : Instr) (a : Option Instr) : State := (s1.latch c i pc d x a).modSlot c i (fun sl => { sl with openSince := none })
    let pre (x : Instr) (a : Option Instr) : State := (latched x a).modSlot c i (fun sl => sl.begin_ (latched x a).cur s.cycle)
    (∀ x, decodeInstr ((if pc.getLsbD 2 then w1 else w0).toNat % 2 ^ 30) = some x → modeIllegal sl.st.sup x = false → ((if pc.getLsbD 2 then w1 else w0).getLsbD 31) = false →
      (pc.getLsbD 2 = true → sl.byBranch = true → w0.getLsbD 31 = false) → (s1.core c).hasRoom x = true → s1.judge c i [(x, if pc.getLsbD 2 then 1 else 0)] = .ready →
      (∀ r, exec x (pre x none) = .next r → (r.core c).mirror = none →
        (r.cur.status = .run ∨ r.cur.status = .blocked → step s = .next (after { r with cur := { (latched x none).cur with status := r.cur.status } }))
        ∧ (r.cur.status = .trapped → step s = .next (after r)))
      ∧ (∀ f, exec x (pre x none) = .fault f → step s = .fault f) ∧ (∀ f, exec x (pre x none) = .refused f → step s = .refused f)
      ∧ (pre x none).cur.instr = x ∧ (pre x none).cur.regs = (s1.slot c i).regs ∧ ((pre x none).slot c i).pc = pc + 4 ∧ ((pre x none).slot c i).readyAt = max (s1.slot c i).readyAt (s.cycle + 8)
      ∧ ((pre x none).slot c i).hold = (if pc.getLsbD 2 then w1 else w0).getLsbD 30)
    ∧ (∀ x a, checkBundle pc sl.byBranch sl.st.sup d = .pair x a → (s1.core c).hasRoom x = true → (s1.core c).hasRoom a = true → s1.judge c i [(x, 0), (a, 1)] = .ready →
      (∀ r q, exec x (pre x (some a)) = .next r → r.cur.status = .run → exec a { r with cur := { r.cur with instr := a, aword := none, word := 1, status := .run } } = .next q →
        q.cur.status = .run → (q.core c).mirror = none → step s = .next (after { q with cur := (latched x (some a)).cur }))
      ∧ ((pre x (some a)).slot c i).pc = pc + 8 ∧ (pre x (some a)).cur.regs = (s1.slot c i).regs)
    ∧ (∀ x a, pc.getLsbD 2 = false → w0.getLsbD 31 = true → w0.getLsbD 29 = false → w1.getLsbD 29 = true → w1.getLsbD 31 = false → x.mayPair = true →
      decodeInstr (w0.toNat % 2 ^ 30) = some x → decodeInstr (w1.toNat % 2 ^ 30) = some a → modeIllegal sl.st.sup x = false → modeIllegal sl.st.sup a = false → sameDest x a = false →
      checkBundle pc sl.byBranch sl.st.sup d = .pair x a)

/-- The rest of a step: an event that is due is taken up and is exec of its constructor on the state without it; when nothing is due and no slot is left to examine, time passes to the next phase (the model's order of the work of a cycle, log 1). -/
def Obligations.StepTakesUpEvents : Prop :=
  ∀ s : State, s.dueResume = none →
    (∀ p rest, s.agenda = p :: rest → p.due ≤ s.now → step s = exec p.ev { s with agenda := rest })
    ∧ (s.dueEvent = none → s.dueForced = none → (s.phase ≠ 1 ∨ s.nextCore = none) → step s = .next s.advance)

/-- Every step keeps the memory's canonical form: strictly rising addresses, and no listed byte that reads as an unlisted one. -/
def Obligations.StepKeepsMemoryForm : Prop :=
  ∀ s t : State, Memory.wf s.mem = true → step s = .next t → Memory.wf t.mem = true

/-- R52, R55–R61: the words of the spec's encodings decode to the instructions they stand for, and words with a reserved field, a reserved code or an unassigned major are refused. -/
def Obligations.DecodeSamples : Prop :=
  decode 0x2114C700 = some { pair := false, hold := false, instr := .mul 5 6 7 } ∧ decode 0x0294C004 = some { pair := false, hold := false, instr := .ldW 5 6 4 }
  ∧ decode 0xA114C700 = none ∧ decode 0x4294C004 = some { pair := false, hold := true, instr := .ldW 5 6 4 }
  ∧ decode 0x0C800003 = some { pair := false, hold := false, instr := .hret } ∧ decode 0x8C800003 = none
  ∧ decode 0x2394D03F = some { pair := false, hold := false, instr := .srai 5 6 63 } ∧ decode 0x2394D07F = none ∧ decode 0 = none ∧ decode 0x1FFFFFFF = none

/-- R52, R55–R61: decoding and encoding agree on every instruction and every word: a well-formed instruction with its P and H bits encodes to a 32-bit word that decodes to it, and a word that decodes is the encoding of what it decodes to. -/
def Obligations.DecodeEncodeAgree : Prop :=
  (∀ (b : Bundled) (w : Nat), b.instr.wf = true → (b.pair = true → b.instr.mayPair = true) → encode b = some w → w < 2 ^ 32 ∧ decode w = some b)
  ∧ ∀ (w : Nat) (b : Bundled), w < 2 ^ 32 → decode w = some b → encode b = some w ∧ b.instr.wf = true
end

