-- ==== Sys2Proof/Laws/State.lean ====
section
/-! SUPPORT. What each update of State leaves as it was, field by field, and what it changes: the lemmas that later proofs cite instead of unfolding an update. -/

namespace Sys2Proof.Machine

open Sys2Proof

/-! ### Fields that an update does not touch -/

@[simp] theorem State.modPkg_now (s : State) (p : PkgKey) (f : Package → Package) : (s.modPkg p f).now = s.now := rfl
@[simp] theorem State.modPkg_scanCore (s : State) (p : PkgKey) (f : Package → Package) : (s.modPkg p f).scanCore = s.scanCore := rfl
@[simp] theorem State.modPkg_scanOff (s : State) (p : PkgKey) (f : Package → Package) : (s.modPkg p f).scanOff = s.scanOff := rfl
@[simp] theorem State.modPkg_scanIssued (s : State) (p : PkgKey) (f : Package → Package) : (s.modPkg p f).scanIssued = s.scanIssued := rfl
@[simp] theorem State.modPkg_forced (s : State) (p : PkgKey) (f : Package → Package) : (s.modPkg p f).forced = s.forced := rfl
@[simp] theorem State.modPkg_agenda (s : State) (p : PkgKey) (f : Package → Package) : (s.modPkg p f).agenda = s.agenda := rfl
@[simp] theorem State.modPkg_resumes (s : State) (p : PkgKey) (f : Package → Package) : (s.modPkg p f).resumes = s.resumes := rfl
@[simp] theorem State.modPkg_cur (s : State) (p : PkgKey) (f : Package → Package) : (s.modPkg p f).cur = s.cur := rfl
@[simp] theorem State.modPkg_fresh (s : State) (p : PkgKey) (f : Package → Package) : (s.modPkg p f).fresh = s.fresh := rfl
@[simp] theorem State.modPkg_free (s : State) (p : PkgKey) (f : Package → Package) : (s.modPkg p f).free = s.free := rfl
@[simp] theorem State.modPkg_cores (s : State) (p : PkgKey) (f : Package → Package) : (s.modPkg p f).cores = s.cores := rfl
@[simp] theorem State.modPkg_clusters (s : State) (p : PkgKey) (f : Package → Package) : (s.modPkg p f).clusters = s.clusters := rfl
@[simp] theorem State.modPkg_dies (s : State) (p : PkgKey) (f : Package → Package) : (s.modPkg p f).dies = s.dies := rfl
@[simp] theorem State.modPkg_mem (s : State) (p : PkgKey) (f : Package → Package) : (s.modPkg p f).mem = s.mem := rfl
@[simp] theorem State.modPkg_sectors (s : State) (p : PkgKey) (f : Package → Package) : (s.modPkg p f).sectors = s.sectors := rfl
@[simp] theorem State.modPkg_lines (s : State) (p : PkgKey) (f : Package → Package) : (s.modPkg p f).lines = s.lines := rfl
@[simp] theorem State.modPkg_barriers (s : State) (p : PkgKey) (f : Package → Package) : (s.modPkg p f).barriers = s.barriers := rfl
@[simp] theorem State.modPkg_launches (s : State) (p : PkgKey) (f : Package → Package) : (s.modPkg p f).launches = s.launches := rfl
@[simp] theorem State.modPkg_shootdowns (s : State) (p : PkgKey) (f : Package → Package) : (s.modPkg p f).shootdowns = s.shootdowns := rfl
@[simp] theorem State.modPkg_crDamage (s : State) (p : PkgKey) (f : Package → Package) : (s.modPkg p f).crDamage = s.crDamage := rfl
@[simp] theorem State.modPkg_crWrites (s : State) (p : PkgKey) (f : Package → Package) : (s.modPkg p f).crWrites = s.crWrites := rfl
@[simp] theorem State.modPkg_late (s : State) (p : PkgKey) (f : Package → Package) : (s.modPkg p f).late = s.late := rfl
@[simp] theorem State.modPkg_ticks (s : State) (p : PkgKey) (f : Package → Package) : (s.modPkg p f).ticks = s.ticks := rfl

@[simp] theorem State.modDie_now (s : State) (d : DieKey) (f : Die → Die) : (s.modDie d f).now = s.now := rfl
@[simp] theorem State.modDie_scanCore (s : State) (d : DieKey) (f : Die → Die) : (s.modDie d f).scanCore = s.scanCore := rfl
@[simp] theorem State.modDie_scanOff (s : State) (d : DieKey) (f : Die → Die) : (s.modDie d f).scanOff = s.scanOff := rfl
@[simp] theorem State.modDie_scanIssued (s : State) (d : DieKey) (f : Die → Die) : (s.modDie d f).scanIssued = s.scanIssued := rfl
@[simp] theorem State.modDie_forced (s : State) (d : DieKey) (f : Die → Die) : (s.modDie d f).forced = s.forced := rfl
@[simp] theorem State.modDie_agenda (s : State) (d : DieKey) (f : Die → Die) : (s.modDie d f).agenda = s.agenda := rfl
@[simp] theorem State.modDie_resumes (s : State) (d : DieKey) (f : Die → Die) : (s.modDie d f).resumes = s.resumes := rfl
@[simp] theorem State.modDie_cur (s : State) (d : DieKey) (f : Die → Die) : (s.modDie d f).cur = s.cur := rfl
@[simp] theorem State.modDie_fresh (s : State) (d : DieKey) (f : Die → Die) : (s.modDie d f).fresh = s.fresh := rfl
@[simp] theorem State.modDie_free (s : State) (d : DieKey) (f : Die → Die) : (s.modDie d f).free = s.free := rfl
@[simp] theorem State.modDie_cores (s : State) (d : DieKey) (f : Die → Die) : (s.modDie d f).cores = s.cores := rfl
@[simp] theorem State.modDie_clusters (s : State) (d : DieKey) (f : Die → Die) : (s.modDie d f).clusters = s.clusters := rfl
@[simp] theorem State.modDie_pkgs (s : State) (d : DieKey) (f : Die → Die) : (s.modDie d f).pkgs = s.pkgs := rfl
@[simp] theorem State.modDie_mem (s : State) (d : DieKey) (f : Die → Die) : (s.modDie d f).mem = s.mem := rfl
@[simp] theorem State.modDie_sectors (s : State) (d : DieKey) (f : Die → Die) : (s.modDie d f).sectors = s.sectors := rfl
@[simp] theorem State.modDie_lines (s : State) (d : DieKey) (f : Die → Die) : (s.modDie d f).lines = s.lines := rfl
@[simp] theorem State.modDie_barriers (s : State) (d : DieKey) (f : Die → Die) : (s.modDie d f).barriers = s.barriers := rfl
@[simp] theorem State.modDie_launches (s : State) (d : DieKey) (f : Die → Die) : (s.modDie d f).launches = s.launches := rfl
@[simp] theorem State.modDie_shootdowns (s : State) (d : DieKey) (f : Die → Die) : (s.modDie d f).shootdowns = s.shootdowns := rfl
@[simp] theorem State.modDie_crDamage (s : State) (d : DieKey) (f : Die → Die) : (s.modDie d f).crDamage = s.crDamage := rfl
@[simp] theorem State.modDie_crWrites (s : State) (d : DieKey) (f : Die → Die) : (s.modDie d f).crWrites = s.crWrites := rfl
@[simp] theorem State.modDie_late (s : State) (d : DieKey) (f : Die → Die) : (s.modDie d f).late = s.late := rfl
@[simp] theorem State.modDie_ticks (s : State) (d : DieKey) (f : Die → Die) : (s.modDie d f).ticks = s.ticks := rfl

@[simp] theorem State.modClu_now (s : State) (k : ClusterKey) (f : Cluster → Cluster) : (s.modClu k f).now = s.now := rfl
@[simp] theorem State.modClu_scanCore (s : State) (k : ClusterKey) (f : Cluster → Cluster) : (s.modClu k f).scanCore = s.scanCore := rfl
@[simp] theorem State.modClu_scanOff (s : State) (k : ClusterKey) (f : Cluster → Cluster) : (s.modClu k f).scanOff = s.scanOff := rfl
@[simp] theorem State.modClu_scanIssued (s : State) (k : ClusterKey) (f : Cluster → Cluster) : (s.modClu k f).scanIssued = s.scanIssued := rfl
@[simp] theorem State.modClu_forced (s : State) (k : ClusterKey) (f : Cluster → Cluster) : (s.modClu k f).forced = s.forced := rfl
@[simp] theorem State.modClu_agenda (s : State) (k : ClusterKey) (f : Cluster → Cluster) : (s.modClu k f).agenda = s.agenda := rfl
@[simp] theorem State.modClu_resumes (s : State) (k : ClusterKey) (f : Cluster → Cluster) : (s.modClu k f).resumes = s.resumes := rfl
@[simp] theorem State.modClu_cur (s : State) (k : ClusterKey) (f : Cluster → Cluster) : (s.modClu k f).cur = s.cur := rfl
@[simp] theorem State.modClu_fresh (s : State) (k : ClusterKey) (f : Cluster → Cluster) : (s.modClu k f).fresh = s.fresh := rfl
@[simp] theorem State.modClu_free (s : State) (k : ClusterKey) (f : Cluster → Cluster) : (s.modClu k f).free = s.free := rfl
@[simp] theorem State.modClu_cores (s : State) (k : ClusterKey) (f : Cluster → Cluster) : (s.modClu k f).cores = s.cores := rfl
@[simp] theorem State.modClu_dies (s : State) (k : ClusterKey) (f : Cluster → Cluster) : (s.modClu k f).dies = s.dies := rfl
@[simp] theorem State.modClu_pkgs (s : State) (k : ClusterKey) (f : Cluster → Cluster) : (s.modClu k f).pkgs = s.pkgs := rfl
@[simp] theorem State.modClu_mem (s : State) (k : ClusterKey) (f : Cluster → Cluster) : (s.modClu k f).mem = s.mem := rfl
@[simp] theorem State.modClu_sectors (s : State) (k : ClusterKey) (f : Cluster → Cluster) : (s.modClu k f).sectors = s.sectors := rfl
@[simp] theorem State.modClu_lines (s : State) (k : ClusterKey) (f : Cluster → Cluster) : (s.modClu k f).lines = s.lines := rfl
@[simp] theorem State.modClu_barriers (s : State) (k : ClusterKey) (f : Cluster → Cluster) : (s.modClu k f).barriers = s.barriers := rfl
@[simp] theorem State.modClu_launches (s : State) (k : ClusterKey) (f : Cluster → Cluster) : (s.modClu k f).launches = s.launches := rfl
@[simp] theorem State.modClu_shootdowns (s : State) (k : ClusterKey) (f : Cluster → Cluster) : (s.modClu k f).shootdowns = s.shootdowns := rfl
@[simp] theorem State.modClu_crDamage (s : State) (k : ClusterKey) (f : Cluster → Cluster) : (s.modClu k f).crDamage = s.crDamage := rfl
@[simp] theorem State.modClu_crWrites (s : State) (k : ClusterKey) (f : Cluster → Cluster) : (s.modClu k f).crWrites = s.crWrites := rfl
@[simp] theorem State.modClu_late (s : State) (k : ClusterKey) (f : Cluster → Cluster) : (s.modClu k f).late = s.late := rfl
@[simp] theorem State.modClu_ticks (s : State) (k : ClusterKey) (f : Cluster → Cluster) : (s.modClu k f).ticks = s.ticks := rfl

@[simp] theorem State.modCore_now (s : State) (c : CoreKey) (f : Core → Core) : (s.modCore c f).now = s.now := rfl
@[simp] theorem State.modCore_scanCore (s : State) (c : CoreKey) (f : Core → Core) : (s.modCore c f).scanCore = s.scanCore := rfl
@[simp] theorem State.modCore_scanOff (s : State) (c : CoreKey) (f : Core → Core) : (s.modCore c f).scanOff = s.scanOff := rfl
@[simp] theorem State.modCore_scanIssued (s : State) (c : CoreKey) (f : Core → Core) : (s.modCore c f).scanIssued = s.scanIssued := rfl
@[simp] theorem State.modCore_forced (s : State) (c : CoreKey) (f : Core → Core) : (s.modCore c f).forced = s.forced := rfl
@[simp] theorem State.modCore_agenda (s : State) (c : CoreKey) (f : Core → Core) : (s.modCore c f).agenda = s.agenda := rfl
@[simp] theorem State.modCore_resumes (s : State) (c : CoreKey) (f : Core → Core) : (s.modCore c f).resumes = s.resumes := rfl
@[simp] theorem State.modCore_cur (s : State) (c : CoreKey) (f : Core → Core) : (s.modCore c f).cur = s.cur := rfl
@[simp] theorem State.modCore_fresh (s : State) (c : CoreKey) (f : Core → Core) : (s.modCore c f).fresh = s.fresh := rfl
@[simp] theorem State.modCore_free (s : State) (c : CoreKey) (f : Core → Core) : (s.modCore c f).free = s.free := rfl
@[simp] theorem State.modCore_clusters (s : State) (c : CoreKey) (f : Core → Core) : (s.modCore c f).clusters = s.clusters := rfl
@[simp] theorem State.modCore_dies (s : State) (c : CoreKey) (f : Core → Core) : (s.modCore c f).dies = s.dies := rfl
@[simp] theorem State.modCore_pkgs (s : State) (c : CoreKey) (f : Core → Core) : (s.modCore c f).pkgs = s.pkgs := rfl
@[simp] theorem State.modCore_mem (s : State) (c : CoreKey) (f : Core → Core) : (s.modCore c f).mem = s.mem := rfl
@[simp] theorem State.modCore_sectors (s : State) (c : CoreKey) (f : Core → Core) : (s.modCore c f).sectors = s.sectors := rfl
@[simp] theorem State.modCore_lines (s : State) (c : CoreKey) (f : Core → Core) : (s.modCore c f).lines = s.lines := rfl
@[simp] theorem State.modCore_barriers (s : State) (c : CoreKey) (f : Core → Core) : (s.modCore c f).barriers = s.barriers := rfl
@[simp] theorem State.modCore_launches (s : State) (c : CoreKey) (f : Core → Core) : (s.modCore c f).launches = s.launches := rfl
@[simp] theorem State.modCore_shootdowns (s : State) (c : CoreKey) (f : Core → Core) : (s.modCore c f).shootdowns = s.shootdowns := rfl
@[simp] theorem State.modCore_crDamage (s : State) (c : CoreKey) (f : Core → Core) : (s.modCore c f).crDamage = s.crDamage := rfl
@[simp] theorem State.modCore_crWrites (s : State) (c : CoreKey) (f : Core → Core) : (s.modCore c f).crWrites = s.crWrites := rfl
@[simp] theorem State.modCore_late (s : State) (c : CoreKey) (f : Core → Core) : (s.modCore c f).late = s.late := rfl
@[simp] theorem State.modCore_ticks (s : State) (c : CoreKey) (f : Core → Core) : (s.modCore c f).ticks = s.ticks := rfl

@[simp] theorem State.modSlot_now (s : State) (c : CoreKey) (i : Nat) (f : Slot → Slot) : (s.modSlot c i f).now = s.now := rfl
@[simp] theorem State.modSlot_scanCore (s : State) (c : CoreKey) (i : Nat) (f : Slot → Slot) : (s.modSlot c i f).scanCore = s.scanCore := rfl
@[simp] theorem State.modSlot_scanOff (s : State) (c : CoreKey) (i : Nat) (f : Slot → Slot) : (s.modSlot c i f).scanOff = s.scanOff := rfl
@[simp] theorem State.modSlot_scanIssued (s : State) (c : CoreKey) (i : Nat) (f : Slot → Slot) : (s.modSlot c i f).scanIssued = s.scanIssued := rfl
@[simp] theorem State.modSlot_forced (s : State) (c : CoreKey) (i : Nat) (f : Slot → Slot) : (s.modSlot c i f).forced = s.forced := rfl
@[simp] theorem State.modSlot_agenda (s : State) (c : CoreKey) (i : Nat) (f : Slot → Slot) : (s.modSlot c i f).agenda = s.agenda := rfl
@[simp] theorem State.modSlot_resumes (s : State) (c : CoreKey) (i : Nat) (f : Slot → Slot) : (s.modSlot c i f).resumes = s.resumes := rfl
@[simp] theorem State.modSlot_cur (s : State) (c : CoreKey) (i : Nat) (f : Slot → Slot) : (s.modSlot c i f).cur = s.cur := rfl
@[simp] theorem State.modSlot_fresh (s : State) (c : CoreKey) (i : Nat) (f : Slot → Slot) : (s.modSlot c i f).fresh = s.fresh := rfl
@[simp] theorem State.modSlot_free (s : State) (c : CoreKey) (i : Nat) (f : Slot → Slot) : (s.modSlot c i f).free = s.free := rfl
@[simp] theorem State.modSlot_clusters (s : State) (c : CoreKey) (i : Nat) (f : Slot → Slot) : (s.modSlot c i f).clusters = s.clusters := rfl
@[simp] theorem State.modSlot_dies (s : State) (c : CoreKey) (i : Nat) (f : Slot → Slot) : (s.modSlot c i f).dies = s.dies := rfl
@[simp] theorem State.modSlot_pkgs (s : State) (c : CoreKey) (i : Nat) (f : Slot → Slot) : (s.modSlot c i f).pkgs = s.pkgs := rfl
@[simp] theorem State.modSlot_mem (s : State) (c : CoreKey) (i : Nat) (f : Slot → Slot) : (s.modSlot c i f).mem = s.mem := rfl
@[simp] theorem State.modSlot_sectors (s : State) (c : CoreKey) (i : Nat) (f : Slot → Slot) : (s.modSlot c i f).sectors = s.sectors := rfl
@[simp] theorem State.modSlot_lines (s : State) (c : CoreKey) (i : Nat) (f : Slot → Slot) : (s.modSlot c i f).lines = s.lines := rfl
@[simp] theorem State.modSlot_barriers (s : State) (c : CoreKey) (i : Nat) (f : Slot → Slot) : (s.modSlot c i f).barriers = s.barriers := rfl
@[simp] theorem State.modSlot_launches (s : State) (c : CoreKey) (i : Nat) (f : Slot → Slot) : (s.modSlot c i f).launches = s.launches := rfl
@[simp] theorem State.modSlot_shootdowns (s : State) (c : CoreKey) (i : Nat) (f : Slot → Slot) : (s.modSlot c i f).shootdowns = s.shootdowns := rfl
@[simp] theorem State.modSlot_crDamage (s : State) (c : CoreKey) (i : Nat) (f : Slot → Slot) : (s.modSlot c i f).crDamage = s.crDamage := rfl
@[simp] theorem State.modSlot_crWrites (s : State) (c : CoreKey) (i : Nat) (f : Slot → Slot) : (s.modSlot c i f).crWrites = s.crWrites := rfl
@[simp] theorem State.modSlot_late (s : State) (c : CoreKey) (i : Nat) (f : Slot → Slot) : (s.modSlot c i f).late = s.late := rfl
@[simp] theorem State.modSlot_ticks (s : State) (c : CoreKey) (i : Nat) (f : Slot → Slot) : (s.modSlot c i f).ticks = s.ticks := rfl

@[simp] theorem State.modMe_now (s : State) (f : Slot → Slot) : (s.modMe f).now = s.now := rfl
@[simp] theorem State.modMe_scanCore (s : State) (f : Slot → Slot) : (s.modMe f).scanCore = s.scanCore := rfl
@[simp] theorem State.modMe_scanOff (s : State) (f : Slot → Slot) : (s.modMe f).scanOff = s.scanOff := rfl
@[simp] theorem State.modMe_scanIssued (s : State) (f : Slot → Slot) : (s.modMe f).scanIssued = s.scanIssued := rfl
@[simp] theorem State.modMe_forced (s : State) (f : Slot → Slot) : (s.modMe f).forced = s.forced := rfl
@[simp] theorem State.modMe_agenda (s : State) (f : Slot → Slot) : (s.modMe f).agenda = s.agenda := rfl
@[simp] theorem State.modMe_resumes (s : State) (f : Slot → Slot) : (s.modMe f).resumes = s.resumes := rfl
@[simp] theorem State.modMe_cur (s : State) (f : Slot → Slot) : (s.modMe f).cur = s.cur := rfl
@[simp] theorem State.modMe_fresh (s : State) (f : Slot → Slot) : (s.modMe f).fresh = s.fresh := rfl
@[simp] theorem State.modMe_free (s : State) (f : Slot → Slot) : (s.modMe f).free = s.free := rfl
@[simp] theorem State.modMe_clusters (s : State) (f : Slot → Slot) : (s.modMe f).clusters = s.clusters := rfl
@[simp] theorem State.modMe_dies (s : State) (f : Slot → Slot) : (s.modMe f).dies = s.dies := rfl
@[simp] theorem State.modMe_pkgs (s : State) (f : Slot → Slot) : (s.modMe f).pkgs = s.pkgs := rfl
@[simp] theorem State.modMe_mem (s : State) (f : Slot → Slot) : (s.modMe f).mem = s.mem := rfl
@[simp] theorem State.modMe_sectors (s : State) (f : Slot → Slot) : (s.modMe f).sectors = s.sectors := rfl
@[simp] theorem State.modMe_lines (s : State) (f : Slot → Slot) : (s.modMe f).lines = s.lines := rfl
@[simp] theorem State.modMe_barriers (s : State) (f : Slot → Slot) : (s.modMe f).barriers = s.barriers := rfl
@[simp] theorem State.modMe_launches (s : State) (f : Slot → Slot) : (s.modMe f).launches = s.launches := rfl
@[simp] theorem State.modMe_shootdowns (s : State) (f : Slot → Slot) : (s.modMe f).shootdowns = s.shootdowns := rfl
@[simp] theorem State.modMe_crDamage (s : State) (f : Slot → Slot) : (s.modMe f).crDamage = s.crDamage := rfl
@[simp] theorem State.modMe_crWrites (s : State) (f : Slot → Slot) : (s.modMe f).crWrites = s.crWrites := rfl
@[simp] theorem State.modMe_late (s : State) (f : Slot → Slot) : (s.modMe f).late = s.late := rfl
@[simp] theorem State.modMe_ticks (s : State) (f : Slot → Slot) : (s.modMe f).ticks = s.ticks := rfl

@[simp] theorem State.modRook_now (s : State) (r : RookKey) (f : Rook → Rook) : (s.modRook r f).now = s.now := rfl
@[simp] theorem State.modRook_scanCore (s : State) (r : RookKey) (f : Rook → Rook) : (s.modRook r f).scanCore = s.scanCore := rfl
@[simp] theorem State.modRook_scanOff (s : State) (r : RookKey) (f : Rook → Rook) : (s.modRook r f).scanOff = s.scanOff := rfl
@[simp] theorem State.modRook_scanIssued (s : State) (r : RookKey) (f : Rook → Rook) : (s.modRook r f).scanIssued = s.scanIssued := rfl
@[simp] theorem State.modRook_forced (s : State) (r : RookKey) (f : Rook → Rook) : (s.modRook r f).forced = s.forced := rfl
@[simp] theorem State.modRook_agenda (s : State) (r : RookKey) (f : Rook → Rook) : (s.modRook r f).agenda = s.agenda := rfl
@[simp] theorem State.modRook_resumes (s : State) (r : RookKey) (f : Rook → Rook) : (s.modRook r f).resumes = s.resumes := rfl
@[simp] theorem State.modRook_cur (s : State) (r : RookKey) (f : Rook → Rook) : (s.modRook r f).cur = s.cur := rfl
@[simp] theorem State.modRook_fresh (s : State) (r : RookKey) (f : Rook → Rook) : (s.modRook r f).fresh = s.fresh := rfl
@[simp] theorem State.modRook_free (s : State) (r : RookKey) (f : Rook → Rook) : (s.modRook r f).free = s.free := rfl
@[simp] theorem State.modRook_cores (s : State) (r : RookKey) (f : Rook → Rook) : (s.modRook r f).cores = s.cores := rfl
@[simp] theorem State.modRook_dies (s : State) (r : RookKey) (f : Rook → Rook) : (s.modRook r f).dies = s.dies := rfl
@[simp] theorem State.modRook_pkgs (s : State) (r : RookKey) (f : Rook → Rook) : (s.modRook r f).pkgs = s.pkgs := rfl
@[simp] theorem State.modRook_mem (s : State) (r : RookKey) (f : Rook → Rook) : (s.modRook r f).mem = s.mem := rfl
@[simp] theorem State.modRook_sectors (s : State) (r : RookKey) (f : Rook → Rook) : (s.modRook r f).sectors = s.sectors := rfl
@[simp] theorem State.modRook_lines (s : State) (r : RookKey) (f : Rook → Rook) : (s.modRook r f).lines = s.lines := rfl
@[simp] theorem State.modRook_barriers (s : State) (r : RookKey) (f : Rook → Rook) : (s.modRook r f).barriers = s.barriers := rfl
@[simp] theorem State.modRook_launches (s : State) (r : RookKey) (f : Rook → Rook) : (s.modRook r f).launches = s.launches := rfl
@[simp] theorem State.modRook_shootdowns (s : State) (r : RookKey) (f : Rook → Rook) : (s.modRook r f).shootdowns = s.shootdowns := rfl
@[simp] theorem State.modRook_crDamage (s : State) (r : RookKey) (f : Rook → Rook) : (s.modRook r f).crDamage = s.crDamage := rfl
@[simp] theorem State.modRook_crWrites (s : State) (r : RookKey) (f : Rook → Rook) : (s.modRook r f).crWrites = s.crWrites := rfl
@[simp] theorem State.modRook_late (s : State) (r : RookKey) (f : Rook → Rook) : (s.modRook r f).late = s.late := rfl
@[simp] theorem State.modRook_ticks (s : State) (r : RookKey) (f : Rook → Rook) : (s.modRook r f).ticks = s.ticks := rfl

@[simp] theorem State.modSector_now (s : State) (pa : PhysAddr) (f : Sector → Sector) : (s.modSector pa f).now = s.now := rfl
@[simp] theorem State.modSector_scanCore (s : State) (pa : PhysAddr) (f : Sector → Sector) : (s.modSector pa f).scanCore = s.scanCore := rfl
@[simp] theorem State.modSector_scanOff (s : State) (pa : PhysAddr) (f : Sector → Sector) : (s.modSector pa f).scanOff = s.scanOff := rfl
@[simp] theorem State.modSector_scanIssued (s : State) (pa : PhysAddr) (f : Sector → Sector) : (s.modSector pa f).scanIssued = s.scanIssued := rfl
@[simp] theorem State.modSector_forced (s : State) (pa : PhysAddr) (f : Sector → Sector) : (s.modSector pa f).forced = s.forced := rfl
@[simp] theorem State.modSector_agenda (s : State) (pa : PhysAddr) (f : Sector → Sector) : (s.modSector pa f).agenda = s.agenda := rfl
@[simp] theorem State.modSector_resumes (s : State) (pa : PhysAddr) (f : Sector → Sector) : (s.modSector pa f).resumes = s.resumes := rfl
@[simp] theorem State.modSector_cur (s : State) (pa : PhysAddr) (f : Sector → Sector) : (s.modSector pa f).cur = s.cur := rfl
@[simp] theorem State.modSector_fresh (s : State) (pa : PhysAddr) (f : Sector → Sector) : (s.modSector pa f).fresh = s.fresh := rfl
@[simp] theorem State.modSector_free (s : State) (pa : PhysAddr) (f : Sector → Sector) : (s.modSector pa f).free = s.free := rfl
@[simp] theorem State.modSector_cores (s : State) (pa : PhysAddr) (f : Sector → Sector) : (s.modSector pa f).cores = s.cores := rfl
@[simp] theorem State.modSector_clusters (s : State) (pa : PhysAddr) (f : Sector → Sector) : (s.modSector pa f).clusters = s.clusters := rfl
@[simp] theorem State.modSector_dies (s : State) (pa : PhysAddr) (f : Sector → Sector) : (s.modSector pa f).dies = s.dies := rfl
@[simp] theorem State.modSector_pkgs (s : State) (pa : PhysAddr) (f : Sector → Sector) : (s.modSector pa f).pkgs = s.pkgs := rfl
@[simp] theorem State.modSector_mem (s : State) (pa : PhysAddr) (f : Sector → Sector) : (s.modSector pa f).mem = s.mem := rfl
@[simp] theorem State.modSector_lines (s : State) (pa : PhysAddr) (f : Sector → Sector) : (s.modSector pa f).lines = s.lines := rfl
@[simp] theorem State.modSector_barriers (s : State) (pa : PhysAddr) (f : Sector → Sector) : (s.modSector pa f).barriers = s.barriers := rfl
@[simp] theorem State.modSector_launches (s : State) (pa : PhysAddr) (f : Sector → Sector) : (s.modSector pa f).launches = s.launches := rfl
@[simp] theorem State.modSector_shootdowns (s : State) (pa : PhysAddr) (f : Sector → Sector) : (s.modSector pa f).shootdowns = s.shootdowns := rfl
@[simp] theorem State.modSector_crDamage (s : State) (pa : PhysAddr) (f : Sector → Sector) : (s.modSector pa f).crDamage = s.crDamage := rfl
@[simp] theorem State.modSector_crWrites (s : State) (pa : PhysAddr) (f : Sector → Sector) : (s.modSector pa f).crWrites = s.crWrites := rfl
@[simp] theorem State.modSector_late (s : State) (pa : PhysAddr) (f : Sector → Sector) : (s.modSector pa f).late = s.late := rfl
@[simp] theorem State.modSector_ticks (s : State) (pa : PhysAddr) (f : Sector → Sector) : (s.modSector pa f).ticks = s.ticks := rfl

@[simp] theorem State.modLaunch_now (s : State) (n : Nat) (f : Launch → Launch) : (s.modLaunch n f).now = s.now := rfl
@[simp] theorem State.modLaunch_scanCore (s : State) (n : Nat) (f : Launch → Launch) : (s.modLaunch n f).scanCore = s.scanCore := rfl
@[simp] theorem State.modLaunch_scanOff (s : State) (n : Nat) (f : Launch → Launch) : (s.modLaunch n f).scanOff = s.scanOff := rfl
@[simp] theorem State.modLaunch_scanIssued (s : State) (n : Nat) (f : Launch → Launch) : (s.modLaunch n f).scanIssued = s.scanIssued := rfl
@[simp] theorem State.modLaunch_forced (s : State) (n : Nat) (f : Launch → Launch) : (s.modLaunch n f).forced = s.forced := rfl
@[simp] theorem State.modLaunch_agenda (s : State) (n : Nat) (f : Launch → Launch) : (s.modLaunch n f).agenda = s.agenda := rfl
@[simp] theorem State.modLaunch_resumes (s : State) (n : Nat) (f : Launch → Launch) : (s.modLaunch n f).resumes = s.resumes := rfl
@[simp] theorem State.modLaunch_cur (s : State) (n : Nat) (f : Launch → Launch) : (s.modLaunch n f).cur = s.cur := rfl
@[simp] theorem State.modLaunch_fresh (s : State) (n : Nat) (f : Launch → Launch) : (s.modLaunch n f).fresh = s.fresh := rfl
@[simp] theorem State.modLaunch_free (s : State) (n : Nat) (f : Launch → Launch) : (s.modLaunch n f).free = s.free := rfl
@[simp] theorem State.modLaunch_cores (s : State) (n : Nat) (f : Launch → Launch) : (s.modLaunch n f).cores = s.cores := rfl
@[simp] theorem State.modLaunch_clusters (s : State) (n : Nat) (f : Launch → Launch) : (s.modLaunch n f).clusters = s.clusters := rfl
@[simp] theorem State.modLaunch_dies (s : State) (n : Nat) (f : Launch → Launch) : (s.modLaunch n f).dies = s.dies := rfl
@[simp] theorem State.modLaunch_pkgs (s : State) (n : Nat) (f : Launch → Launch) : (s.modLaunch n f).pkgs = s.pkgs := rfl
@[simp] theorem State.modLaunch_mem (s : State) (n : Nat) (f : Launch → Launch) : (s.modLaunch n f).mem = s.mem := rfl
@[simp] theorem State.modLaunch_sectors (s : State) (n : Nat) (f : Launch → Launch) : (s.modLaunch n f).sectors = s.sectors := rfl
@[simp] theorem State.modLaunch_lines (s : State) (n : Nat) (f : Launch → Launch) : (s.modLaunch n f).lines = s.lines := rfl
@[simp] theorem State.modLaunch_barriers (s : State) (n : Nat) (f : Launch → Launch) : (s.modLaunch n f).barriers = s.barriers := rfl
@[simp] theorem State.modLaunch_shootdowns (s : State) (n : Nat) (f : Launch → Launch) : (s.modLaunch n f).shootdowns = s.shootdowns := rfl
@[simp] theorem State.modLaunch_crDamage (s : State) (n : Nat) (f : Launch → Launch) : (s.modLaunch n f).crDamage = s.crDamage := rfl
@[simp] theorem State.modLaunch_crWrites (s : State) (n : Nat) (f : Launch → Launch) : (s.modLaunch n f).crWrites = s.crWrites := rfl
@[simp] theorem State.modLaunch_late (s : State) (n : Nat) (f : Launch → Launch) : (s.modLaunch n f).late = s.late := rfl
@[simp] theorem State.modLaunch_ticks (s : State) (n : Nat) (f : Launch → Launch) : (s.modLaunch n f).ticks = s.ticks := rfl

@[simp] theorem State.post_now (s : State) (due rank : Nat) (ev : Instr) : (s.post due rank ev).now = s.now := rfl
@[simp] theorem State.post_scanCore (s : State) (due rank : Nat) (ev : Instr) : (s.post due rank ev).scanCore = s.scanCore := rfl
@[simp] theorem State.post_scanOff (s : State) (due rank : Nat) (ev : Instr) : (s.post due rank ev).scanOff = s.scanOff := rfl
@[simp] theorem State.post_scanIssued (s : State) (due rank : Nat) (ev : Instr) : (s.post due rank ev).scanIssued = s.scanIssued := rfl
@[simp] theorem State.post_forced (s : State) (due rank : Nat) (ev : Instr) : (s.post due rank ev).forced = s.forced := rfl
@[simp] theorem State.post_resumes (s : State) (due rank : Nat) (ev : Instr) : (s.post due rank ev).resumes = s.resumes := rfl
@[simp] theorem State.post_cur (s : State) (due rank : Nat) (ev : Instr) : (s.post due rank ev).cur = s.cur := rfl
@[simp] theorem State.post_free (s : State) (due rank : Nat) (ev : Instr) : (s.post due rank ev).free = s.free := rfl
@[simp] theorem State.post_cores (s : State) (due rank : Nat) (ev : Instr) : (s.post due rank ev).cores = s.cores := rfl
@[simp] theorem State.post_clusters (s : State) (due rank : Nat) (ev : Instr) : (s.post due rank ev).clusters = s.clusters := rfl
@[simp] theorem State.post_dies (s : State) (due rank : Nat) (ev : Instr) : (s.post due rank ev).dies = s.dies := rfl
@[simp] theorem State.post_pkgs (s : State) (due rank : Nat) (ev : Instr) : (s.post due rank ev).pkgs = s.pkgs := rfl
@[simp] theorem State.post_mem (s : State) (due rank : Nat) (ev : Instr) : (s.post due rank ev).mem = s.mem := rfl
@[simp] theorem State.post_sectors (s : State) (due rank : Nat) (ev : Instr) : (s.post due rank ev).sectors = s.sectors := rfl
@[simp] theorem State.post_lines (s : State) (due rank : Nat) (ev : Instr) : (s.post due rank ev).lines = s.lines := rfl
@[simp] theorem State.post_barriers (s : State) (due rank : Nat) (ev : Instr) : (s.post due rank ev).barriers = s.barriers := rfl
@[simp] theorem State.post_launches (s : State) (due rank : Nat) (ev : Instr) : (s.post due rank ev).launches = s.launches := rfl
@[simp] theorem State.post_shootdowns (s : State) (due rank : Nat) (ev : Instr) : (s.post due rank ev).shootdowns = s.shootdowns := rfl
@[simp] theorem State.post_crDamage (s : State) (due rank : Nat) (ev : Instr) : (s.post due rank ev).crDamage = s.crDamage := rfl
@[simp] theorem State.post_crWrites (s : State) (due rank : Nat) (ev : Instr) : (s.post due rank ev).crWrites = s.crWrites := rfl
@[simp] theorem State.post_late (s : State) (due rank : Nat) (ev : Instr) : (s.post due rank ev).late = s.late := rfl
@[simp] theorem State.post_ticks (s : State) (due rank : Nat) (ev : Instr) : (s.post due rank ev).ticks = s.ticks := rfl

@[simp] theorem State.send_now (s : State) (vc : Nat) (a b : ClusterKey) (due rank : Nat) (ev : Instr) : (s.send vc a b due rank ev).now = s.now := rfl
@[simp] theorem State.send_scanCore (s : State) (vc : Nat) (a b : ClusterKey) (due rank : Nat) (ev : Instr) : (s.send vc a b due rank ev).scanCore = s.scanCore := rfl
@[simp] theorem State.send_scanOff (s : State) (vc : Nat) (a b : ClusterKey) (due rank : Nat) (ev : Instr) : (s.send vc a b due rank ev).scanOff = s.scanOff := rfl
@[simp] theorem State.send_scanIssued (s : State) (vc : Nat) (a b : ClusterKey) (due rank : Nat) (ev : Instr) : (s.send vc a b due rank ev).scanIssued = s.scanIssued := rfl
@[simp] theorem State.send_forced (s : State) (vc : Nat) (a b : ClusterKey) (due rank : Nat) (ev : Instr) : (s.send vc a b due rank ev).forced = s.forced := rfl
@[simp] theorem State.send_resumes (s : State) (vc : Nat) (a b : ClusterKey) (due rank : Nat) (ev : Instr) : (s.send vc a b due rank ev).resumes = s.resumes := rfl
@[simp] theorem State.send_cur (s : State) (vc : Nat) (a b : ClusterKey) (due rank : Nat) (ev : Instr) : (s.send vc a b due rank ev).cur = s.cur := rfl
@[simp] theorem State.send_free (s : State) (vc : Nat) (a b : ClusterKey) (due rank : Nat) (ev : Instr) : (s.send vc a b due rank ev).free = s.free := rfl
@[simp] theorem State.send_cores (s : State) (vc : Nat) (a b : ClusterKey) (due rank : Nat) (ev : Instr) : (s.send vc a b due rank ev).cores = s.cores := rfl
@[simp] theorem State.send_clusters (s : State) (vc : Nat) (a b : ClusterKey) (due rank : Nat) (ev : Instr) : (s.send vc a b due rank ev).clusters = s.clusters := rfl
@[simp] theorem State.send_dies (s : State) (vc : Nat) (a b : ClusterKey) (due rank : Nat) (ev : Instr) : (s.send vc a b due rank ev).dies = s.dies := rfl
@[simp] theorem State.send_pkgs (s : State) (vc : Nat) (a b : ClusterKey) (due rank : Nat) (ev : Instr) : (s.send vc a b due rank ev).pkgs = s.pkgs := rfl
@[simp] theorem State.send_mem (s : State) (vc : Nat) (a b : ClusterKey) (due rank : Nat) (ev : Instr) : (s.send vc a b due rank ev).mem = s.mem := rfl
@[simp] theorem State.send_sectors (s : State) (vc : Nat) (a b : ClusterKey) (due rank : Nat) (ev : Instr) : (s.send vc a b due rank ev).sectors = s.sectors := rfl
@[simp] theorem State.send_lines (s : State) (vc : Nat) (a b : ClusterKey) (due rank : Nat) (ev : Instr) : (s.send vc a b due rank ev).lines = s.lines := rfl
@[simp] theorem State.send_barriers (s : State) (vc : Nat) (a b : ClusterKey) (due rank : Nat) (ev : Instr) : (s.send vc a b due rank ev).barriers = s.barriers := rfl
@[simp] theorem State.send_launches (s : State) (vc : Nat) (a b : ClusterKey) (due rank : Nat) (ev : Instr) : (s.send vc a b due rank ev).launches = s.launches := rfl
@[simp] theorem State.send_shootdowns (s : State) (vc : Nat) (a b : ClusterKey) (due rank : Nat) (ev : Instr) : (s.send vc a b due rank ev).shootdowns = s.shootdowns := rfl
@[simp] theorem State.send_crDamage (s : State) (vc : Nat) (a b : ClusterKey) (due rank : Nat) (ev : Instr) : (s.send vc a b due rank ev).crDamage = s.crDamage := rfl
@[simp] theorem State.send_crWrites (s : State) (vc : Nat) (a b : ClusterKey) (due rank : Nat) (ev : Instr) : (s.send vc a b due rank ev).crWrites = s.crWrites := rfl
@[simp] theorem State.send_late (s : State) (vc : Nat) (a b : ClusterKey) (due rank : Nat) (ev : Instr) : (s.send vc a b due rank ev).late = s.late := rfl
@[simp] theorem State.send_ticks (s : State) (vc : Nat) (a b : ClusterKey) (due rank : Nat) (ev : Instr) : (s.send vc a b due rank ev).ticks = s.ticks := rfl

@[simp] theorem State.setStatus_now (s : State) (x : CurStatus) : (s.setStatus x).now = s.now := rfl
@[simp] theorem State.setStatus_scanCore (s : State) (x : CurStatus) : (s.setStatus x).scanCore = s.scanCore := rfl
@[simp] theorem State.setStatus_scanOff (s : State) (x : CurStatus) : (s.setStatus x).scanOff = s.scanOff := rfl
@[simp] theorem State.setStatus_scanIssued (s : State) (x : CurStatus) : (s.setStatus x).scanIssued = s.scanIssued := rfl
@[simp] theorem State.setStatus_forced (s : State) (x : CurStatus) : (s.setStatus x).forced = s.forced := rfl
@[simp] theorem State.setStatus_agenda (s : State) (x : CurStatus) : (s.setStatus x).agenda = s.agenda := rfl
@[simp] theorem State.setStatus_resumes (s : State) (x : CurStatus) : (s.setStatus x).resumes = s.resumes := rfl
@[simp] theorem State.setStatus_fresh (s : State) (x : CurStatus) : (s.setStatus x).fresh = s.fresh := rfl
@[simp] theorem State.setStatus_free (s : State) (x : CurStatus) : (s.setStatus x).free = s.free := rfl
@[simp] theorem State.setStatus_cores (s : State) (x : CurStatus) : (s.setStatus x).cores = s.cores := rfl
@[simp] theorem State.setStatus_clusters (s : State) (x : CurStatus) : (s.setStatus x).clusters = s.clusters := rfl
@[simp] theorem State.setStatus_dies (s : State) (x : CurStatus) : (s.setStatus x).dies = s.dies := rfl
@[simp] theorem State.setStatus_pkgs (s : State) (x : CurStatus) : (s.setStatus x).pkgs = s.pkgs := rfl
@[simp] theorem State.setStatus_mem (s : State) (x : CurStatus) : (s.setStatus x).mem = s.mem := rfl
@[simp] theorem State.setStatus_sectors (s : State) (x : CurStatus) : (s.setStatus x).sectors = s.sectors := rfl
@[simp] theorem State.setStatus_lines (s : State) (x : CurStatus) : (s.setStatus x).lines = s.lines := rfl
@[simp] theorem State.setStatus_barriers (s : State) (x : CurStatus) : (s.setStatus x).barriers = s.barriers := rfl
@[simp] theorem State.setStatus_launches (s : State) (x : CurStatus) : (s.setStatus x).launches = s.launches := rfl
@[simp] theorem State.setStatus_shootdowns (s : State) (x : CurStatus) : (s.setStatus x).shootdowns = s.shootdowns := rfl
@[simp] theorem State.setStatus_crDamage (s : State) (x : CurStatus) : (s.setStatus x).crDamage = s.crDamage := rfl
@[simp] theorem State.setStatus_crWrites (s : State) (x : CurStatus) : (s.setStatus x).crWrites = s.crWrites := rfl
@[simp] theorem State.setStatus_late (s : State) (x : CurStatus) : (s.setStatus x).late = s.late := rfl
@[simp] theorem State.setStatus_ticks (s : State) (x : CurStatus) : (s.setStatus x).ticks = s.ticks := rfl

/-! ### Keyed lists -/

@[simp] theorem getKey_setKey_self {α : Type} (l : List (Nat × α)) (k : Nat) (x : α) : getKey (setKey l k x) k = some x := by
  induction l with
  | nil => simp [setKey, getKey]
  | cons e r ih => 
    obtain ⟨a, y⟩ := e
    simp only [setKey]
    split
    · simp [getKey]
    · split
      · simp [getKey]
      · simp_all [getKey]

@[simp] theorem getKey_setKey_ne {α : Type} (l : List (Nat × α)) {k j : Nat} (x : α) (h : j ≠ k) : getKey (setKey l k x) j = getKey l j := by
  induction l with
  | nil => simp [setKey, getKey, Ne.symm h]
  | cons e r ih =>
    obtain ⟨a, y⟩ := e
    simp only [setKey]
    split
    · simp [getKey, Ne.symm h]
    · split
      · simp_all [getKey, Ne.symm h]
      · simp_all [getKey]

/-! ### Reading a part after it or another is changed -/

@[simp] theorem State.core_modCore_self (s : State) (c : CoreKey) (f : Core → Core) : (s.modCore c f).core c = f (s.core c) := by
  simp [State.core, State.modCore]
@[simp] theorem State.core_modCore_ne (s : State) {c j : CoreKey} (f : Core → Core) (h : j ≠ c) : (s.modCore c f).core j = s.core j := by
  simp [State.core, State.modCore, h]
@[simp] theorem State.clu_modClu_self (s : State) (k : ClusterKey) (f : Cluster → Cluster) : (s.modClu k f).clu k = f (s.clu k) := by
  simp [State.clu, State.modClu]
@[simp] theorem State.clu_modClu_ne (s : State) {k j : ClusterKey} (f : Cluster → Cluster) (h : j ≠ k) : (s.modClu k f).clu j = s.clu j := by
  simp [State.clu, State.modClu, h]
@[simp] theorem State.die_modDie_self (s : State) (d : DieKey) (f : Die → Die) : (s.modDie d f).die d = f (s.die d) := by
  simp [State.die, State.modDie]
@[simp] theorem State.die_modDie_ne (s : State) {d j : DieKey} (f : Die → Die) (h : j ≠ d) : (s.modDie d f).die j = s.die j := by
  simp [State.die, State.modDie, h]
@[simp] theorem State.pkg_modPkg_self (s : State) (p : PkgKey) (f : Package → Package) : (s.modPkg p f).pkg p = f (s.pkg p) := by
  simp [State.pkg, State.modPkg]
@[simp] theorem State.pkg_modPkg_ne (s : State) {p j : PkgKey} (f : Package → Package) (h : j ≠ p) : (s.modPkg p f).pkg j = s.pkg j := by
  simp [State.pkg, State.modPkg, h]
@[simp] theorem State.clu_modCore (s : State) (c : CoreKey) (f : Core → Core) (k : ClusterKey) : (s.modCore c f).clu k = s.clu k := rfl
@[simp] theorem State.die_modCore (s : State) (c : CoreKey) (f : Core → Core) (d : DieKey) : (s.modCore c f).die d = s.die d := rfl
@[simp] theorem State.pkg_modCore (s : State) (c : CoreKey) (f : Core → Core) (p : PkgKey) : (s.modCore c f).pkg p = s.pkg p := rfl
@[simp] theorem State.core_modClu (s : State) (k : ClusterKey) (f : Cluster → Cluster) (c : CoreKey) : (s.modClu k f).core c = s.core c := rfl
@[simp] theorem State.core_post (s : State) (due rank : Nat) (ev : Instr) (c : CoreKey) : (s.post due rank ev).core c = s.core c := rfl
@[simp] theorem State.clu_post (s : State) (due rank : Nat) (ev : Instr) (k : ClusterKey) : (s.post due rank ev).clu k = s.clu k := rfl
@[simp] theorem State.core_setStatus (s : State) (x : CurStatus) (c : CoreKey) : (s.setStatus x).core c = s.core c := rfl
@[simp] theorem State.slot_post (s : State) (due rank : Nat) (ev : Instr) (c : CoreKey) (i : Nat) : (s.post due rank ev).slot c i = s.slot c i := rfl

@[simp] theorem Core.slot_modSlot_self (k : Core) {i : Nat} (f : Slot → Slot) (h : i < 16) : (k.modSlot i f).slot i = f (k.slot i) := by
  simp [Core.slot, Core.modSlot, h]
@[simp] theorem Core.slot_modSlot_ne (k : Core) {i j : Nat} (f : Slot → Slot) (h : j ≠ i) : (k.modSlot i f).slot j = k.slot j := by
  simp [Core.slot, Core.modSlot, Ne.symm h]

@[simp] theorem State.slot_modSlot_self (s : State) (c : CoreKey) {i : Nat} (f : Slot → Slot) (h : i < 16) :
    (s.modSlot c i f).slot c i = f (s.slot c i) := by simp [State.slot, State.modSlot, h]
theorem State.slot_modSlot_ne (s : State) {c d : CoreKey} {i j : Nat} (f : Slot → Slot) (h : d ≠ c ∨ j ≠ i) :
    (s.modSlot c i f).slot d j = s.slot d j := by
  by_cases hd : d = c
  · subst hd
    have hj : j ≠ i := by simpa using h
    simp [State.slot, State.modSlot, hj]
  · simp [State.slot, State.modSlot, hd]

/-- A slot's change leaves everything else of every core. -/
@[simp] theorem State.core_modSlot_rest (s : State) (c d : CoreKey) (i : Nat) (f : Slot → Slot) :
    { (s.modSlot c i f).core d with slots := (s.core d).slots } = s.core d := by
  by_cases hd : d = c
  · subst hd; simp [State.modSlot, Core.modSlot]
  · simp [State.modSlot, hd]

/-! ### The thread in the latch -/

@[simp] theorem State.me_modMe (s : State) (f : Slot → Slot) (h : s.cur.slot < 16) : (s.modMe f).me = f s.me := by
  simp [State.me, State.modMe, h]
@[simp] theorem State.me_setStatus (s : State) (x : CurStatus) : (s.setStatus x).me = s.me := rfl
@[simp] theorem State.me_post (s : State) (due rank : Nat) (ev : Instr) : (s.post due rank ev).me = s.me := rfl

/-! ### Registers (R9) -/

@[simp] theorem Regs.getG_zero (r : Regs) : r.getG 0 = Reg.full 0 := rfl
@[simp] theorem Regs.setG_zero (r : Regs) (x : Reg 64) : r.setG 0 x = r := rfl
@[simp] theorem Regs.getM_zero (r : Regs) : r.getM 0 = Reg.full 0xFFFF := rfl
@[simp] theorem Regs.setM_zero (r : Regs) (x : Reg 16) : r.setM 0 x = r := rfl
@[simp] theorem Regs.getG_setG_self (r : Regs) {i : Fin 32} (x : Reg 64) (h : i ≠ 0) : (r.setG i x).getG i = x := by
  simp [Regs.getG, Regs.setG, h]
@[simp] theorem Regs.getG_setG_ne (r : Regs) {i j : Fin 32} (x : Reg 64) (h : j ≠ i) : (r.setG i x).getG j = r.getG j := by
  have h' : (i : Nat) ≠ j := fun e => h (Fin.ext e.symm)
  by_cases hi : i = 0
  · simp [hi]
  · simp [Regs.getG, Regs.setG, hi, Vector.getElem_set_ne, h']
@[simp] theorem Regs.getV_setV_self (r : Regs) (i : Fin 16) (x : Reg 512) : (r.setV i x).getV i = x := by
  simp [Regs.getV, Regs.setV]
@[simp] theorem Regs.getV_setV_ne (r : Regs) {i j : Fin 16} (x : Reg 512) (h : j ≠ i) : (r.setV i x).getV j = r.getV j := by
  have h' : (i : Nat) ≠ j := fun e => h (Fin.ext e.symm)
  simp [Regs.getV, Regs.setV, Vector.getElem_set_ne, h']
@[simp] theorem Regs.getM_setM_self (r : Regs) {i : Fin 8} (x : Reg 16) (h : i ≠ 0) : (r.setM i x).getM i = x := by
  simp [Regs.getM, Regs.setM, h]
@[simp] theorem Regs.getM_setM_ne (r : Regs) {i j : Fin 8} (x : Reg 16) (h : j ≠ i) : (r.setM i x).getM j = r.getM j := by
  have h' : (i : Nat) ≠ j := fun e => h (Fin.ext e.symm)
  by_cases hi : i = 0
  · simp [hi]
  · simp [Regs.getM, Regs.setM, hi, Vector.getElem_set_ne, h']
@[simp] theorem Regs.getV_setG (r : Regs) (i : Fin 32) (x : Reg 64) (j : Fin 16) : (r.setG i x).getV j = r.getV j := by
  unfold Regs.setG; split <;> rfl
@[simp] theorem Regs.getM_setG (r : Regs) (i : Fin 32) (x : Reg 64) (j : Fin 8) : (r.setG i x).getM j = r.getM j := by
  unfold Regs.setG; split <;> rfl
@[simp] theorem Regs.getG_setV (r : Regs) (i : Fin 16) (x : Reg 512) (j : Fin 32) : (r.setV i x).getG j = r.getG j := rfl
@[simp] theorem Regs.getM_setV (r : Regs) (i : Fin 16) (x : Reg 512) (j : Fin 8) : (r.setV i x).getM j = r.getM j := rfl
@[simp] theorem Regs.getG_setM (r : Regs) (i : Fin 8) (x : Reg 16) (j : Fin 32) : (r.setM i x).getG j = r.getG j := by
  unfold Regs.setM; split <;> rfl
@[simp] theorem Regs.getV_setM (r : Regs) (i : Fin 8) (x : Reg 16) (j : Fin 16) : (r.setM i x).getV j = r.getV j := by
  unfold Regs.setM; split <;> rfl

end Sys2Proof.Machine
end

