-- ==== Sys2Proof/Laws/Access.lean ====
section
/-! SUPPORT. What the shared operations of loads and stores answer: the checks of an access on the paths that end in an effect, and the effect of a load and of a store on each path. -/

namespace Sys2Proof.Machine

open Sys2Proof

/-- An access of the own or another scratchpad that is aligned and meets no lock passes its checks (R101). -/
theorem State.checkAccess_spad {s : State} {ea : Word} {n off : Nat} {c : CoreKey} {kind : AccKind} {sp : Spaces} {tx : TxRule}
    (hc : s.classify s.cur.core ea = .spad c off) (hs : sp ≠ .globalOnly) (ha : ea.toNat % n = 0)
    (hl : s.lockTrap s.meRef (.spad c) off n (kind != .load) ea = none) (ht : tx ≠ .forbidden) :
    s.checkAccess ea n kind sp tx = .spad c off := by
  simp [State.checkAccess, hc, hs, ha, hl, ht]

/-- The address class decides first (R101). -/
theorem State.checkAccess_bad {s : State} {ea : Word} {n cause : Nat} {kind : AccKind} {sp : Spaces} {tx : TxRule}
    (hc : s.classify s.cur.core ea = .bad cause) : s.checkAccess ea n kind sp tx = .trap (trapAt cause ea) := by
  simp [State.checkAccess, hc]

/-- An address that its width does not divide traps with cause 0x061 in a space that the instruction allows (R101). -/
theorem State.checkAccess_misaligned {s : State} {ea : Word} {n : Nat} {kind : AccKind} {tx : TxRule}
    (hc : ∀ cause, s.classify s.cur.core ea ≠ .bad cause) (ha : ea.toNat % n ≠ 0) :
    s.checkAccess ea n kind .both tx = .trap (trapAt 0x061 ea) := by
  unfold State.checkAccess
  cases h : s.classify s.cur.core ea with
  | bad cause => exact absurd h (hc cause)
  | spad c off => simp [h, ha]
  | global => simp [h, ha]

/-- The state after the TLB of the running thread's core has served an entry (R346). -/
def State.tlbUsed (s : State) (e : TlbEntry) : State :=
  s.modCore s.cur.core (fun k => { k with tlb := k.tlb.map (fun x => if x = e then { x with used := s.cycle } else x) })

/-- An entry that maps the address translates it (R346). -/
theorem State.translate_hit {s : State} {slot ctx : Nat} {va : Word} {e : TlbEntry} (h : s.myCore.tlb.find? (fun e => e.maps ctx va.toNat) = some e) :
    s.translate s.cur.core slot ctx va = (.hit e, s.tlbUsed e) := by
  have h' : (s.core s.cur.core).tlb.find? (fun e => e.maps ctx va.toNat) = some e := h
  simp only [State.translate, h']
  rfl

/-- The lock check reads the lock table and the copy engine alone, which the use of a TLB entry leaves. -/
theorem State.lockTrap_tlbUsed (s : State) (e : TlbEntry) (t : ThreadRef) (space : LockSpace) (lo n : Nat) (store : Bool) (ea : Word) :
    (s.tlbUsed e).lockTrap t space lo n store ea = s.lockTrap t space lo n store ea := by
  by_cases h : t.core = s.cur.core
  · simp [State.lockTrap, State.tlbUsed, h, Core.locksMet, Core.stoppedOwner]
  · simp [State.lockTrap, State.tlbUsed, h]

theorem State.slot_tlbUsed (s : State) (e : TlbEntry) (c : CoreKey) (i : Nat) : (s.tlbUsed e).slot c i = s.slot c i := by
  by_cases h : c = s.cur.core
  · subst h; simp [State.slot, State.tlbUsed, Core.slot]
  · simp [State.slot, State.tlbUsed, h]

/-- A global access outside a transaction, mapped, permitted, aligned and free of locks, passes its checks with the page's translation (R101, R102). -/
theorem State.checkAccess_global {s : State} {ea : Word} {n : Nat} {kind : AccKind} {sp : Spaces} {tx : TxRule} {e : TlbEntry}
    (hc : s.classify s.cur.core ea = .global) (hs : sp ≠ .spadOnly) (ha : ea.toNat % n = 0)
    (he : s.myCore.tlb.find? (fun e => e.maps s.me.ctx ea.toNat) = some e) (hp : permitted e kind s.me.st.sup = true)
    (hl : s.lockTrap s.meRef .global ea.toNat n (kind != .load) ea = none) (ht : s.me.st.tx = false) :
    s.checkAccess ea n kind sp tx = .global e (e.phys ea.toNat) (s.tlbUsed e) := by
  have hr : (s.tlbUsed e).meRef = s.meRef := by
    show State.refOf (s.tlbUsed e) s.cur.core s.cur.slot = _
    simp only [State.refOf, State.slot_tlbUsed]
    rfl
  simp [State.checkAccess, hc, hs, ha, State.translate_hit he, hp, hr, State.lockTrap_tlbUsed, hl, ht]

/-- A load from the own scratchpad writes its register in the issue cycle (R105). -/
theorem memLoad_own {s : State} {d : RegName} {ea : Word} {n off : Nat} (ext : Ext) (ordered : Bool)
    (hc : s.classify s.cur.core ea = .spad s.cur.core off) (ha : ea.toNat % n = 0)
    (hl : s.lockTrap s.meRef (.spad s.cur.core) off n false ea = none) :
    memLoad d ea n ext ordered s = s.putReg d (s.myCore.loadSpad off n ext ea).1 (s.myCore.loadSpad off n ext ea).2 := by
  have h : s.checkAccess ea n .load .both (if ordered then TxRule.globalForbidden else .plain) = .spad s.cur.core off :=
    State.checkAccess_spad hc (by decide) ha hl (by cases ordered <;> decide)
  simp [memLoad, h]

/-- A store to the own scratchpad writes its bytes in the issue cycle (R105). -/
theorem memStore_own {s : State} {ea : Word} {n off : Nat} (data : VWord) (plain : Bool)
    (hc : s.classify s.cur.core ea = .spad s.cur.core off) (ha : ea.toNat % n = 0)
    (hl : s.lockTrap s.meRef (.spad s.cur.core) off n true ea = none) :
    memStore ea n data plain s = s.spadWrite s.cur.core off (vBytes n data) := by
  have h : s.checkAccess ea n .store .both (if plain then TxRule.plain else .globalForbidden) = .spad s.cur.core off :=
    State.checkAccess_spad hc (by decide) ha hl (by cases plain <;> decide)
  simp [memStore, h]

end Sys2Proof.Machine
end

