-- ==== Sys2Proof/Laws/Memory.lean ====
section
/-! SUPPORT. Byte memories: what a write leaves and reads back, and that every operation keeps the canonical form (Memory.wf). -/

namespace Sys2Proof.Machine

open Sys2Proof

/-! ### Reading after a write -/

theorem getKey_delKey_self {α : Type} (l : List (Nat × α)) (k : Nat) : getKey (delKey l k) k = none := by
  induction l with
  | nil => rfl
  | cons e r ih =>
    obtain ⟨a, y⟩ := e
    by_cases h : a = k
    · simpa [delKey, h] using ih
    · simpa [delKey, getKey, h] using ih

theorem getKey_delKey_ne {α : Type} (l : List (Nat × α)) {k j : Nat} (h : j ≠ k) : getKey (delKey l k) j = getKey l j := by
  induction l with
  | nil => rfl
  | cons e r ih =>
    obtain ⟨a, y⟩ := e
    by_cases ha : a = k
    · have : a ≠ j := fun e => h (e ▸ ha)
      simpa [delKey, getKey, ha, Ne.symm h] using ih
    · by_cases hj : a = j
      · simp [delKey, getKey, hj, h]
      · simpa [delKey, getKey, ha, hj] using ih

@[simp] theorem Memory.get_set_self (m : List Host.Cell) (a : Nat) (b : Byte) : Memory.get (Memory.set m a b) a = b := by
  by_cases h : b = 0
  · simp [Memory.get, Memory.set, h, getKey_delKey_self]
  · simp [Memory.get, Memory.set, show ¬ b = 0#8 from h]

theorem Memory.get_set_ne (m : List Host.Cell) {a j : Nat} (b : Byte) (h : j ≠ a) : Memory.get (Memory.set m a b) j = Memory.get m j := by
  by_cases hb : b = 0
  · simp [Memory.get, Memory.set, hb, getKey_delKey_ne _ h]
  · simp [Memory.get, Memory.set, show ¬ b = 0#8 from hb, h]

/-- A byte outside what a multi-byte write covers reads as before. -/
theorem Memory.get_setN_out (bs : List Byte) : ∀ (m : List Host.Cell) (a j : Nat), j < a ∨ a + bs.length ≤ j →
    Memory.get (Memory.setN m a bs) j = Memory.get m j := by
  induction bs with
  | nil => intro m a j _; rfl
  | cons b r ih =>
    intro m a j h
    have h1 : j < a + 1 ∨ a + 1 + r.length ≤ j := by simp at h; omega
    have h2 : j ≠ a := by simp at h; omega
    rw [Memory.setN, ih _ _ _ h1, Memory.get_set_ne _ _ h2]

/-- Byte i of a multi-byte write reads back. -/
theorem Memory.get_setN_in (bs : List Byte) : ∀ (m : List Host.Cell) (a i : Nat) (h : i < bs.length),
    Memory.get (Memory.setN m a bs) (a + i) = bs[i] := by
  induction bs with
  | nil => intro m a i h; simp at h
  | cons b r ih =>
    intro m a i h
    cases i with
    | zero => simp [Memory.setN, Memory.get_setN_out r (Memory.set m a b) (a + 1) a (by omega)]
    | succ n =>
      have := ih (Memory.set m a b) (a + 1) n (by simpa using h)
      rw [Memory.setN, show a + (n + 1) = a + 1 + n by omega, this]; rfl

/-! ### The canonical form is kept -/

theorem Memory.wfFrom_le {lo lo' : Nat} (h : lo' ≤ lo) : ∀ {m : List Host.Cell}, Memory.wfFrom lo m = true → Memory.wfFrom lo' m = true
  | [], _ => rfl
  | (a, b) :: r, hw => by
    simp only [Memory.wfFrom, Bool.and_eq_true, decide_eq_true_eq] at hw ⊢
    exact ⟨⟨by omega, hw.1.2⟩, hw.2⟩

/-- Dropping entries keeps the canonical form. -/
theorem Memory.wfFrom_filter (f : Host.Cell → Bool) : ∀ {m : List Host.Cell} {lo : Nat}, Memory.wfFrom lo m = true → Memory.wfFrom lo (m.filter f) = true
  | [], _, _ => rfl
  | (a, b) :: r, lo, hw => by
    simp only [Memory.wfFrom, Bool.and_eq_true, decide_eq_true_eq] at hw
    by_cases h : f (a, b) = true
    · simp only [List.filter_cons, h, if_true, Memory.wfFrom, Bool.and_eq_true, decide_eq_true_eq]
      exact ⟨hw.1, Memory.wfFrom_filter f hw.2⟩
    · simp only [List.filter_cons, h]
      exact Memory.wfFrom_le (by omega) (Memory.wfFrom_filter f hw.2)

theorem Memory.wfFrom_setKey {k : Nat} {x : Byte} (hx : x ≠ 0) : ∀ {m : List Host.Cell} {lo : Nat}, lo ≤ k → Memory.wfFrom lo m = true →
    Memory.wfFrom lo (setKey m k x) = true
  | [], lo, hk, _ => by simpa [setKey, Memory.wfFrom, hk] using hx
  | (a, b) :: r, lo, hk, hw => by
    simp only [Memory.wfFrom, Bool.and_eq_true, decide_eq_true_eq] at hw
    simp only [setKey]
    split
    · simp only [Memory.wfFrom, Bool.and_eq_true, decide_eq_true_eq, bne_iff_ne]
      exact ⟨⟨hk, hx⟩, ⟨by omega, by simpa using hw.1.2⟩, hw.2⟩
    · split
      · rename_i h
        subst h
        simp only [Memory.wfFrom, Bool.and_eq_true, decide_eq_true_eq, bne_iff_ne]
        exact ⟨⟨hk, hx⟩, hw.2⟩
      · simp only [Memory.wfFrom, Bool.and_eq_true, decide_eq_true_eq]
        exact ⟨hw.1, Memory.wfFrom_setKey hx (by omega) hw.2⟩

theorem Memory.set_wf {m : List Host.Cell} (a : Nat) (b : Byte) (h : Memory.wf m = true) : Memory.wf (Memory.set m a b) = true := by
  by_cases hb : b = 0
  · simpa [Memory.set, hb, delKey, Memory.wf] using Memory.wfFrom_filter _ h
  · simpa [Memory.set, show ¬ b = 0#8 from hb, Memory.wf] using Memory.wfFrom_setKey hb (Nat.zero_le a) h

theorem Memory.setN_wf (bs : List Byte) : ∀ {m : List Host.Cell} (a : Nat), Memory.wf m = true → Memory.wf (Memory.setN m a bs) = true := by
  induction bs with
  | nil => intro m a h; exact h
  | cons b r ih => intro m a h; exact ih (a + 1) (Memory.set_wf a b h)

theorem Memory.clear_wf {m : List Host.Cell} (lo hi : Nat) (h : Memory.wf m = true) : Memory.wf (Memory.clear m lo hi) = true :=
  Memory.wfFrom_filter _ h

theorem Memory.get_clear (m : List Host.Cell) (lo hi a : Nat) :
    Memory.get (Memory.clear m lo hi) a = if lo ≤ a ∧ a < hi then 0 else Memory.get m a := by
  induction m with
  | nil => simp [Memory.clear, Memory.get, getKey]
  | cons e r ih =>
    obtain ⟨x, b⟩ := e
    simp only [Memory.clear, Memory.get] at ih ⊢
    by_cases hx : x = a
    · subst hx
      by_cases hin : lo ≤ x ∧ x < hi
      · have : ¬ (x < lo ∨ hi ≤ x) := by omega
        simpa [hin, this] using ih
      · have : x < lo ∨ hi ≤ x := by omega
        simp [hin, this, getKey]
    · by_cases hk : x < lo ∨ hi ≤ x
      · simpa [hk, getKey, hx] using ih
      · simpa [hk, getKey, hx] using ih

end Sys2Proof.Machine
end

