-- ==== Sys2Proof/Laws/Homes.lean ====
section
/-! SUPPORT. What a home's write does to the bytes of memory, and what an access whose turn has come is performed on. -/

namespace Sys2Proof.Machine

open Sys2Proof

/-- An access that has waited for its turn is performed on the state as it is (R257). -/
theorem State.inTurn_queued {s : State} {a : Access} (ev : Access → Instr) (perform : State → State) (h : a.queued = true) :
    s.inTurn a ev perform = perform s := by simp [State.inTurn, h]

/-- What an access of one sector of stacked DRAM reserves of its channel (R257). -/
def State.channelTaken (s : State) (pa : PhysAddr) : State :=
  s.modClu (vaultClu pa) (fun k => { k with chan := setKey k.chan (channelOf pa) (s.cycle + 2) })

/-- The turn of one sector of stacked DRAM whose channel is free is now (R257). -/
theorem State.channelTurn_free {s : State} {pa : PhysAddr} (hp : inLpddr pa = false) (hc : ChannelFree s pa) :
    s.channelTurn pa 1 = (s.cycle, s.channelTaken pa) := by
  have hm : max s.cycle ((getKey (s.clu (vaultClu pa)).chan (channelOf pa)).getD 0) = s.cycle := Nat.max_eq_left hc
  simp [State.channelTurn, hp, List.range_succ, hm, State.channelTaken]

/-- A load or store of stacked DRAM whose channel is free is performed now, on a state in which only the channel differs (R257). -/
theorem State.inTurn_free {s : State} {a : Access} (ev : Access → Instr) (perform : State → State) (hq : a.queued = false) (hf : a.op ≠ .fetch)
    (hp : inLpddr a.pa = false) (hc : ChannelFree s a.pa) : s.inTurn a ev perform = perform (s.channelTaken a.pa) := by
  have hd : s.refreshDraw a.pa = (false, s) := by simp [State.refreshDraw, hp]
  have hy : (s.channelTaken a.pa).cycle = s.cycle := rfl
  simp [State.inTurn, hq, hd, accessTurns, hf, State.channelTurn_free hp hc, hy]

/-- Notices of monitors leave memory. -/
theorem State.mem_notify (s : State) (place : MonAt) (block : PhysAddr) (wts : Nat) : (s.notify place block wts).mem = s.mem := by
  have h : ∀ (l : List Instr) (s : State), (l.foldl (fun s e => s.post s.now 0 e) s).mem = s.mem := by
    intro l
    induction l with
    | nil => exact fun _ => rfl
    | cons e r ih => exact fun s => (ih (s.post s.now 0 e)).trans rfl
  exact h _ s

/-- A line's written mark leaves memory (R372). -/
theorem State.mem_markWritten (s : State) (pa : PhysAddr) (code : Bool) : (s.markWritten pa code).mem = s.mem := by
  unfold State.markWritten; split <;> rfl

/-- Breaking a line's reservations leaves memory (R123). -/
theorem State.mem_breakLine (s : State) (pa : PhysAddr) : (s.breakLine pa).mem = s.mem := rfl

/-- An update of a sector's record leaves memory. -/
theorem State.mem_modSector (s : State) (pa : PhysAddr) (f : Sector → Sector) : (s.modSector pa f).mem = s.mem := rfl

/-- The bytes that a home writes stand there after the write (R110). -/
theorem State.get_writeAt_in (s : State) (home : ClusterKey) (pa : PhysAddr) (bs : List Byte) (wts : Nat) (v code : Bool) (i : Nat) (h : i < bs.length) :
    Memory.get (s.writeAt home pa bs wts v code).mem (pa + i) = bs[i] := by
  simp only [State.writeAt, State.mem_notify, State.mem_breakLine, State.mem_markWritten, State.mem_modSector]
  exact Memory.get_setN_in bs _ pa i h

/-- A write on an unversioned page to a sector without older versions leaves every other byte (R110, R359). -/
theorem State.get_writeAt_out {s : State} (home : ClusterKey) {pa : PhysAddr} (bs : List Byte) (wts : Nat) (code : Bool) {j : Nat}
    (hc : (s.sector pa).chain = []) (h : j < pa ∨ pa + bs.length ≤ j) :
    Memory.get (s.writeAt home pa bs wts false code).mem j = Memory.get s.mem j := by
  have hcut : s.cutChain (s.chainHome pa home) pa 0 = s := by simp [State.cutChain, hc]
  simp only [State.writeAt, State.mem_notify, State.mem_breakLine, State.mem_markWritten, State.mem_modSector, hcut]
  exact Memory.get_setN_out bs s.mem pa j h

end Sys2Proof.Machine
end

