-- ==== Sys2Proof/Laws/Results.lean ====
section
/-! SUPPORT. What a result written into a register leaves as it was: the forms in which statements read results, from the meaning's own update. -/

namespace Sys2Proof

open Sys2Proof.Machine

theorem onlyMySlot_modMe (s : State) (f : Slot → Slot) : OnlyMySlot s (s.modMe f) :=
  ⟨fun _ _ h => State.slot_modSlot_ne s f h, fun _ => by simp [State.modMe], rfl, fun _ => rfl⟩

theorem onlyRegs_modMe (s : State) (h : s.cur.slot < 16) (g : Regs → Regs) (ds : List RegName)
    (hg : ∀ r, r ∉ ds → match r with
      | .g n => (g s.me.regs).getG n = s.me.regs.getG n
      | .v n => (g s.me.regs).getV n = s.me.regs.getV n
      | .m n => (g s.me.regs).getM n = s.me.regs.getM n) :
    OnlyRegs s (s.modMe (fun sl => { sl with regs := g sl.regs })) ds := by
  refine ⟨fun r hr => ?_, by simp [h], onlyMySlot_modMe s _⟩
  have := hg r hr
  cases r <;> simpa [SameReg, h] using this

theorem onlyRegs_putG (s : State) (h : s.cur.slot < 16) (d : Fin 32) (x : Word) : OnlyRegs s (s.putG d x) [.g d] := by
  refine onlyRegs_modMe s h (fun r => r.setG d (Reg.full x)) _ (fun r hr => ?_)
  cases r with
  | g n =>
    have : n ≠ d := fun e => hr (by simp [e])
    simp [this]
  | v n => simp
  | m n => simp

theorem onlyRegs_putV (s : State) (h : s.cur.slot < 16) (d : Fin 16) (x : VWord) : OnlyRegs s (s.putV d x) [.v d] := by
  refine onlyRegs_modMe s h (fun r => r.setV d (Reg.full x)) _ (fun r hr => ?_)
  cases r with
  | v n =>
    have : n ≠ d := fun e => hr (by simp [e])
    simp [this]
  | g n => simp
  | m n => simp

theorem onlyRegs_putM (s : State) (h : s.cur.slot < 16) (d : Fin 8) (x : MWord) : OnlyRegs s (s.putM d x) [.m d] := by
  refine onlyRegs_modMe s h (fun r => r.setM d (Reg.full x)) _ (fun r hr => ?_)
  cases r with
  | m n =>
    have : n ≠ d := fun e => hr (by simp [e])
    simp [this]
  | g n => simp
  | v n => simp

/-- A meaning that writes one g register gives it its value and changes nothing else. -/
theorem givesG_of_putG {s : State} {i : Instr} {d : Fin 32} {x : Word} (h : s.cur.slot < 16) (e : exec i s = .next (s.putG d x)) :
    GivesG s i d x := by
  refine ⟨_, e, ?_, onlyRegs_putG s h d x⟩
  by_cases hd : d = 0 <;> simp [State.putG, h, hd]

theorem givesV_of_putV {s : State} {i : Instr} {d : Fin 16} {x : VWord} (h : s.cur.slot < 16) (e : exec i s = .next (s.putV d x)) :
    GivesV s i d x :=
  ⟨_, e, by simp [State.putV, h], onlyRegs_putV s h d x⟩

theorem givesM_of_putM {s : State} {i : Instr} {d : Fin 8} {x : MWord} (h : s.cur.slot < 16) (e : exec i s = .next (s.putM d x)) :
    GivesM s i d x := by
  refine ⟨_, e, ?_, onlyRegs_putM s h d x⟩
  by_cases hd : d = 0 <;> simp [State.putM, h, hd]

end Sys2Proof
end

