-- ==== Sys2Proof/Laws/Traps.lean ====
section
/-! SUPPORT. What taking a trap does: the one equation of State.deliver for a thread that belongs to no gang and no mirrored pair, in user and in supervisor mode. -/

namespace Sys2Proof.Machine

open Sys2Proof

/-- A core without a shadow: a change of the pair is a change of the slot. -/
theorem State.modPair_single {s : State} {c : CoreKey} (i : Nat) (f : Slot → Slot) (h : (s.core c).mirror = none) :
    s.modPair c i f = s.modSlot c i f := by simp [State.modPair, h]

/-- A thread of no gang has nothing to split. -/
theorem State.splitGang_independent {s : State} {t : ThreadRef} (h : (s.slot t.core t.slot).st.role = .independent) : s.splitGang t = s := by
  simp [State.splitGang, h]

/-- A thread whose slot holds no wait has no A word to take back (R25). -/
theorem State.undoPair_free {s : State} {c : CoreKey} {i : Nat} (h : (s.slot c i).block = none) : s.undoPair c i = s := by
  simp [State.undoPair, h]

/-- A trap of a thread in user mode that waits for nothing brings its slot to the handler that its cause goes to, and changes nothing else (R222, R223). -/
theorem State.deliver_user {s : State} {c : CoreKey} {i : Nat} (ret : Word) (v : TrapVal) (hr : (s.slot c i).st.role = .independent)
    (hm : (s.core c).mirror = none) (hb : (s.slot c i).block = none) (hu : (s.slot c i).st.sup = false) :
    s.deliver c i ret v = s.modSlot c i (fun sl => if sl.takesUser v.cause then sl.toUser ret v s.cycle else sl.toSupervisor ret v s.cycle) := by
  have e : s.splitGang (s.refOf c i) = s := State.splitGang_independent (t := s.refOf c i) hr
  simp [State.deliver, State.undoPair_free hb, e, hu, State.modPair_single, hm]

/-- A trap of a thread in supervisor mode halts its slot (R227). -/
theorem State.deliver_supervisor {s : State} {c : CoreKey} {i : Nat} (ret : Word) (v : TrapVal) (hr : (s.slot c i).st.role = .independent)
    (hb : (s.slot c i).block = none) (hs : (s.slot c i).st.sup = true) : s.deliver c i ret v = s.haltSupervisor c i ret v := by
  have e : s.splitGang (s.refOf c i) = s := State.splitGang_independent (t := s.refOf c i) hr
  simp [State.deliver, State.undoPair_free hb, e, hs]

/-- The trap of the running bundle in user mode, as one update of its slot (R216). -/
theorem State.trap_user {s : State} (cause : Nat) (tval tinf : Word) (hr : s.me.st.role = .independent) (hm : s.myCore.mirror = none)
    (hb : s.me.block = none) (hu : s.me.st.sup = false) :
    s.trap cause tval tinf = (s.modMe (fun sl => if sl.takesUser cause then sl.toUser s.cur.pc { cause := cause, tval := tval, tinf := tinf } s.cycle
      else sl.toSupervisor s.cur.pc { cause := cause, tval := tval, tinf := tinf } s.cycle)).setStatus .trapped := by
  rw [State.trap, State.deliver_user s.cur.pc { cause := cause, tval := tval, tinf := tinf } hr hm hb hu]
  rfl

end Sys2Proof.Machine
end

