-- ==== Sys2Proof/Tests/Slice0.lean ====
section
/-! SUPPORT. Tests: ill-formed terms that WellFormed refuses, words written out from the spec's encodings, single steps with results calculated by hand from the spec's tables, and a witness for the hypotheses of every statement. -/

namespace Sys2Proof.Tests

set_option Elab.async false

open Sys2Proof Sys2Proof.Machine

/-! ### Ill-formed terms (R57, R58, R130, R197, R208) -/

theorem test_wf_scopes : (Instr.ldfe 5 6 false .cl).wf = false ∧ (Instr.ldfe 5 6 true .cl).wf = true ∧ (Instr.ldff 5 6 false .cl).wf = false ∧ (Instr.stfe 5 6 false .cl).wf = false
    ∧ (Instr.stf 5 6 false .cl).wf = false ∧ (Instr.ste 5 6 false .cl).wf = false ∧ (Instr.ste 5 6 false .th).wf = true := by decide

theorem test_wf_fences : (Instr.fence .plain .cl).wf = false ∧ (Instr.fence .rel .cl).wf = true ∧ (Instr.barArr 1 7 .th).wf = false ∧ (Instr.barWt 1 .th).wf = false
    ∧ (Instr.bar 1 7 .th).wf = false ∧ (Instr.bar 1 7 .cl).wf = true := by decide

theorem test_wf_pairs : (Instr.cpy2 31 4 6).wf = false ∧ (Instr.cpy2 4 6 8).wf = true ∧ (Instr.gath 4 31 8).wf = false ∧ (Instr.scat 4 31 8).wf = false
    ∧ (Instr.serve 5 30 2 1).wf = false ∧ (Instr.serve 5 3 4 2).wf = true ∧ (Instr.servn 5 31 1 1).wf = false := by decide

theorem test_wf_conversions : (Instr.fcvt 4 5 .s .s).wf = false ∧ (Instr.fcvt 4 5 .s .d).wf = true ∧ (Instr.vquantTap8P0 1 15 2).wf = false ∧ (Instr.vquantTap8P0 1 2 2).wf = true := by decide

/-! ### Words written out from the encodings of chapters 3 to 9 -/

theorem test_decode_integer : decodeInstr 0x2114C700 = some (.mul 5 6 7) ∧ decodeInstr 0x2114C783 = some (.divCk 5 6 7) ∧ decodeInstr 0x2394D03F = some (.srai 5 6 63) := by decide +kernel
theorem test_decode_float : decodeInstr 0x2810A600 = some (.fadd 4 5 6 .s) ∧ decodeInstr 0x2894C214 = some (.fcvti 5 6 (.static .rtz) .s) ∧ decodeInstr 0x2910A639 = some (.fmadd 4 5 6 7 .d) := by decide +kernel
theorem test_decode_memory : decodeInstr 0x0294C004 = some (.ldW 5 6 4) ∧ decodeInstr 0x0794C000 = some (.ldfe 5 6 false .th) ∧ decodeInstr 0x07820004 = some (.ste 0 16 false .th) := by decide +kernel
theorem test_decode_sync : decodeInstr 0x0F14C748 = some (.amoAdd 5 6 7 .acq .w64) ∧ decodeInstr 0x10800098 = some (.fence .rel .cl) ∧ decodeInstr 0x108000C8 = some (.fence .full .co)
    ∧ decodeInstr 0x1184071A = some (.bar 1 7 .cl) := by decide +kernel
theorem test_decode_threads : decodeInstr 0x13808001 = some (.mig 4) ∧ decodeInstr 0x1394C002 = some (.gang 5 6) ∧ decodeInstr 0x13800003 = some .split ∧ decodeInstr 0x14140003 = some (.txc 5)
    ∧ decodeInstr 0x1302AE00 = some (.msend 21 14) := by decide +kernel
theorem test_decode_system : decodeInstr 0x0C800003 = some .hret ∧ decodeInstr 0x11008520 = some (.cpub 4 5 .di) := by decide +kernel
theorem test_decode_vector : decodeInstr 0x30044300 = some (.vfaddS 1 2 3 0) ∧ decodeInstr 0x3388A310 = some (.vfmaddS 2 5 3 2 0) ∧ decodeInstr 0x0714C700 = some (.vgath 5 6 7 0) := by decide +kernel
theorem test_decode_engines : decodeInstr 0x14848500 = some (.mma 1 4 5) ∧ decodeInstr 0x14800004 = some (.mzero 0) ∧ decodeInstr 0x15040008 = some (.mvaToVector 1 0 0) ∧ decodeInstr 0x1590A600 = some (.cpy 4 5 6)
    ∧ decodeInstr 0x1614C701 = some (.swwait 5 6 7) ∧ decodeInstr 0x168C8405 = some (.serve 3 4 1 5) ∧ decodeInstr 0x1500D601 = some (.mdrainZ 0 6 22) := by decide +kernel
theorem test_decode_refuses : decodeInstr 0 = none ∧ decodeInstr 0x2394D07F = none ∧ decode 0xA114C700 = none := by decide +kernel

/-! ### Single steps

A thread in slot 0 of core 0 issues the word w at 0x1_0000, with every register Full and 0 but those given. Each expected value is calculated by hand from the rule named. -/

/-- The machine about to issue w, with values in g registers. -/
def placed (w : Nat) (l : List (Fin 32 × Word)) : State :=
  (State.reset.withFetchWord 32 w).modSlot 0 0 (fun sl => { sl with regs := l.foldl (fun r e => r.setG e.1 (Reg.full e.2)) sl.regs })

/-- The state after one step; the state itself when the step ends in no next state. -/
noncomputable def after (s : State) : State :=
  match step s with
  | .next t => t
  | _ => s

/-- Word of format AR with rd = 5, rs1 = 6, rs2 = 7 (R56). -/
def ar (op func : Nat) : Nat := op * 2 ^ 23 + 5 * 2 ^ 18 + 6 * 2 ^ 13 + 7 * 2 ^ 8 + func
/-- Word of format AI or CI with rd = 5, rs1 = 6 (R56). -/
def ai (op imm : Nat) : Nat := op * 2 ^ 23 + 5 * 2 ^ 18 + 6 * 2 ^ 13 + imm
/-- g5 after an instruction whose sources g6 and g7 hold a and b. -/
noncomputable def gives (w : Nat) (a b : Word) : Word := (((after (placed w [(6, a), (7, b)])).slot 0 0).regs.getG 5).val
/-- Slot 0 of core 0 after an instruction. -/
noncomputable def slotAfter (w : Nat) (a b : Word) : Slot := (after (placed w [(6, a), (7, b)])).slot 0 0

theorem test_add_wraps : gives (ar 0x41 0) 0xFFFFFFFFFFFFFFFF 2 = 1 := by decide +kernel
theorem test_sub_operand_order : gives (ar 0x41 1) 3 5 = 0xFFFFFFFFFFFFFFFE := by decide +kernel
theorem test_andn : gives (ar 0x41 5) 0xFF 0x0F = 0xF0 := by decide +kernel
theorem test_sll_count_mod_64 : gives (ar 0x41 6) 1 0x41 = 2 := by decide +kernel
theorem test_sra_sign : gives (ar 0x41 8) 0x8000000000000000 4 = 0xF800000000000000 := by decide +kernel
theorem test_slt_signed : gives (ar 0x41 9) 0xFFFFFFFFFFFFFFFF 0 = 1 := by decide +kernel
theorem test_sltu_unsigned : gives (ar 0x41 10) 0xFFFFFFFFFFFFFFFF 0 = 0 := by decide +kernel
theorem test_min_signed : gives (ar 0x41 11) 0xFFFFFFFFFFFFFFFF 1 = 0xFFFFFFFFFFFFFFFF := by decide +kernel
theorem test_maxu : gives (ar 0x41 14) 0xFFFFFFFFFFFFFFFF 1 = 0xFFFFFFFFFFFFFFFF := by decide +kernel
theorem test_adds_saturates : gives (ar 0x41 15) 0x7FFFFFFFFFFFFFFF 1 = 0x7FFFFFFFFFFFFFFF := by decide +kernel
theorem test_subs_saturates : gives (ar 0x41 16) 0x8000000000000000 1 = 0x8000000000000000 := by decide +kernel
theorem test_addi_sign_extends : gives (ai 0x43 0x1FFF) 5 0 = 4 := by decide +kernel
theorem test_sltiu_compares_unsigned : gives (ai 0x49 0x1FFF) 5 0 = 1 := by decide +kernel
theorem test_ldi_negative : gives (0x4A * 2 ^ 23 + 5 * 2 ^ 18 + 0x3FFFF) 0 0 = 0xFFFFFFFFFFFFFFFF := by decide +kernel
theorem test_lsh_appends : (((after (placed (0x4B * 2 ^ 23 + 5 * 2 ^ 18 + 0x3FFFF) [(5, 1)])).slot 0 0).regs.getG 5).val = 0x7FFFF := by decide +kernel
theorem test_mulh_signed : gives (ar 0x42 1) 0xFFFFFFFFFFFFFFFF 0xFFFFFFFFFFFFFFFF = 0 := by decide +kernel
theorem test_mulhu_unsigned : gives (ar 0x42 2) 0xFFFFFFFFFFFFFFFF 0xFFFFFFFFFFFFFFFF = 0xFFFFFFFFFFFFFFFE := by decide +kernel
theorem test_write_of_g0_discarded : ((after (placed (0x41 * 2 ^ 23 + 6 * 2 ^ 13 + 7 * 2 ^ 8) [(6, 1), (7, 1)])).slot 0 0).regs.getG 0 = Reg.full 0 := by decide +kernel

/-- R22, R53: after a simple instruction the PC is at the next word and the thread issues again 8 cycles later. -/
theorem test_tempo : (slotAfter (ar 0x41 0) 0 0).pc = 0x10004 ∧ (slotAfter (ar 0x41 0) 0 0).readyAt = 8 := by decide +kernel
/-- R26, R53: the H bit of the word holds the thread. -/
theorem test_hold_bit : (slotAfter (ar 0x41 0 + 2 ^ 30) 0 0).hold = true ∧ (slotAfter (ar 0x41 0) 0 0).hold = false := by decide +kernel

/-- Word of format CB with rs1 = 6, rs2 = 7 (R56). -/
def cb (op off : Nat) : Nat := op * 2 ^ 23 + 6 * 2 ^ 18 + 7 * 2 ^ 13 + off

/-- R98, R223: scall 3 reaches the supervisor handler with cause 0x1C3 and the word after it as its return address. -/
theorem test_scall : let x := slotAfter (0x19 * 2 ^ 23 + 3 * 2 ^ 8 + 1) 0 0
    x.scause = 0x1C3 ∧ x.sepc = 0x10004 ∧ x.st.sup = true ∧ x.st.ie = false := by decide +kernel

/-! Division, floating point and control. -/

/-- A word from its fixed bits with rd = 5, rs1 = 6, rs2 = 7. -/
def w3 (m : Nat) : Nat := m + 5 * 2 ^ 18 + 6 * 2 ^ 13 + 7 * 2 ^ 8

/-- R80: −7 / 2 is −3 with remainder −1, the result 25 cycles after issue (chapter 4). -/
theorem test_div : intDivide true 0xFFFFFFFFFFFFFFF9 2 = (-3, -1, 25) ∧ (slotAfter (w3 0x21000003) 0xFFFFFFFFFFFFFFF9 2).regs.tag (.g 5) = .pending := by decide +kernel
theorem test_div_by_zero : (intDivide true 0xFFFFFFFFFFFFFFF9 0) = (-1, -7, 24) ∧ (intDivide false 700 7) = (100, 0, 26) := by decide +kernel
/-- R80, R221: div.ck by zero traps with cause 0x041, at supervisor level while cr.tvec is 0, and leaves its destination. -/
theorem test_div_ck_traps : (slotAfter (w3 0x21000083) 7 0).st.sup = true ∧ (slotAfter (w3 0x21000083) 7 0).regs.getG 5 = Reg.full 0 := by decide +kernel
theorem test_div_ck_cause : (slotAfter (w3 0x21000083) 7 0).scause = 0x041 ∧ (slotAfter (w3 0x21000083) 7 0).sepc = 0x10000 ∧ (slotAfter (w3 0x21000083) 7 0).stval = 0 := by decide +kernel
theorem test_movz_keeps : gives (w3 0x26000000) 9 1 = 0 ∧ gives (w3 0x26000000) 9 0 = 9 := by decide +kernel
theorem test_counts : gives (0x26800000 + 5 * 2 ^ 18 + 6 * 2 ^ 13) 1 0 = 63 ∧ gives (0x26800001 + 5 * 2 ^ 18 + 6 * 2 ^ 13) 0 0 = 64 ∧ gives (0x26800002 + 5 * 2 ^ 18 + 6 * 2 ^ 13) 7 0 = 3 := by decide +kernel

/-- R83, R84: 1.0 + 2.0 = 3.0 in binary32, in binary16 and in bfloat16. -/
theorem test_fadd : gives (w3 0x28000000) 0x3F800000 0x40000000 = 0x40400000 ∧ gives (w3 0x28000002) 0x3C00 0x4000 = 0x4200 ∧ gives (w3 0x28000003) 0x3F80 0x4000 = 0x4040 := by decide +kernel
/-- 1.0 + 2^−24 is a tie in binary32 and rounds to even, with NX. -/
theorem test_fadd_tie : f32.addVal .rne false (f32.read false 0x3F800000) (f32.read false 0x33800000) = (0x3F800000, { Flags.none with nx := true }) := by decide +kernel
theorem test_fsub_order : gives (w3 0x28000004) 0x3F800000 0x40000000 = 0xBF800000 := by decide +kernel
theorem test_fsqrt : f32.sqrt .rne false (f32.read false 0x40800000) = (0x40000000, Flags.none) ∧ (f32.sqrt .rne false (f32.read false 0xBF800000)).2.nv = true := by decide +kernel
theorem test_fmin_signed_zero : (f32.minmax false false 0x00000000 0x80000000).1 = 0x80000000 := by decide +kernel
theorem test_feq_nan : (f32.cmp .eq false 0x7FC00000 0x7FC00000).1 = false := by decide +kernel
theorem test_fma_zero_times_inf : f32.fma .rne false (f32.read false 0) (f32.read false 0x7F800000) (f32.read false 0x7FC00000) = (0x7FC00000, { Flags.none with nv := true }) := by decide +kernel
/-- R87: fcvtiu.s of −0.5 gives 0 with NX under rtz and 0 with NV alone under rdn; fcvti.s under rdn gives −1 with NX (chapter 4). -/
theorem test_fcvtiu_half : fpToInt f32 .rtz false 0 (2 ^ 64 - 1) 0xFFFFFFFFBF000000 = (0, { Flags.none with nx := true })
    ∧ fpToInt f32 .rdn false 0 (2 ^ 64 - 1) 0xFFFFFFFFBF000000 = (0, { Flags.none with nv := true })
    ∧ fpToInt f32 .rdn false (-(2 ^ 63)) (2 ^ 63 - 1) 0xFFFFFFFFBF000000 = (-1, { Flags.none with nx := true }) := by decide +kernel
theorem test_fcvti_word : gives 0x2894C214 0x40600000 0 = 3 := by decide +kernel
theorem test_icvtf : gives (0x2880001C + 5 * 2 ^ 18 + 6 * 2 ^ 13) 0xFFFFFFFFFFFFFFFF 0 = 0xBF800000 := by decide +kernel

/-- R95 (chapter 4): crw cr.fcsr, g7 || fdiv.s g5, g6, g8 with g7 = 2, g6 = 1.0, g8 = +0 gives +∞ and cr.fcsr 0x12. -/
noncomputable def fcsrPair : Slot :=
  (after ((State.reset.placeWord (0x8D800000 + 7 * 2 ^ 13 + 0x030 + (0x2800000C + 5 * 2 ^ 18 + 6 * 2 ^ 13 + 8 * 2 ^ 8) * 2 ^ 32)).modSlot 0 0 (fun sl =>
    { sl with regs := ((sl.regs.setG 7 (Reg.full 2)).setG 6 (Reg.full 0x3F800000)) }))).slot 0 0
theorem test_crw_fcsr_beside_fdiv : (fcsrPair.regs.getG 5).val = 0x7F800000 ∧ fcsrPair.fcsr = { Fcsr.init with rm := .rtz, dz := true } ∧ fcsrPair.pc = 0x10008 := by decide +kernel

/-- R91, R92: beq taken goes to the word's address plus 4 times its offset, not taken to the next word. -/
theorem test_branch : (slotAfter (cb 0x10 6) 5 5).pc = 0x10018 ∧ (slotAfter (cb 0x10 6) 5 4).pc = 0x10004 ∧ (slotAfter (cb 0x12 0x1FFF) 0xFFFFFFFFFFFFFFFF 1).pc = 0xFFFC := by decide +kernel
theorem test_jal_link : (slotAfter (0x0B000000 + 5 * 2 ^ 18 + 4) 0 0).pc = 0x10010 ∧ ((slotAfter (0x0B000000 + 5 * 2 ^ 18 + 4) 0 0).regs.getG 5).val = 0x10004 := by decide +kernel
theorem test_jalr_misaligned : (slotAfter (0x0B800000 + 5 * 2 ^ 18 + 6 * 2 ^ 13 + 2) 0x20000 0).scause = 0x061 ∧ (slotAfter (0x0B800000 + 5 * 2 ^ 18 + 6 * 2 ^ 13 + 2) 0x20000 0).stval = 0x20002 := by decide +kernel
/-- R15: a read-only register cannot be written: cause 0x005. -/
theorem test_crr_hart : gives (0x0D000000 + 5 * 2 ^ 18 + 0x022) 0 0 = 384 := by decide +kernel
theorem test_crs_sets : ((after (placed (0x0E000000 + 5 * 2 ^ 18 + 6 * 2 ^ 13 + 0x030) [(6, 0x10)])).slot 0 0).fcsr = { Fcsr.init with dz := true } := by decide +kernel
/-- R97: exit frees the slot for the scrub. -/
theorem test_exit : (slotAfter 0x0C800000 0 0).occ ≠ .thread := by decide +kernel
/-- R98: brk raises cause 0x1E1, its own address saved. -/
theorem test_brk : (slotAfter 0x0C800002 0 0).scause = 0x1E1 ∧ (slotAfter 0x0C800002 0 0).sepc = 0x10000 := by decide +kernel
/-- R96, R99: sret in user mode is illegal. -/
theorem test_sret_user : (slotAfter 0x0C800004 0 0).scause = 0x001 := by decide +kernel

/-! Number formats and the vector unit (chapters 2 and 6). -/

/-- R36: codes of tap8 and tap6 from the tables of chapter 2, each as sign, magnitude and exponent of 2. -/
theorem test_decode_tap8 : [0x00, 0x80, 0x48, 0x3F, 0x0E, 0x7F, 0xC8].map (fun c => f32.roundVal .rne false (decodeTap c 7)) =
    [0, 0x7FC00000, 0x3FC00000, 0x3F780000, 0x3D400000, 0x45800000, 0xBFC00000].map (fun x => (x, Flags.none)) := by decide +kernel
theorem test_decode_tap6 : [0x20, 0x13, 0x1B, 0x1D, 0x07, 0x01, 0x27].map (fun c => f32.roundVal .rne false (decodeTap c 5)) =
    [0x7FC00000, 0x3FE00000, 0x41400000, 0x42000000, 0x3E400000, 0x3B800000, 0xBE400000].map (fun x => (x, Flags.none)) := by decide +kernel
/-- R40, R41: the block of chapter 2: 20.0, −0.75, 0.1, 19.0, −0.0001. -/
theorem test_quantise_block : let xs := [0x41A00000, 0xBF400000, 0x3DCCCCCD, 0x41980000, 0xB8D1B717].map (f32.read false)
    quantiseBlock xs 7 = ([0x6A, 0xA8, 0x0E, 0x6A, 0x00], 0x01) ∧ quantiseBlock xs 5 = ([0x18, 0x27, 0x03, 0x18, 0x00], 0x02) := by decide +kernel
theorem test_quantise_zeros : quantiseBlock (List.replicate 4 (f32.read false 0x80000000)) 7 = ([0, 0, 0, 0], 0x80) := by decide +kernel
/-- R44, R48: two chunk sums of 1.0 leave 16,777,216 unchanged, one of 2.0 gives 16,777,218; INT8 saturates. -/
theorem test_tile_chunks : tileCycle 0x4B800000 [.fin false 1 0] = 0x4B800000 ∧ tileCycle 0x4B800000 [.fin false 1 0, .fin false 1 0] = 0x4B800001
    ∧ tileCycle 0x80000000 [] = 0x80000000 ∧ intCycle 0x7FFFFFFF [.fin false 1 0] = (0x7FFFFFFF, true) := by decide +kernel
/-- R49: the pairwise tree over 16 lanes. -/
theorem test_tree : tree16 (fun a b => "(" ++ a ++ b ++ ")") "" ["0", "1", "2", "3", "4", "5", "6", "7", "8", "9", "a", "b", "c", "d", "e", "f"] = "((((01)(23))((45)(67)))(((89)(ab))((cd)(ef))))" := by decide +kernel

/-- The machine about to issue w with values in v registers. -/
def placedV (w : Nat) (l : List (Fin 16 × VWord)) (g : List (Fin 32 × Word)) : State :=
  (placed w g).modSlot 0 0 (fun sl => { sl with regs := l.foldl (fun r e => r.setV e.1 (Reg.full e.2)) sl.regs })

theorem test_vfadd_lanes : let v := (((after (placedV 0x30044300 [(2, 0x3F80000040000000), (3, 0x3F80000040400000)] [])).slot 0 0).regs.getV 1).val
    lane v 0 = 0x40A00000 ∧ lane v 1 = 0x40000000 ∧ lane v 2 = 0 := by decide +kernel
/-- R14, R158: vadd v1, v2, v3, m2 with m2 = 0 (every m register holds 0): no lane is written. -/
theorem test_vadd_masked : (((after (placedV (0x30800000 + 2 ^ 18 + 2 * 2 ^ 13 + 3 * 2 ^ 8 + 2 * 2 ^ 5) [(1, 7), (2, 1), (3, 1)] [])).slot 0 0).regs.getV 1).val = 7 := by decide +kernel
theorem test_vbcst : lane (((after (placed 0x270D2000 [(9, 0x1_2345_6789)])).slot 0 0).regs.getV 3).val 15 = 0x23456789 := by decide +kernel
theorem test_vsra_count_mod_32 : lane (((after (placedV (0x30800008 + 2 ^ 18 + 2 * 2 ^ 13 + 3 * 2 ^ 8) [(2, 0x80000000), (3, 36)] [])).slot 0 0).regs.getV 1).val 0 = 0xF8000000 := by decide +kernel
theorem test_vext : gives (0x27000002 + 5 * 2 ^ 18 + 2 * 2 ^ 13 + 6 * 2 ^ 8) 17 0 = 0 ∧
    ((((after (placedV (0x27000003 + 5 * 2 ^ 18 + 2 * 2 ^ 13 + 6 * 2 ^ 8) [(2, 0x8000000100000000)] [(6, 17)])).slot 0 0).regs.getG 5).val = 0xFFFFFFFF80000001) := by decide +kernel
theorem test_mnot : ((slotAfter (0x31800004 + 1 * 2 ^ 18 + 2 * 2 ^ 13) 0 0).regs.getM 1).val = 0xFFFF := by decide +kernel

/-! Scratchpad accesses and atomics (chapters 5 and 10). -/

/-- The machine about to issue w with bytes at the start of the own scratchpad and g6 pointing at it (R100). -/
def placedPad (w : Nat) (bs : List Byte) (g7 : Word) : State :=
  (placed w [(6, 0xC000000000000000), (7, g7)]).modCore 0 (fun k => { k with spad := Memory.setN k.spad 0 bs })
/-- g5 and the first 8 scratchpad bytes after the step. -/
noncomputable def padAfter (w : Nat) (bs : List Byte) (g7 : Word) : Word × List Byte :=
  let t := after (placedPad w bs g7)
  (((t.slot 0 0).regs.getG 5).val, Memory.getN (t.core 0).spad 0 8)

/-- A word with rd = 5, rs1 = 6 and imm13 = i. -/
def wi (m i : Nat) : Nat := m + 5 * 2 ^ 18 + 6 * 2 ^ 13 + i
theorem test_ld_b_sign : (padAfter (wi 0x00800000 1) [0x12, 0x80] 0).1 = 0xFFFFFFFFFFFFFF80 ∧ (padAfter (wi 0x01000000 1) [0x12, 0x80] 0).1 = 0x80 := by decide +kernel
theorem test_ld_w_little_endian : (padAfter (wi 0x02800000 0) [0x78, 0x56, 0x34, 0x92] 0).1 = 0xFFFFFFFF92345678 ∧ (padAfter (wi 0x03000000 0) [0x78, 0x56, 0x34, 0x92] 0).1 = 0x92345678 := by decide +kernel
theorem test_st_h : (padAfter (0x04800000 + 7 * 2 ^ 18 + 6 * 2 ^ 13 + 2) [1, 2, 3, 4, 5, 6, 7, 8] 0xABCD).2 = [1, 2, 0xCD, 0xAB, 5, 6, 7, 8] := by decide +kernel
theorem test_ld_misaligned : ((after (placedPad (wi 0x03800000 4) [] 0)).slot 0 0).scause = 0x061 ∧ ((after (placedPad (wi 0x03800000 4) [] 0)).slot 0 0).stval = 0xC000000000000004 := by decide +kernel
theorem test_stfe_waits_while_full : let full := (placedPad (0x07800002 + 5 * 2 ^ 18 + 6 * 2 ^ 13) [] 0).modCore 0 (fun k => { k with full := [0] })
    ((after full).slot 0 0).block.isSome = true ∧ ((after (placedPad (0x07800002 + 5 * 2 ^ 18 + 6 * 2 ^ 13) [] 0)).core 0).full = [0] := by decide +kernel
theorem test_ste_empties : ((after ((placedPad (0x07800004 + 5 * 2 ^ 18 + 6 * 2 ^ 13) [] 0).modCore 0 (fun k => { k with full := [0] }))).core 0).full = [] := by decide +kernel
theorem test_ldfe_empties : let t := after ((placedPad (0x07800000 + 5 * 2 ^ 18 + 6 * 2 ^ 13) [9] 0).modCore 0 (fun k => { k with full := [0] }))
    (t.core 0).full = [] ∧ ((t.slot 0 0).regs.getG 5).val = 9 := by decide +kernel
/-- R28: a load of global memory leaves its register Pending. -/
theorem test_global_load_pending : ((after (placed (wi 0x03800000 0) [(6, 0x10000)])).slot 0 0).regs.tag (.g 5) = .pending := by decide +kernel
theorem test_atom_results : atomResult .add .w32 0xFFFFFFFF 2 = 1 ∧ atomResult .max .w32 0xFFFFFFFF 1 = 1 ∧ atomResult .maxu .w32 0xFFFFFFFF 1 = 0xFFFFFFFF ∧ atomResult .swap .w64 5 9 = 9
    ∧ atomResult .min .w64 0xFFFFFFFFFFFFFFFF 1 = 0xFFFFFFFFFFFFFFFF ∧ atomResult .fadd .w32 0x3F800000 0x3F800000 = 0x40000000 := by decide +kernel

/-! Traps and the bundle (chapters 1 and 8). -/

/-- A pair word0 ‖ word1 at 0x1_0000 with values in g registers. -/
noncomputable def pairAfter (w0 w1 : Nat) (l : List (Fin 32 × Word)) (voids : List (Fin 32)) : Slot :=
  (after ((State.reset.placeWord (w0 + 2 ^ 31 + w1 * 2 ^ 32)).modSlot 0 0 (fun sl =>
    { sl with regs := voids.foldl (fun r g => r.setG g { Reg.full 0 with tag := .void }) (l.foldl (fun r e => r.setG e.1 (Reg.full e.2)) sl.regs) }))).slot 0 0
/-- R218 (chapter 8): a Void source in word1 comes before the misaligned address of word0: cause 0x021, cr.tinf 0x88. -/
theorem test_trap_order : let x := pairAfter (0x03800000 + 9 * 2 ^ 18 + 4 * 2 ^ 13) (0x20800000 + 6 * 2 ^ 18 + 7 * 2 ^ 13 + 8 * 2 ^ 8) [(4, 0xC000000000000104)] [8]
    x.scause = 0x021 ∧ x.stinf = 0x88 ∧ x.sepc = 0x10000 := by decide +kernel
/-- R25 (chapter 1): both words name g9: cause 0x002. -/
theorem test_same_destination : (pairAfter (0x03800000 + 9 * 2 ^ 18 + 4 * 2 ^ 13) (0x20800000 + 9 * 2 ^ 18 + 2 * 2 ^ 13 + 3 * 2 ^ 8) [(4, 0xC000000000000100)] []).scause = 0x002 := by decide +kernel
/-- R24 (chapter 3): ld.d g9, [g1+0] ‖ addi g2, g2, −1 reads both sources before either word writes. -/
theorem test_pair : let x := pairAfter 0x03A42000 0x21885FFF [(1, 0xC000000000000100), (2, 3)] []
    (x.regs.getG 2).val = 2 ∧ x.regs.tag (.g 9) = .full ∧ x.pc = 0x10008 := by decide +kernel
/-- R61: an unassigned word is illegal, and cr.tval holds it. -/
theorem test_illegal_word : (slotAfter 0 0 0).scause = 0x001 ∧ (slotAfter 0x1FFFFFFF 0 0).stval = 0x1FFFFFFF := by decide +kernel
/-- R222: with cr.tvec set, a user cause goes to the user handler with INTRAP set. -/
theorem test_user_delivery : let x := (after ((placed (w3 0x21000083) [(6, 7)]).modSlot 0 0 (fun sl => { sl with tvec := 0x30000 }))).slot 0 0
    x.pc = 0x30000 ∧ x.cause = 0x041 ∧ x.epc = 0x10000 ∧ x.st.intrap = true ∧ x.st.sup = false := by decide +kernel

/-! ### Witnesses

For every statement of Certificates/Slice0/Obligations.lean, states and operands that meet the hypotheses of its clauses together. -/

/-- The latch of a lone word of slot 0 of core 0 at 0x1_0000. -/
def cur0 : Cur := { Cur.init with regs := Regs.allFull, pc := 0x10000, nextPc := 0x10004 }
/-- A running thread in slot 0 of core 0, in user mode, every register Full. -/
def w0 : State := { State.reset.withFetchWord 32 0 with cur := cur0 }
/-- The same with values in g registers. -/
def wG (l : List (Fin 32 × Word)) : State := { w0 with cur := { cur0 with regs := l.foldl (fun r e => r.setG e.1 (Reg.full e.2)) Regs.allFull } }
/-- The page 0x2_0000 of context 0 at the same place, a plain or a versioned one. -/
def page (v : Bool) : TlbEntry :=
  { ctx := 0, big := false, vpn := 2, pa := 0x20000, r := true, w := true, x := true, u := true, v := v, code := true, uncached := false, home := 0, hcore := 1, used := 0 }
/-- As wG, with that page in the core's TLB, and the slot changed. -/
def wP (l : List (Fin 32 × Word)) (v : Bool) (f : Slot → Slot) : State := ((wG l).modMyCore (fun k => { k with tlb := [page v] })).modMe f
/-- The thread in slot 0 of core 0, and its followers in slot 0 of cores 1 and 2. -/
def r0 : ThreadRef := { core := 0, slot := 0, gen := 0 }
def r1 : ThreadRef := { core := 1, slot := 0, gen := 0 }
/-- An operation in flight. -/
def op0 (k : OutKind) : Outstanding := { id := 3, kind := k, pa := 0x20000, size := 8 }
/-- The thread waits, with number 7. -/
def block0 (k : BlockKind) : Block := { kind := k, id := 7, since := 0, cur := cur0, first := 0 }

/-- The one hypothesis of IntegerResults, MultiplyMoveCountResults, FloatingResults, FloatingConversionResults, VectorMoveAndMaskResults, VectorFloatResults, VectorIntegerResults, VectorConversionResults, QuantiseAndDequantiseResults, ReductionResults, PermuteAndEstimateResults, BranchResults, MaskedVectorWrites and of the second part of ConstantRegisters. -/
theorem witness_running : w0.cur.slot < 16 := by decide +kernel
theorem witness_MultiplyMoveCountResults : (wG [(7, 0)]).gval 7 = 0 ∧ (wG [(7, 1)]).gval 7 ≠ 0 := by decide +kernel
theorem witness_DivisionResultsAndTraps : Alone w0 ∧ w0.me.st.sup = false ∧ w0.gval 7 = 0 ∧ (wG [(7, 1)]).cur.slot < 16 ∧ (wG [(7, 1)]).gval 7 ≠ 0 := by unfold Alone; decide +kernel
theorem witness_JumpResults : (BitVec.ofInt 64 (((wG [(6, 0xFFFFFFFFFFFFFFFC)]).gval 6).toInt + (4 : BitVec 13).toInt)).toNat % 4 = 0
    ∧ (BitVec.ofInt 64 ((w0.gval 6).toInt + (3 : BitVec 13).toInt)).toNat % 4 ≠ 0 ∧ Alone w0 ∧ w0.me.st.sup = false := by unfold Alone; decide +kernel
/-- The thread in supervisor mode; with control register 0x010 damaged. -/
def wSup : State := w0.modMe (fun sl => { sl with st := { sl.st with sup := true } })
def wDam : State := w0.modMe (fun sl => { sl with crDamage := [0x010], regs := Regs.allFull })
theorem witness_ControlRegisterAccess : (wSup.cur.slot < 16 ∧ wSup.me.st.sup = true) ∧ (0x0FF : BitVec 12).toNat < 0x100 ∧ crWritable false 0x010 = true ∧ crWritable false 0x000 = false ∧ crWritable true 0xFFF = false
    ∧ (wDam.damagedCR wDam.cur.core wDam.cur.slot 0x010 = true ∧ (wDam.me.regs.getG 6).tag = .full ∧ (wDam.me.regs.getG 6).mark = none) ∧ (w0.me.st.sup = false ∧ 0x100 ≤ (0x100 : BitVec 12).toNat ∧ Alone w0)
    ∧ w0.myCore.shadowOf = none ∧ w0.me.gen < 65536 ∧ w0.me.idx < 2 ^ 24 ∧ w0.cur.core < podCores ∧ (w0.pkg (pkgOf w0.cur.core)).podPkg ≤ pkgOf w0.cur.core := by unfold Alone; decide +kernel
theorem witness_ControlRegisterWrites : wSup.cur.slot < 16 ∧ wSup.me.st.sup = true ∧ w0.cur.slot < 16 ∧ w0.me.st.sup = false := by decide +kernel
theorem witness_SystemInstructions : (Alone w0 ∧ w0.me.st.sup = false ∧ w0.me.st.intrap = false) ∧ (Alone wSup ∧ wSup.me.st.sup = true)
    ∧ (w0.modMe (fun sl => { sl with st := { sl.st with intrap := true } })).me.st.intrap = true := by unfold Alone; decide +kernel
/-- The thread leads a gang with a follower in slot 0 of core 1. -/
def wGang : State :=
  (w0.modMe (fun sl => { sl with gang := [r1], st := { sl.st with role := .leader } })).modSlot 1 0 (fun sl => { sl with occ := .thread, gang := [r0], st := { sl.st with role := .follower, gidx := 1 } })
theorem witness_TrapDelivery : (Alone w0 ∧ w0.me.st.sup = false) ∧ (Alone wSup ∧ wSup.me.st.sup = true) ∧ wGang.cur.slot < 16 ∧ wGang.me.st.role ≠ .independent ∧ wGang.me.st.sup = false
    ∧ wGang.myCore.mirror = none ∧ wGang.me.block = none ∧ wGang.matches_ wGang.meRef = true ∧ wGang.meRef ∈ wGang.members wGang.meRef ∧ r1 ∈ wGang.members wGang.meRef ∧ wGang.matches_ r1 = true
    ∧ ∀ m ∈ wGang.members wGang.meRef, m.slot < 16 := by unfold Alone; decide +kernel

/-- R100: an address of each class, at the ends of its range. -/
theorem witness_AddressClasses : (2 ^ 55 - 1 < 2 ^ 55) ∧ (2 ^ 55 ≤ (0x0080000000000000 : Word).toNat ∧ (0x7FFFFFFFFFFFFFFF : Word).toNat < 2 ^ 63) ∧ (ownAddr 0x3FFFF).toNat = 3 * 2 ^ 62 + 0x3FFFF
    ∧ (3 * 2 ^ 62 + 2 ^ 18 ≤ (0xC000000000040000 : Word).toNat) ∧ (0x800000003FFFFFFF : Word).toNat = 2 ^ 63 + 1 * 2 ^ 29 + 3 * 2 ^ 27 + 31 * 2 ^ 22 + 15 * 2 ^ 18 + 0x3FFFF
    ∧ (0x800000001DFFFFFF : Word).toNat = 2 ^ 63 + 0 * 2 ^ 29 + 3 * 2 ^ 27 + 23 * 2 ^ 22 + 15 * 2 ^ 18 + 0x3FFFF
    ∧ (2 ^ 63 ≤ (0x8000000006000000 : Word).toNat ∧ (0x8000000006000000 : Word).toNat < 3 * 2 ^ 62 ∧ 24 ≤ (0x8000000006000000 : Word).toNat / 2 ^ 22 % 32) := by decide
/-- g6 at the last 64 bytes of the own scratchpad; the same with a poisoned word there. -/
def wPad : State := wG [(6, ownAddr 0x3FFC0)]
def wPoison : State := wPad.modMyCore (fun k => { k with spadPoison := [(0x3FFC0 / 8, 4)] })
theorem witness_OwnScratchpadLoads : wPad.cur.slot < 16 ∧ BitVec.ofInt 64 ((wPad.gval 6).toInt + (0 : BitVec 13).toInt) = ownAddr 0x3FFC0 ∧ 0x3FFC0 % 64 = 0
    ∧ wPad.lockTrap wPad.meRef (.spad wPad.cur.core) 0x3FFC0 64 false (ownAddr 0x3FFC0) = none ∧ wPad.myCore.spadPoisonIn 0x3FFC0 64 = none
    ∧ wPoison.lockTrap wPoison.meRef (.spad wPoison.cur.core) 0x3FFC0 8 false (ownAddr 0x3FFC0) = none ∧ wPoison.myCore.spadPoisonIn 0x3FFC0 8 = some 4
    ∧ BitVec.ofInt 64 ((wPoison.gval 6).toInt + (0 : BitVec 13).toInt) = ownAddr 0x3FFC0 := by decide +kernel
theorem witness_OwnScratchpadStores : wPad.cur.slot < 16 ∧ BitVec.ofInt 64 ((wPad.gval 6).toInt + (0 : BitVec 13).toInt) = ownAddr 0x3FFC0
    ∧ wPad.lockTrap wPad.meRef (.spad wPad.cur.core) 0x3FFC0 64 true (ownAddr 0x3FFC0) = none := by decide +kernel
/-- A page that user mode may not touch; a failed walk; a write lock on the first 64 bytes of the scratchpad. -/
def wClosed : State := w0.modMyCore (fun k => { k with tlb := [{ page false with u := false }] })
def wFailed : State := w0.modMyCore (fun k => { k with tlb := [], walkFaults := [{ slot := 0, ctx := 0, vpn := 2 }] })
def wLock : State := (wG [(6, ownAddr 0)]).modMyCore (fun k => { k with locks := [{ space := .spad 0, lo := 0, hi := 64, write := true, owner := 3 }] })
theorem witness_PlainAccessTraps : (Alone w0 ∧ w0.me.st.sup = false ∧ w0.classify 0 (BitVec.ofInt 64 (((wG [(6, 0x0080000000000000)]).gval 6).toInt + (0 : BitVec 13).toInt)) = .bad 0x081)
    ∧ (w0.classify 0 0x20004 = .global ∧ (0x20004 : Word).toNat % 8 ≠ 0 ∧ (0x20000 : Word).toNat % 8 = 0)
    ∧ (wClosed.myCore.tlb.find? (fun e => e.maps wClosed.me.ctx 0x20000) = some { page false with u := false } ∧ Alone wClosed)
    ∧ (wFailed.myCore.tlb.find? (fun e => e.maps wFailed.me.ctx 0x20000) = none ∧ wFailed.myCore.walkFaults.contains { slot := wFailed.cur.slot, ctx := wFailed.me.ctx, vpn := 0x20000 / 2 ^ 16 } = true)
    ∧ (w0.myCore.tlb.find? (fun e => e.maps w0.me.ctx 0x20000) = none ∧ w0.myCore.walkFaults.contains { slot := w0.cur.slot, ctx := w0.me.ctx, vpn := 0x20000 / 2 ^ 16 } = false)
    ∧ (wLock.classify wLock.cur.core (ownAddr 0) = .spad 0 0 ∧ (wLock.lockTrap wLock.meRef (.spad 0) 0 8 false (ownAddr 0)).isSome = true) := by unfold Alone; decide +kernel
/-- g6 at the mapped page. -/
def wMap : State := wP [(6, 0x20000)] false id
def wOut (k : OutKind) : State := wP [(6, 0x20000)] false (fun sl => { sl with out := [op0 k] })
/-- A store to the first byte of the scratchpad of core 1 in flight. -/
def wOutFar : State := w0.modMe (fun sl => { sl with out := [{ op0 .remoteStore with pa := spadPlace 1 0 }] })
theorem witness_GlobalLoadsIssueAndOverlapsWait : (wMap.cur.slot < 16 ∧ wMap.cur.status = .run ∧ wMap.me.tx = none ∧ wMap.me.st.tx = false
      ∧ Mapped wMap (BitVec.ofInt 64 ((wMap.gval 6).toInt + (0 : BitVec 13).toInt)) .load (page false)
      ∧ wMap.lockTrap wMap.meRef .global 0x20000 64 false 0x20000 = none ∧ wMap.me.meets ((page false).phys 0x20000) 64 = false)
    ∧ (Mapped (wOut .globalStore) 0x20000 .load (page false) ∧ op0 .globalStore ∈ (wOut .globalStore).me.out ∧ (op0 .globalStore).kind = .globalStore
      ∧ (wOut .globalStore).lockTrap (wOut .globalStore).meRef .global 0x20000 8 false 0x20000 = none
      ∧ (op0 .globalStore).size ≠ 0 ∧ (wOut .globalStore).me.st.tx = false ∧ Mapped (wOut .globalStore) 0x20000 .store (page false) ∧ (wOut .globalStore).lockTrap (wOut .globalStore).meRef .global 0x20000 8 true 0x20000 = none
      ∧ (page false).phys 0x20000 < (op0 .globalStore).pa + (op0 .globalStore).size ∧ (op0 .globalStore).pa < (page false).phys 0x20000 + 8)
    ∧ (wOutFar.cur.slot < 16 ∧ wOutFar.me.st.tx = false ∧ (∃ o ∈ wOutFar.me.out, o.size ≠ 0 ∧ spadPlace 1 0 < o.pa + o.size ∧ o.pa < spadPlace 1 0 + 8) ∧ 1 ≠ wOutFar.cur.core ∧ wOutFar.classify wOutFar.cur.core 0x8000000000040000 = .spad 1 0
      ∧ ∀ b, wOutFar.lockTrap wOutFar.meRef (.spad 1) 0 8 b 0x8000000000040000 = none) := by unfold Mapped; decide +kernel
/-- A transaction that has written nothing, and one that has written a sector. -/
def tx0 : Tx := { time := 5, savedSnap := 0, sectors := [], failed := false, discards := false, votes := [], waiting := 0, commit := 0 }
def wTx : State := wP [(6, 0x20000)] true (fun sl => { sl with tx := some tx0, st := { sl.st with tx := true } })

/-- 32 sectors written, none of them the one at 0x2_0000. -/
def wTxFull : State := wTx.modMe (fun sl => { sl with tx := some { tx0 with sectors := (List.range 32).map (fun i => { sector := 0x30000 + 64 * i, home := 0, code := false, vas := [], data := 0, mask := 0 }) } })
/-- A transaction restored as failed. -/
def wTxLate : State := wTx.modMe (fun sl => { sl with tx := some { tx0 with failed := true, discards := true } })
/-- A mirrored pair of cores 0 and 1. -/
def mirror0 : Mirror :=
  { shadow := 1, ckSlots := [], ckShadow := [], ckAcc := [], ckAccShadow := [], store := [], logCount := 0, logShadow := 0, mismatched := false, waits := false, ckRings := [], busy := [] }
def wMir : State := wMap.modMyCore (fun k => { k with mirror := some mirror0 })
theorem witness_GlobalStoresIssue : (wMap.cur.slot < 16 ∧ wMap.cur.status = .run ∧ Mapped wMap (BitVec.ofInt 64 ((wMap.gval 6).toInt + (0 : BitVec 13).toInt)) .store (page false)
      ∧ wMap.lockTrap wMap.meRef .global 0x20000 64 true 0x20000 = none ∧ wMap.me.meets ((page false).phys 0x20000) 64 = false ∧ wMap.me.tx = none ∧ wMap.me.st.tx = false ∧ wMap.myCore.mirror = none)
    ∧ (Mapped wMir 0x20000 .store (page false) ∧ wMir.myCore.mirror = some mirror0 ∧ wMir.me.tx = none ∧ wMir.me.st.tx = false ∧ wMir.me.meets ((page false).phys 0x20000) 64 = false)
    ∧ (Mapped wTx 0x20000 .store (page true) ∧ wTx.me.tx = some tx0 ∧ wTx.me.st.tx = true ∧ pkgOfPA (page true).pa = pkgOf wTx.cur.core ∧ (page true).pa % 65536 = 0 ∧ tx0.discards = false ∧ tx0.sectors.length < 32 ∧ wTx.me.meets ((page true).phys 0x20000) 64 = false)
    ∧ (Mapped wTxLate 0x20000 .store (page true) ∧ ∃ tx, wTxLate.me.tx = some tx ∧ tx.discards = true)
    ∧ (Mapped wTxFull 0x20000 .store (page true) ∧ ∃ tx, wTxFull.me.tx = some tx ∧ tx.discards = false ∧ (∀ y ∈ tx.sectors, y.sector ≠ (page true).phys 0x20000 / 64 * 64) ∧ 32 ≤ tx.sectors.length) := by
  unfold Mapped
  refine ⟨by decide +kernel, by decide +kernel, by decide +kernel, ⟨by decide +kernel, _, rfl, rfl⟩, by decide +kernel, _, rfl, rfl, by decide +kernel, by decide +kernel⟩
/-- g6 at the first byte of the scratchpad of core 1. -/
def wFar : State := wG [(6, 0x8000000000040000)]
theorem witness_RemoteScratchpadAccesses : wFar.cur.slot < 16 ∧ wFar.cur.status = .run ∧ 1 ≠ wFar.cur.core
    ∧ wFar.classify wFar.cur.core (BitVec.ofInt 64 ((wFar.gval 6).toInt + (0 : BitVec 13).toInt)) = .spad 1 0 ∧ (0x8000000000040000 : Word).toNat % 64 = 0
    ∧ (∀ b, wFar.lockTrap wFar.meRef (.spad 1) 0 64 b 0x8000000000040000 = none) ∧ wFar.me.meets (spadPlace 1 0) 64 = false := by decide +kernel
/-- Every lane's offset is the last word of the scratchpad. -/
def wGath : State := { wG [(6, ownAddr 0)] with cur := { (wG [(6, ownAddr 0)]).cur with regs := (wG [(6, ownAddr 0)]).cur.regs.setV 7 (Reg.full (ofLanes (fun _ => 0x3FFFC))) } }
theorem witness_GatherScatterResults : wGath.cur.slot < 16 ∧ wGath.primaryOf wGath.cur.core = none ∧ (wGath.mval 0).getLsbD 15 = true
    ∧ (∀ k < 16, BitVec.ofNat 64 ((wGath.gval 6).toNat + (lane (wGath.vval 7) k).toNat) = ownAddr 0x3FFFC) ∧ 0x3FFFC < 2 ^ 18 ∧ 0x3FFFC % 4 = 0
    ∧ (∀ b, wGath.lockTrap wGath.meRef (.spad wGath.cur.core) 0x3FFFC 4 b (ownAddr 0x3FFFC) = none) ∧ wGath.myCore.spadPoisonIn 0x3FFFC 4 = none := by decide +kernel
def wPadOut : State := wPad.modMe (fun sl => { sl with out := [op0 .remoteStore] })
theorem witness_OrderedAccessResults : wPad.cur.slot < 16 ∧ wPad.cur.status = .run ∧ wPad.gval 6 = ownAddr 0x3FFC0 ∧ wPad.me.st.tx = false ∧ wPad.me.out = [] ∧ wPad.primaryOf wPad.cur.core = none
    ∧ (∀ b, wPad.lockTrap wPad.meRef (.spad wPad.cur.core) 0x3FFC0 8 b (ownAddr 0x3FFC0) = none) ∧ wPad.myCore.spadPoisonIn 0x3FFC0 8 = none := by decide +kernel
theorem witness_ReleaseWaitsAndFences : (wPadOut.cur.slot < 16 ∧ wPadOut.cur.stage = 0 ∧ wPadOut.me.out ≠ [] ∧ wPadOut.me.st.tx = false ∧ wPadOut.me.tx = none ∧ wPadOut.primaryOf wPadOut.cur.core = none
      ∧ ordReleases .rel .cl = true ∧ wPadOut.gval 6 = ownAddr 0x3FFC0 ∧ wPadOut.myCore.locks = [])
    ∧ ((wOut .remoteStore).me.out ≠ [] ∧ Mapped (wOut .remoteStore) ((wOut .remoteStore).gval 6) .atomic (page false)
      ∧ (wOut .remoteStore).lockTrap (wOut .remoteStore).meRef .global 0x20000 (widthBytes .w64) true 0x20000 = none)
    ∧ (w0.cur.status = .run ∧ w0.me.out = []) := by unfold Mapped; decide +kernel
/-- The last doubleword of the own scratchpad, empty and full. -/
def wTag : State := wG [(6, ownAddr 0x3FFF8)]
def wTagFull : State := wTag.modMyCore (fun k => { k with full := [0x3FFF8 / 8] })
theorem witness_TaggedWordResults : (wTag.cur.slot < 16 ∧ wTag.cur.status = .run ∧ wTag.gval 6 = ownAddr 0x3FFF8 ∧ wTag.lockTrap wTag.meRef (.spad wTag.cur.core) 0x3FFF8 8 true (ownAddr 0x3FFF8) = none
      ∧ wTag.primaryOf wTag.cur.core = none ∧ wTag.myCore.full.contains (0x3FFF8 / 8) = false ∧ wTag.me.out = [] ∧ wTag.myCore.spadPoisonIn 0x3FFF8 8 = none)
    ∧ (wTagFull.gval 6 = ownAddr 0x3FFF8 ∧ wTagFull.myCore.full.contains (0x3FFF8 / 8) = true) := by decide +kernel
theorem witness_HomeOperationsIssue : wMap.cur.slot < 16 ∧ wMap.cur.status = .run ∧ wMap.me.st.tx = false ∧ Mapped wMap (wMap.gval 6) .atomic (page false)
    ∧ wMap.lockTrap wMap.meRef .global (wMap.gval 6).toNat 8 true (wMap.gval 6) = none ∧ wMap.lockTrap wMap.meRef .global (wMap.gval 6).toNat 4 true (wMap.gval 6) = none
    ∧ (wMap.gval 6).toNat % 8 = 0 ∧ wMap.me.meets ((page false).phys (wMap.gval 6).toNat) 8 = false ∧ wMap.me.out = [] := by unfold Mapped; decide +kernel
/-- In a transaction, with a page that is not versioned. -/
def wTxPlain : State := wP [(6, 0x20000)] false (fun sl => { sl with tx := some tx0, st := { sl.st with tx := true } })
theorem witness_TransactionAccessTraps : Alone wTxPlain ∧ wTxPlain.me.st.sup = false ∧ wTxPlain.me.st.tx = true ∧ Mapped wTxPlain (wTxPlain.gval 6) .atomic (page false) ∧ wTxPlain.myCore.locks = []
    ∧ (wTxPlain.gval 6).toNat % 8 = 0 ∧ Scope.cl ≠ .th ∧ (page false).v = false
    ∧ Mapped wTxPlain (BitVec.ofInt 64 ((wTxPlain.gval 6).toInt + (0 : BitVec 13).toInt)) .load (page false) ∧ Mapped wTxPlain (BitVec.ofInt 64 ((wTxPlain.gval 6).toInt + (0 : BitVec 13).toInt)) .store (page false)
    ∧ (0x20000 : Word).toNat % 64 = 0 := by unfold Alone Mapped; decide +kernel

theorem no_watch (x : Option Monitor) (p : MonAt) (h : x.any (fun m => m.at_ = p) = false) : ¬ ∃ m, x = some m ∧ m.at_ = p := by
  rintro ⟨m, rfl, rfl⟩; simp at h
/-- Four monitors that watch other blocks; one that watches the first block of the scratchpad. -/
def mon0 (off : Nat) : Monitor := { at_ := .spad 0 (off / 64), va := ownAddr off, from_ := 0, latched := false }
def wMon1 : State := (wG [(6, ownAddr 0)]).modMe (fun sl => { sl with monitors := sl.monitors.setIfInBounds 0 (some (mon0 0)) })
def wMon4 : State := (wG [(6, ownAddr 0)]).modMe (fun sl => { sl with monitors := Vector.replicate 4 (some (mon0 64)) })
theorem witness_MonitorFillOpenResults : (w0.cur.slot < 16 ∧ w0.cur.status = .run ∧ (wG [(6, ownAddr 0)]).gval 6 = ownAddr 0 ∧ (wG [(6, ownAddr 0)]).lockTrap (wG [(6, ownAddr 0)]).meRef (.spad 0) 0 1 false (ownAddr 0) = none
      ∧ ∀ i < 4, (wG [(6, ownAddr 0)]).me.monitor i = none)
    ∧ (wMon1.gval 6 = ownAddr 0 ∧ (∃ m, wMon1.me.monitor 0 = some m ∧ m.at_ = .spad wMon1.cur.core (0 / 64)) ∧ wMon1.lockTrap wMon1.meRef (.spad 0) 0 1 false (ownAddr 0) = none)
    ∧ (wMon4.gval 6 = ownAddr 0 ∧ (∀ i < 4, ¬ ∃ m, wMon4.me.monitor i = some m ∧ m.at_ = .spad wMon4.cur.core (0 / 64)) ∧ (∀ i < 4, wMon4.me.monitor i ≠ none) ∧ ∃ i < 4, wMon4.me.monitor i ≠ none)
    ∧ (Mapped wMap (wMap.gval 6) .load (page false) ∧ wMap.lockTrap wMap.meRef .global 0x20000 1 false 0x20000 = none ∧ (∀ i < 4, wMap.me.monitor i = none) ∧ wMap.me.st.tx = false ∧ wMap.me.mlim = 0)
    ∧ (wFar.classify wFar.cur.core (wFar.gval 6) = .spad 1 0 ∧ 1 ≠ wFar.cur.core ∧ wFar.lockTrap wFar.meRef (.spad 1) 0 1 false (wFar.gval 6) = none ∧ ∀ i < 4, wFar.me.monitor i = none)
    ∧ (w0.gval 6 = 0 ∧ 0 / 2 ^ 7 % 2 ^ 17 = 0 ∧ 0 / 2 ^ 5 % 4 = 0 ∧ 0 / 2 ^ 55 ≤ (w0.pkg (pkgOf w0.cur.core)).podN ∧ 0 / 2 ^ 48 % 32 < 24)
    ∧ ((wG [(6, 0x60)]).gval 6 = 0x60 ∧ (0x60 / 2 ^ 5 % 4 = 3) ∧ Alone (wG [(6, 0x60)]) ∧ (wG [(6, 0x60)]).me.st.sup = false) := by
  unfold Mapped Alone
  refine ⟨by decide +kernel, ⟨by decide +kernel, ⟨mon0 0, by decide +kernel, by decide +kernel⟩, by decide +kernel⟩, ⟨by decide +kernel, fun i hi => no_watch _ _ ?_, by decide +kernel, by decide +kernel⟩, by decide +kernel, by decide +kernel, by decide +kernel, by decide +kernel⟩
  interval_cases i <;> decide +kernel

/-- The barrier 1 of scope .cl of the launch of slot 0. -/
def bar0 : BarRef := { launch := 0, scope := .cl, inst := 0, b := 1 }
/-- A party that has not arrived; that has, in the phase in progress, or whose arrival stands; whose phase has ended; a follower. -/
def wBar (l : List BarArrival) (phase : Nat) (p : Option CoreKey) : State :=
  { (w0.modMe (fun sl => { sl with place := p, bars := l })) with barriers := [{ bar := bar0, phase := phase, arrived := [], count := 0, time := 0 }] }
def arr0 (b : Bool) : BarArrival := { bar := bar0, phase := 0, stands := b }
def wFollow : State := w0.modMe (fun sl => { sl with st := { sl.st with role := .follower } })
theorem witness_BarrierAndContextCompletion : (∀ e : Scope, ∀ ph ∈ [0, 1], let s := wBar [] ph (some 0)
      s.cur.slot < 16 ∧ s.cur.status = .run ∧ s.me.st.role ≠ .follower ∧ s.me.place = some 0 ∧ (s.gval 7).toNat < 2 ^ 56 ∧ s.me.out = [] ∧ s.me.arrival { launch := s.me.launch, scope := e, inst := instanceOf e 0, b := (1 : Fin 4).val } = none)
    ∧ bar0 = { launch := w0.me.launch, scope := .cl, inst := instanceOf .cl 0, b := (1 : Fin 4).val }
    ∧ (∀ b, let s := wBar [arr0 b] 1 (some 0); s.me.arrival bar0 = some (arr0 b) ∧ (arr0 b).stands = b ∧ (arr0 b).phase < (s.barrier bar0).phase ∧ (arr0 b).phase ≠ (s.barrier bar0).phase) := by
  refine ⟨fun e => ?_, by decide +kernel, by decide +kernel⟩
  cases e <;> decide +kernel
theorem witness_BarrierAndContextWaitsAndTraps : (w0.cur.slot < 16 ∧ w0.cur.status = .run ∧ wFollow.me.st.role = .follower)
    ∧ (∀ b, let s := wBar [arr0 b] 0 (some 0); s.me.st.role ≠ .follower ∧ s.me.place = some 0 ∧ s.me.arrival bar0 = some (arr0 b) ∧ (s.barrier bar0).phase ≤ (arr0 b).phase ∧ (arr0 b).phase = (s.barrier bar0).phase ∧ (arr0 b).stands = b
      ∧ (s.gval 7).toNat < 2 ^ 56 ∧ Alone s ∧ s.me.st.sup = false)
    ∧ (Alone (wBar [] 0 none) ∧ (wBar [] 0 none).me.st.sup = false ∧ (wBar [] 0 none).me.place = none)
    ∧ (2 ^ 56 ≤ (0x0100000000000000 : Word).toNat ∧ Alone (wBar [] 0 (some 0)) ∧ (wBar [] 0 (some 0)).me.arrival bar0 = none) := by unfold Alone; decide +kernel

/-- A message of 256 bytes from the end of the own scratchpad to core 0; a mailbox that holds one; one that holds none. -/
def wMsg (l : List RingMsg) (n : Word) : State := (wG [(6, ownAddr 0x3FF00), (7, n)]).modMyCore (fun k => { k with rings := l })
/-- The same bundle as it looks again at the end of its cycle. -/
def late (s : State) : State := { s with cur := { s.cur with stage := 1 } }
def msg0 : RingMsg := { ring := 7, place := 0, sender := r0, len := 256 }
theorem witness_MessageResults : ((wMsg [] 256).cur.slot < 16 ∧ (wMsg [] 256).cur.status = .run ∧ 0x3FF00 < 2 ^ 18 ∧ 0x3FF00 % 8 = 0 ∧ ((wMsg [] 256).gval 7).toNat = 256 ∧ 256 / 2 ^ 12 % 2 ^ 32 = 0 ∧ 256 % 512 = 256
      ∧ 256 / 2 ^ 55 ≤ ((wMsg [] 256).pkg (pkgOf (wMsg [] 256).cur.core)).podN ∧ 256 / 2 ^ 48 % 32 < 24 ∧ (wMsg [] 256).gval 6 = ownAddr 0x3FF00 ∧ 0x3FF00 + 256 ≤ 2 ^ 18
      ∧ (wMsg [] 256).lockTrap (wMsg [] 256).meRef (.spad 0) 0x3FF00 256 false (ownAddr 0x3FF00) = none)
    ∧ (Alone (wMsg [] 0) ∧ ((wMsg [] 0).gval 7).toNat = 0 ∧ ¬ 1 ≤ 0 % 512 ∧ (wMsg [] 0).me.st.sup = false) ∧ (3 < ((wMsg [] 4).gval 7).toNat ∧ Alone (wMsg [] 4) ∧ (wMsg [] 4).me.st.sup = false)
    ∧ ((wMsg [] 3).cur.stage = 0 ∧ (wMsg [] 3).myCore.oldest (2 * 3 + 1) = none)
    ∧ (((wMsg [] 3).gval 7).toNat ≤ 3 ∧ (wMsg [] 3).gval 6 = ownAddr 0x3FF00 ∧ (late (wMsg [] 3)).cur.stage ≠ 0 ∧ (late (wMsg [] 3)).cur.status = .run ∧ (wMsg [] 3).myCore.nextMessage 3 = none ∧ (wMsg [] 3).lockTrap (wMsg [] 3).meRef (.spad 0) 0x3FF00 1 true (ownAddr 0x3FF00) = none)
    ∧ (((wMsg [msg0] 3).gval 7).toNat ≤ 3 ∧ (wMsg [msg0] 3).primaryOf 0 = none ∧ (late (wMsg [msg0] 3)).cur.stage ≠ 0 ∧ (wMsg [msg0] 3).myCore.nextMessage 3 = some msg0 ∧ (wMsg [msg0] 3).myCore.oldest (2 * 3 + 1) = some msg0 ∧ 1 ≤ msg0.len
      ∧ (wMsg [msg0] 3).lockTrap (wMsg [msg0] 3).meRef (.spad 0) 0x3FF00 msg0.len true (ownAddr 0x3FF00) = none) := by unfold Alone; decide +kernel

/-- A page that names core 0; a thread that holds a snapshot, that owns an accumulator, that leads a gang, each with the page of core 1. -/
def wOwnPage : State := wMap.modMyCore (fun k => { k with tlb := [{ page false with hcore := 0 }] })
def wSnap : State := wMap.modMe (fun sl => { sl with snapThread := true })
def wAcc : State := wMap.modMyCore (fun k => { k with accOwn := k.accOwn.setIfInBounds 1 (some 0) })
def wLeads : State := wMap.modMe (fun sl => { sl with gang := [r1], st := { sl.st with role := .leader } })
theorem witness_BarrierAndContextCompletion_contexts : (wMap.cur.slot < 16 ∧ wMap.cur.status = .run ∧ (wMap.gval 6).toNat < 2 ^ 55 ∧ wMap.myCore.tlb.find? (fun e => e.maps wMap.me.ctx (wMap.gval 6).toNat) = some (page false)
      ∧ wMap.me.st.tx = false ∧ wMap.myCore.flying < 64 ∧ (wMap.gval 7).toNat % 4 = 0 ∧ wMap.ownsAcc = false ∧ wMap.me.snapThread = false ∧ wMap.me.st.role = .independent ∧ wMap.me.out = [] ∧ (page false).hcore ≠ wMap.cur.core)
    ∧ (wOwnPage.myCore.tlb.find? (fun e => e.maps wOwnPage.me.ctx (wOwnPage.gval 6).toNat) = some { page false with hcore := 0 } ∧ 0 = wOwnPage.cur.core ∧ wOwnPage.me.st.tx = false ∧ wOwnPage.ownsAcc = false ∧ wOwnPage.me.snapThread = false
      ∧ wOwnPage.me.st.role = .independent ∧ wOwnPage.me.out = []) := by decide +kernel
theorem witness_BarrierAndContextWaitsAndTraps_contexts : (∀ s ∈ [wMap, wTxPlain, wSnap, wAcc, wLeads], s.cur.slot < 16 ∧ s.cur.status = .run ∧ (s.gval 6).toNat < 2 ^ 55
      ∧ s.myCore.tlb.find? (fun e => e.maps s.me.ctx (s.gval 6).toNat) = some (page false) ∧ s.me.out = [])
    ∧ ((3 : Word).toNat % 4 ≠ 0 ∧ Alone wMap ∧ wMap.me.st.sup = false) ∧ (Alone wTxPlain ∧ wTxPlain.me.st.sup = false ∧ wTxPlain.me.st.tx = true ∧ (wTxPlain.gval 7).toNat % 4 = 0)
    ∧ (wAcc.me.st.tx = false ∧ wAcc.ownsAcc = true) ∧ (wSnap.me.st.tx = false ∧ wSnap.ownsAcc = false ∧ wSnap.me.snapThread = true)
    ∧ (wLeads.me.st.tx = false ∧ wLeads.ownsAcc = false ∧ wLeads.me.snapThread = false ∧ wLeads.me.st.role ≠ .independent) := by unfold Alone; decide +kernel

/-- A launch placed on cores 0 to 3. -/
def launch0 : Launch :=
  { num := 0, die := 0, ctx := 0, record := [], recordAddr := 0, queue := none, host := false, clusters := [0], cores := [0, 1, 2, 3], slots := [(0, 0)], tpc := 1, scrubs := 0, base := 0, tau := 1, snap := 0, phase := 0, alive := 1
    retired := [], rooks := [], rooksDone := [], graph := [], acks := [], wsl := [], aborted := none, notify := none }
def wLead : State := { wGang with cur := (wG [(6, 1)]).cur }
def wGang3 : State := { wG [(6, 3)] with launches := [launch0] }
theorem witness_GangResults : (wGang3.cur.slot < 16 ∧ wGang3.me.out = [] ∧ (wGang3.gval 6).toNat = 3 ∧ wGang3.me.st.role = .independent ∧ wGang3.mirroredLaunch = false
      ∧ wGang3.launch? wGang3.me.launch = some launch0
      ∧ ∀ k, 1 ≤ k → k ≤ 3 → (wGang3.slot (wGang3.cur.core / 4 * 4 + (wGang3.cur.core % 4 + k) % 4) wGang3.cur.slot).occ = .free ∧ wGang3.cur.core / 4 * 4 + (wGang3.cur.core % 4 + k) % 4 ∈ launch0.cores)
    ∧ ((w0.gval 6).toNat = 0 ∧ 3 < ((wG [(6, 4)]).gval 6).toNat)
    ∧ (wLead.cur.slot < 16 ∧ wLead.me.out = [] ∧ (wLead.gval 6).toNat = 1 ∧ wLead.me.st.role ≠ .independent)
    ∧ ((wG [(6, 1)]).me.st.role = .independent ∧ (wG [(6, 1)]).launch? (wG [(6, 1)]).me.launch = none ∧ ((wG [(6, 1)]).gval 6).toNat = 1) := by
  refine ⟨⟨by decide +kernel, by decide +kernel, by decide +kernel, by decide +kernel, by decide +kernel, by decide +kernel, fun k h1 h2 => ?_⟩, by decide +kernel, by decide +kernel, by decide +kernel⟩
  interval_cases k <;> decide +kernel

def wTxFailed : State := wTx.modMe (fun sl => { sl with tx := some { tx0 with failed := true } })
def wTxOne : State := wTx.modMe (fun sl => { sl with tx := some { tx0 with sectors := [{ sector := 0x20000, home := 0, code := false, vas := [0x20000], data := 0, mask := 1 }] } })
def wTxBusy : State := (w0.modSlot 0 1 (fun sl => { sl with tx := some tx0 })).modSlot 0 2 (fun sl => { sl with tx := some tx0 })
def wTx4 : State := (wTxBusy.modSlot 0 3 (fun sl => { sl with tx := some tx0 })).modSlot 0 4 (fun sl => { sl with tx := some tx0 })
theorem witness_SnapshotTransactionResults : (w0.cur.slot < 16 ∧ w0.cur.status = .run ∧ w0.primaryOf w0.cur.core = none ∧ w0.me.st.tx = false ∧ w0.myCore.openTx < 4 ∧ w0.me.snapThread = false ∧ w0.holdsSnapshot w0.meRef = false ∧ w0.me.tx = none)
    ∧ (4 ≤ wTx4.myCore.openTx ∧ wTx4.me.st.tx = false ∧ wTx4.primaryOf 0 = none) ∧ (wSnap.me.snapThread = true ∧ wSnap.me.st.tx = false)
    ∧ (∃ t, wTxFailed.me.tx = some t ∧ t.failed = true) ∧ (wTx.me.tx = some tx0 ∧ tx0.failed = false ∧ tx0.sectors = []) ∧ (∃ t, wTxOne.me.tx = some t ∧ t.failed = false ∧ t.sectors ≠ [])
    ∧ (Alone wTx ∧ wTx.me.st.sup = false ∧ wTx.me.st.tx = true) := by
  unfold Alone
  exact ⟨by decide +kernel, by decide +kernel, by decide +kernel, ⟨_, rfl, rfl⟩, by decide +kernel, ⟨_, rfl, rfl, by decide⟩, by decide +kernel⟩

/-- g6 at the last byte of the page, g7 a length; an image of stub 0 in the cluster's cache. -/
def wPub (k : Word) : State := wP [(6, 0x2FFFF), (7, k)] false id
def wImg : State := w0.modClu 0 (fun k => { k with images := [{ ctx := 0, fid := 1023, img := [], used := 0 }] })
def wPubBad : State := wPub 65537
def wNoCode : State := (wPub 1).modMyCore (fun k => { k with tlb := [{ page false with code := false }] })
theorem witness_PublishLoadLaunchResults : ((wPub 1).cur.slot < 16 ∧ (wPub 1).cur.status = .run ∧ ((wPub 1).gval 6).toNat < 2 ^ 55 ∧ (wPub 1).myCore.tlb.find? (fun e => e.maps (wPub 1).me.ctx ((wPub 1).gval 6).toNat) = some (page false)
      ∧ ((wPub 1).gval 7).toNat ≤ 65536 ∧ ((wPub 1).gval 6).toNat / 65536 = (((wPub 1).gval 6).toNat + ((wPub 1).gval 7).toNat - 1) / 65536 ∧ (page false).u = true ∧ (page false).r = true ∧ (page false).code = true
      ∧ (wPub 1).me.st.tx = false ∧ (wPub 1).me.out = [])
    ∧ (wNoCode.myCore.tlb.find? (fun e => e.maps wNoCode.me.ctx (wNoCode.gval 6).toNat) = some { page false with code := false } ∧ Alone wNoCode ∧ wNoCode.me.st.sup = false)
    ∧ (65536 < (wPubBad.gval 7).toNat ∧ Alone wPubBad ∧ wPubBad.me.st.sup = false ∧ (wPubBad.gval 6).toNat < 2 ^ 55)
    ∧ (((wImg.clu wImg.myClu).cached wImg.me.ctx 1023).isSome = true ∧ 0x3FF % 1024 = 1023 ∧ wImg.cur.status = .run ∧ ((w0.clu w0.myClu).cached w0.me.ctx ((w0.gval 6).toNat % 1024)).isSome = false)
    ∧ ((wMap.gval 6).toNat % 256 = 0 ∧ wMap.myCore.tlb.find? (fun e => e.maps wMap.me.ctx (wMap.gval 6).toNat) = some (page false) ∧ permitted (page false) .load wMap.me.st.sup = true ∧ wMap.myCore.locks = []
      ∧ wMap.me.st.tx = false ∧ wMap.me.out = []) := by unfold Alone; decide +kernel

/-! The engines. -/

/-- A at the last place of the own scratchpad, the weight record at handle 0; the accumulator 1 of slot 3; a format that is none. -/
def wTile : State := { (wG [(6, ownAddr (262144 - 12288)), (7, 0)]) with launches := [{ launch0 with record := [0, 0x30] }] }
def wForeign : State := wTile.modMyCore (fun k => { k with accOwn := k.accOwn.setIfInBounds 1 (some 3) })
def wNoFmt : State := wTile.modMe (fun sl => { sl with mfmt := 5 })
theorem witness_TileCommandsQueueOrAreRefused : (wTile.cur.slot < 16 ∧ wTile.cur.status = .run ∧ wTile.primaryOf wTile.cur.core = none ∧ AccFree wTile 1 ∧ 1 ∉ wTile.myCore.accDamage
      ∧ tileFmtOf wTile.me.mfmt.toNat = some .tap8 ∧ wTile.gval 6 = ownAddr (262144 - 12288) ∧ (262144 - 12288) % 64 = 0 ∧ 262144 - 12288 + 32 * tileRow false ≤ 2 ^ 18
      ∧ wTile.me.ascl.toNat + 32 * tileScales .tap8 false ≤ 2 ^ 18 ∧ (wTile.gval 7).toNat % 64 = 0 ∧ (wTile.gval 7).toNat + tileRecord .tap8 false ≤ 2 ^ 24 ∧ (∀ l ∈ wTile.myCore.locks, l.space = .weights → l.write = false)
      ∧ wTile.fourPerQuad = true ∧ wTile.myCore.locks.length < 16) := by unfold AccFree; decide +kernel
theorem witness_TileCommandsQueueOrAreRefused_refusals : (Alone wNoFmt ∧ wNoFmt.me.st.sup = false ∧ 4 < wNoFmt.me.mfmt.toNat) ∧ (Alone wForeign ∧ wForeign.myCore.accOwn[1] = some 3 ∧ (3 : Fin 16).val ≠ wForeign.cur.slot ∧ wForeign.me.mfmt.toNat ≤ 4)
    ∧ (Alone w0 ∧ AccFree w0 1 ∧ 1 ∉ w0.myCore.accDamage ∧ (w0.gval 6).toNat < 2 ^ 62) ∧ ((wG [(6, ownAddr 0x3FFFF)]).gval 6 = ownAddr 0x3FFFF ∧ 0x3FFFF % 64 ≠ 0 ∧ AccFree (wG [(6, ownAddr 0x3FFFF)]) 1)
    ∧ ((wG [(6, ownAddr 0), (7, 32)]).gval 6 = ownAddr 0 ∧ ((wG [(6, ownAddr 0), (7, 32)]).gval 7).toNat % 64 ≠ 0 ∧ (wG [(6, ownAddr 0), (7, 32)]).me.ascl.toNat + 1152 ≤ 2 ^ 18) := by unfold Alone AccFree; decide +kernel
/-- The accumulator 1 owned; a command on it queued; a record of a drain on it. -/
def cmd0 : TileCmd :=
  { id := 3, thread := r0, op := .mma, acc := 1, issue := 0, fmt := .tap8, kv := 384, aOff := 0, aScale := [], bad := none, handle := 0, ctx := 0, sup := false, launch := 0, join := 0 }
def wOwn : State := w0.modMyCore (fun k => { k with accOwn := k.accOwn.setIfInBounds 1 (some 0) })
def wQueued : State := wOwn.modMyCore (fun k => { k with tile := { k.tile with queue := [cmd0] } })
def wRecord : State := w0.modMe (fun sl => { sl with drainRecs := [(1, { cause := 0x0E2, tval := 0, tinf := 0 })] })
theorem witness_EngineWaitCompletion : (w0.cur.slot < 16 ∧ w0.cur.status = .run ∧ w0.primaryOf w0.cur.core = none ∧ AccFree w0 1 ∧ w0.myCore.tilePending w0.meRef 1 = [] ∧ 1 ∉ w0.myCore.accDamage ∧ w0.myCore.accOwn[1] = none)
    ∧ (AccFree wOwn 1 ∧ wOwn.myCore.tilePending wOwn.meRef 1 = [] ∧ 1 ∉ wOwn.myCore.accDamage ∧ wOwn.myCore.accOwn[1] ≠ none ∧ wOwn.myCore.tile.queue.length < 2) := by unfold AccFree; decide +kernel
theorem witness_EngineWaitsAndTraps : (wQueued.cur.slot < 16 ∧ wQueued.cur.status = .run ∧ wQueued.primaryOf wQueued.cur.core = none ∧ (∀ o, wQueued.myCore.accOwn[1] = some o → o.val = wQueued.cur.slot) ∧ wQueued.myCore.tilePending wQueued.meRef 1 ≠ []
      ∧ wQueued.myCore.accOwn[1] ≠ none)
    ∧ (Alone wRecord ∧ wRecord.me.st.sup = false ∧ (∀ o, wRecord.myCore.accOwn[1] = some o → o.val = wRecord.cur.slot) ∧ wRecord.myCore.tilePending wRecord.meRef 1 = []
      ∧ wRecord.me.drainRecs.find? (fun r => r.1 = 1) = some (1, { cause := 0x0E2, tval := 0, tinf := 0 })) := by unfold Alone; decide +kernel
/-- A copy of 64 bytes within the own scratchpad; the same onto itself; met by a lock; weights to load, in and out of the window. -/
def wCopy (dst : Nat) (locks : List RangeLock) : State := (wG [(4, ownAddr dst), (5, ownAddr 0), (6, 64)]).modMyCore (fun k => { k with locks := locks })
def wLoadW (o : Option Nat) : State := ((wP [(4, 0), (5, 0x20000), (6, 64)] false id).modClu 0 (fun k => { k with window := o }))
theorem witness_CopyCommandsQueue : let s := wCopy 0x3FFC0 []
    (s.cur.slot < 16 ∧ s.cur.status = .run ∧ (Instr.cpy 4 5 6, CopyKind.cpy, s.gval 4, (0 : Word), s.gval 5, (0 : Word), s.gval 6) ∈ copyForms s 4 5 6 ∧ s.copyCheck .cpy (s.gval 4) 0 (s.gval 5) 0 (s.gval 6) = none
      ∧ (s.copyRanges s.cur.core .cpy (s.gval 4) 0 (s.gval 5) 0 (s.gval 6)).any s.myCore.lockConflict = false
      ∧ s.myCore.locks.length + (s.copyRanges s.cur.core .cpy (s.gval 4) 0 (s.gval 5) 0 (s.gval 6)).length ≤ 16) := by
  refine ⟨by decide +kernel, by decide +kernel, ?_, by decide +kernel, by decide +kernel, by decide +kernel⟩
  simp [copyForms]
theorem witness_CopyCommandsRefused : (let s := wCopy 0x3FFC0 [{ space := .spad 0, lo := 0, hi := 1, write := true, owner := 3 }]
      s.copyCheck .cpy (s.gval 4) 0 (s.gval 5) 0 (s.gval 6) = none ∧ (s.copyRanges s.cur.core .cpy (s.gval 4) 0 (s.gval 5) 0 (s.gval 6)).any s.myCore.lockConflict = true)
    ∧ (let s := wCopy 0 []
      Alone s ∧ s.me.st.sup = false ∧ s.copyCheck .cpy (s.gval 4) 0 (s.gval 5) 0 (s.gval 6) = some (4, s.gval 4))
    ∧ (let s := wLoadW (some 0)
      s.copyCheck .wsld (s.gval 4) 0 (s.gval 5) 0 (s.gval 6) = none ∧ (s.clu s.myClu).window = some s.me.launch)
    ∧ (let s := wLoadW none
      Alone s ∧ s.me.st.sup = false ∧ s.copyCheck .wsld (s.gval 4) 0 (s.gval 5) 0 (s.gval 6) = none ∧ (s.clu s.myClu).window ≠ some s.me.launch) := by unfold Alone; decide +kernel
/-- A copy of 64 bytes in the engine, stopped or not; a sync word whose generation is 5. -/
def copy0 (stop : Option TrapVal) : CopyCmd :=
  { id := 3, thread := r0, kind := .cpy, word := 0, dst := ownAddr 64, dst2 := 0, src := ownAddr 0, src2 := 0, gc := 64, ctx := 0, sup := false, launch := 0, place := none, blocks := [], next := 0, credit := 64
    started := false, issue := 0, stopped := stop, slip := 0, writeAt := 0 }
def wEngine (stop : Option TrapVal) : State := w0.modMyCore (fun k => { k with copy := { k.copy with cmds := [copy0 stop] } })
def wSync (g7 : Word) : State := (wG [(6, ownAddr 0x3FFF0), (7, g7)]).modMyCore (fun k => { k with spad := Memory.setN k.spad 0x3FFFE [5] })
theorem witness_EngineWaitCompletion_copy : (w0.myCore.copyDone w0.meRef = true ∧ w0.me.copyEnd ≤ w0.cycle ∧ w0.myCore.copyFault w0.meRef = none)
    ∧ (let s := wEngine (some { cause := 0x081, tval := 0, tinf := 0 })
      s.cur.slot < 16 ∧ s.cur.status = .run ∧ s.primaryOf s.cur.core = none ∧ s.hasStopped = true ∧ ∃ c ∈ s.myCore.copy.cmds, s.myCore.copy.cmds.find? (fun c => c.thread = s.meRef && c.stopped.isSome) = some c ∧ c.hasStopped = true)
    ∧ (0x3FFF0 < 2 ^ 18 ∧ 0x3FFF0 % 16 = 0 ∧ (wSync 4).gval 6 = ownAddr 0x3FFF0 ∧ (∀ b, (wSync 4).lockTrap (wSync 4).meRef (.spad 0) 0x3FFF0 16 b (ownAddr 0x3FFF0) = none)
      ∧ bytesNat (Memory.getN (wSync 4).myCore.spad 0x3FFF0 16) / 2 ^ 112 = 5 ∧ 5 ≠ ((wSync 4).gval 7).toNat % 2 ^ 16) := by decide +kernel
theorem witness_EngineWaitsAndTraps_copy : ((wEngine none).cur.slot < 16 ∧ (wEngine none).cur.status = .run ∧ (wEngine none).myCore.copyDone (wEngine none).meRef = false)
    ∧ (let s := wEngine (some { cause := 0x081, tval := 0, tinf := 0 })
      Alone s ∧ s.me.st.sup = false ∧ s.primaryOf s.cur.core = none ∧ s.myCore.copyDone s.meRef = true ∧ s.me.copyEnd ≤ s.cycle ∧ s.myCore.copyFault s.meRef = some { cause := 0x081, tval := 0, tinf := 0 })
    ∧ (Alone w0 ∧ w0.me.st.sup = false ∧ w0.hasStopped = false)
    ∧ ((wSync 5).gval 6 = ownAddr 0x3FFF0 ∧ (wSync 5).lockTrap (wSync 5).meRef (.spad 0) 0x3FFF0 16 false (ownAddr 0x3FFF0) = none
      ∧ bytesNat (Memory.getN (wSync 5).myCore.spad 0x3FFF0 16) / 2 ^ 112 = ((wSync 5).gval 7).toNat % 2 ^ 16) := by unfold Alone; decide +kernel
theorem witness_ServerCallResults : (w0.cur.slot < 16 ∧ w0.cur.status = .run ∧ ¬ ∃ o ∈ w0.me.out, o.kind = .globalStore ∨ o.kind = .reduction ∨ o.kind = .atomic)
    ∧ ((wOut .atomic).cur.slot < 16 ∧ (wOut .atomic).cur.stage = 0 ∧ (wOut .atomic).primaryOf 0 = none ∧ ∃ o ∈ (wOut .atomic).me.out, o.kind = .globalStore ∨ o.kind = .reduction ∨ o.kind = .atomic) := by decide +kernel

/-! Events. The thread is that of slot 0 of core 0 in cycle 10; other keys are those that the clauses name. -/

/-- In cycle 10, phase p, with the slot changed. -/
def wE (p : Nat) (f : Slot → Slot) : State := { w0.modMe f with now := 40 + p }
def wPend : State := wE 0 (fun sl => { sl with regs := sl.regs.retag .pending (.g 5), out := [op0 .long] })
def done0 : Completion := { thread := r0, id := 3, dst := .g 5, va := 0, val := 9, mark := none, raise := 0, issue := 0, word := 0 }
def wOpen : State := wE 0 (fun sl => { sl with regs := sl.regs.retag .opened (.g 5) })
def fill0 : FillMsg := { sender := r0, target := r0, dst := .g 5, val := 9, time := 0, ctx := 0, id := 3, bad := none }
/-- The wait for an Open source has reached its limit of 1,048,576 cycles. -/
def wLimit : State := { w0.modMe (fun sl => { sl with openSince := some (0, 5) }) with now := 4 * 1048576 + 2 }
def wInt : State := wE 1 (fun sl => { sl with ints := [{ code := 0x1E0, info := 3 }] })
def wDrain (o : List Outstanding) : State := wE 2 (fun sl => { sl with occ := .draining, out := o })
def wScrub : State := wE 0 (fun sl => { sl with occ := .scrubbing })
def ctx0 : CtxMsg :=
  { spawn := true, sender := r0, id := 7, target := 0, pc := 0x20000, statusDw := 0, args := List.replicate 8 5, marks := [], idx := 0, launch := 0, ctx := 0, time := 0, place := some 0, ints := [] }
/-- Slot 1 of core 0 free, or every slot taken. -/
def wFull : State := w0.modCore 0 (fun k => { k with slots := Vector.replicate 16 { Slot.init with occ := .thread } })
def wInst : State := (wE 0 (fun sl => { sl with occ := .reserved })).modCore 0 (fun k => { k with installs := [{ slot := 0, ctx := ctx0, start := 7 }] })
def wMove : State := w0.modCore 0 (fun k => { k with spillMove := some [] })
def wWait (k : BlockKind) : State := wE 0 (fun sl => { sl with block := some (block0 k) })
theorem witness_ThreadEvents : (done0.thread = r0 ∧ Held wPend r0 ∧ (wPend.core 0).portCycle ≠ wPend.cycle ∧ (∃ o ∈ (wPend.slot 0 0).out, o.id = done0.id) ∧ (wPend.slot 0 0).regs.tag done0.dst = .pending)
    ∧ ((w0.modCore 0 (fun k => { k with portUsed := 2 })).core 0).portCycle = w0.cycle
    ∧ (fill0.target = r0 ∧ Held wOpen r0 ∧ (wOpen.core 0).fillCycle ≠ some wOpen.cycle ∧ r0.core = fill0.sender.core ∧ (wOpen.slot 0 0).isSaved = false ∧ (wOpen.slot 0 0).regs.tag fill0.dst = .opened)
    ∧ (Single w0 0 ∧ (w0.core 0).fillCycle ≠ some w0.cycle ∧ (w0.slot 0 0).regs.tag fill0.dst ≠ .opened)
    ∧ (Plain wLimit r0 ∧ (wLimit.slot 0 0).occ = .thread ∧ (wLimit.slot 0 0).openSince = some (0, 5) ∧ 0 + max 1 (wLimit.slot 0 0).wlim.toNat ≤ wLimit.cycle ∧ wLimit.phase = 2)
    ∧ (Plain wInt r0 ∧ wInt.eligible 0 0 = true ∧ (wInt.slot 0 0).st.ie = true ∧ lowestInt (wInt.slot 0 0).ints = some { code := 0x1E0, info := 3 })
    ∧ (Held (wDrain [op0 .long]) r0 ∧ ((wDrain [op0 .long]).slot 0 0).occ = .draining ∧ ((wDrain [op0 .long]).core 0).engineBusy r0 = false ∧ ((wDrain [op0 .long]).slot 0 0).out ≠ [])
    ∧ (Held (wDrain []) r0 ∧ ((wDrain []).core 0).engineBusy r0 = false ∧ ((wDrain []).slot 0 0).out = [] ∧ ((wDrain []).core 0).owned 0 = [])
    ∧ (Single wScrub 0 ∧ (wScrub.slot 0 0).occ = .scrubbing ∧ (wScrub.slot 0 0).gen = r0.gen) := by unfold Plain Held Single; decide +kernel
theorem witness_ThreadEvents_contexts : (ctx0.target = 0 ∧ Single w0 0 ∧ (∀ l ∈ w0.launches, l.aborted = none) ∧ w0.coreSaved 0 = false ∧ (w0.core 0).ctxLast = ctx0.ctx ∧ (w0.core 0).scrubUntil = none
      ∧ (w0.core 0).arrivals = [] ∧ (w0.core 0).spillCnt = 0 ∧ ((w0.core 0).freeSlot = some 15 ∨ (w0.core 0).freeSlot = some 1))
    ∧ ((wFull.core 0).freeSlot = none ∧ (wFull.core 0).spillCnt = 0 ∧ (wFull.core 0).arrivals.length < 16 ∧ (wFull.core 0).ctxLast = ctx0.ctx)
    ∧ (Single wInst 0 ∧ (wInst.core 0).installs = [{ slot := 0, ctx := ctx0, start := 7 }] ∧ 7 + 3 ≤ wInst.cycle ∧ (wInst.core 0).arrivals = [] ∧ (wInst.core 0).spillCnt = 0)
    ∧ (wMove.core 0).spillMove = some [] ∧ 2 < 3
    ∧ (ctx0.sender = r0 ∧ WaitsFor (wWait (.context ctx0 5 false)) r0 ctx0.id (block0 (.context ctx0 5 false)) (.context ctx0 5 false) ∧ ctx0.spawn = true ∧ (block0 (.context ctx0 5 false)).cur.aword = none)
    ∧ (WaitsFor (wWait (.context ctx0 5 true)) r0 7 (block0 (.context ctx0 5 true)) (.context ctx0 5 true) ∧ Plain (wWait (.context ctx0 5 true)) r0) := by unfold WaitsFor Plain Held Single; decide +kernel

/-- An access of the thread to the first doubleword of a page, whose turn has come. -/
def acc0 (o : GlobalOp) : Access :=
  { agent := .thread r0, id := 3, op := o, ctx := 0, va := 0x20000, pa := 0x20000, home := 0, src := 0, size := 8, ts := 0, snap := 0, ordered := false, vbit := false, code := false, uncached := false, data := 9
    cmp := 0, dst := some (.g 5), ext := .zero, word := 0, issue := 0, reply := 60, queued := true, bad := none }
def wSector (f : Sector → Sector) : State := w0.modSector 0x20000 f
def wResv : State := w0.modClu 0 (fun k => { k with resv := [{ thread := r0, id := 3, line := 0x20000 }] })
def wDecl : State := w0.modClu 0 (fun k => { k with decls := [{ target := 0x20000, next := 0, nsl := 1, op := .add, wide := true }] })
theorem witness_HomeEvents_turn : ∀ s o b, TurnNow s (acc0 o) b := fun _ _ _ => .inl rfl
theorem witness_HomeEvents : ((acc0 .load).agent = .thread r0 ∧ (acc0 .load).dst = some (.g 5) ∧ (acc0 .load).op = .load ∧ (acc0 .load).snap = 0 ∧ (acc0 .load).cmp = 0
      ∧ (w0.sector 0x20000).lock = none ∧ (w0.sector 0x20000).poison = none ∧ (acc0 .load).bad = none ∧ (acc0 .load).vbit = false ∧ (w0.sector 0x20000).chain = [])
    ∧ ((wSector (fun x => { x with poison := some 1 })).sector 0x20000).poison = some 1 ∧ ((wSector (fun x => { x with lock := some r1 })).sector 0x20000).lock = some r1
    ∧ (Held (wE 0 (fun sl => { sl with out := [op0 .globalStore] })) r0 ∧ ∃ o ∈ ((wE 0 (fun sl => { sl with out := [op0 .globalStore] })).slot 0 0).out, o.id = 3)
    ∧ (∃ e ∈ (wResv.clu 0).resv, e.thread = r0 ∧ e.line = (acc0 .scnd).pa / 256 * 256) ∧ (∀ e ∈ (w0.clu 0).resv, e.thread ≠ r0 ∨ e.line ≠ (acc0 .scnd).pa / 256 * 256)
    ∧ (bytesNat (Memory.getN w0.mem 0x20000 8) = (acc0 .cas).cmp.toNat % 256 ^ 8 ∧ bytesNat (Memory.getN w0.mem 0x20000 8) ≠ ({ acc0 .cas with cmp := 1 } : Access).cmp.toNat % 256 ^ 8)
    ∧ ((∀ e ∈ (w0.clu 0).decls, e.target ≠ 0x20000) )
    ∧ ((wDecl.clu 0).decls = [{ target := 0x20000, next := 0, nsl := 1, op := .add, wide := true }] ∧ sliceOf (acc0 (.redo 0)) = 0 ∧ 0 < 1 ∧ (wDecl.clu 0).merge = [] ∧ (wDecl.sector 0x20000).lock = none) := by
  unfold Held Single; decide +kernel
def line0 : ILine := { line := 0x20000, rts := 300, data := [0, 0, 0, 0], used := 0 }
def wFill : State := w0.modCore 0 (fun k => { k with fills := [{ line := 0x20000, slots := [0], got := some line0, wts := 5, answer := none }] })
def sector0 : CSector := { wts := 0, rts := 256, data := 7 }
def wLine : State := w0.modClu 0 (fun k => { k with cache := [{ line := 0x20000, fetched := true, used := 0, sectors := Vector.replicate 4 (some sector0) }] })
/-- A walk of page 2 at its root, with its leaf, and with no leaf. -/
def walk0 (x : Option (Option TlbEntry)) : Walk := { id := 7, ctx := 0, va := 0x20000, level := 1, table := 0x40000, waits := [(0, 0)], ports := [0], since := 0, turn := false, stale := false, result := x }
def wWalk (x : Option (Option TlbEntry)) : State := { w0.modClu 0 (fun k => { k with walks := [walk0 x] }) with mem := Memory.setN w0.mem (pteAddr 0x40000 0x20000 1) [1, 0, 5] }
def leaf0 : TlbEntry := { page false with w := false, x := false, u := false, code := false, hcore := 0 }
theorem witness_HomeEvents_caches : ((wFill.core 0).fills.find? (fun f => f.line = 0x20000) = some { line := 0x20000, slots := [0], got := some line0, wts := 5, answer := none })
    ∧ ((acc0 .load).uncached = false ∧ (acc0 .load).queued = true ∧ (acc0 .load).snap = 0 ∧ (acc0 .load).cmp = 0 ∧ ∀ l ∈ ((w0.clu 0).settle w0.cycle).cache, l.line ≠ (acc0 .load).pa / 256 * 256)
    ∧ (let l : CLine := { line := 0x20000, fetched := true, used := 0, sectors := Vector.replicate 4 (some sector0) }
      ((wLine.clu 0).settle wLine.cycle).cache.find? (fun l => l.line = (acc0 .load).pa / 256 * 256) = some l ∧ (l.sectors[(acc0 .load).pa % 256 / 64]?).join = some sector0 ∧ (acc0 .load).ts ≤ sector0.rts)
    ∧ (((wWalk none).clu 0).walks.find? (fun k => k.id = 7) = some (walk0 none) ∧ (walk0 none).result = none ∧ inLpddr (pteAddr 0x40000 0x20000 1) = false ∧ ChannelFree (wWalk none) (pteAddr 0x40000 0x20000 1) ∧ ((wWalk none).sector (pteAddr 0x40000 0x20000 1)).lock = none ∧ readPte (w0.pod0 0) (w0.pkg 0).podN 0 0 0x20000 1 (BitVec.ofNat 64 (bytesNat (Memory.getN (wWalk none).mem (pteAddr 0x40000 0x20000 1) 8))) = .table 0x50000)
    ∧ readPte (w0.pod0 0) (w0.pkg 0).podN 0 0 0x20000 3 0x20083 = .leaf leaf0
    ∧ (((wWalk (some (some (page false)))).clu 0).walks.find? (fun k => k.id = 7) = some (walk0 (some (some (page false)))) ∧ (walk0 (some (some (page false)))).stale = false ∧ (0, 0) ∈ (walk0 (some (some (page false)))).waits)
    ∧ (((wWalk (some none)).clu 0).walks.find? (fun k => k.id = 7) = some (walk0 (some none)) ∧ (walk0 (some none)).stale = false) := by unfold ChannelFree; decide +kernel

/-- The wait with number 7 of a thread whose latch holds an instruction. -/
noncomputable def blockI (k : BlockKind) (i : Instr) : Block := { block0 k with cur := { cur0 with instr := i } }
noncomputable def wWaitI (k : BlockKind) (i : Instr) : State := wE 0 (fun sl => { sl with block := some (blockI k i) })
/-- A request of the thread to the last doubleword of the scratchpad of core 1. -/
def req0 (o : RemoteOp) : RemoteReq :=
  { thread := r0, id := 7, target := 1, off := 0x3FFF8, va := 0x800000000007FFF8, op := o, data := 9, dst := some (.g 5), time := 0, ctx := 0, budget := 100, issue := 0, word := 0, bad := none }
/-- Core 1 with requests in its FIFO, full words and waiting operations. -/
def wFifo (l : List RemoteReq) (full : List Nat) : State := ((wE 0 id).modSlot 1 0 (fun sl => { sl with occ := .thread })).modCore 1 (fun k => { k with fifo := l, full := full })
theorem witness_RemoteEvents : ((req0 (.load 8 .zero)).thread = r0 ∧ (req0 (.load 8 .zero)).op = .load 8 .zero)
    ∧ (WaitsFor (wWait (.message (req0 (.message 3 true 1 [0])) true)) r0 (req0 (.message 3 true 1 [0])).id (block0 (.message (req0 (.message 3 true 1 [0])) true)) (.message (req0 (.message 3 true 1 [0])) true))
    ∧ (ctx0.sender = r0 ∧ WaitsFor (wWait (.context ctx0 5 true)) r0 ctx0.id (block0 (.context ctx0 5 true)) (.context ctx0 5 true))
    ∧ ((wFifo (List.replicate 63 (req0 (.store 8))) []).core 1).fifo.length < 64 ∧ 64 ≤ ((wFifo (List.replicate 64 (req0 (.store 8))) []).core 1).fifo.length
    ∧ (∀ o ∈ [RemoteOp.load 8 .zero, .store 8, .tagged .ldfe, .arm 3, .message 3 true 1 [0]], let s := wFifo [req0 o] []
        Single s 1 ∧ (s.core 1).fifo = [req0 o] ∧ (s.core 1).copy.port = [] ∧ r0.slot ≠ 16 ∧ s.admitsReq (req0 o) = true ∧ (s.core 1).spadPoisonIn 0x3FFF8 8 = none ∧ Held s r0)
    ∧ ((wFifo [req0 (.tagged .ldfe)] [0x3FFF8 / 8]).tagReady 1 0x3FFF8 .ldfe = true ∧ (wFifo [req0 (.tagged .ldfe)] []).tagReady 1 0x3FFF8 .ldfe = false
      ∧ ((wFifo [req0 (.tagged .ldfe)] []).core 1).tagWait.countP (fun x => !x.local_) < 32)
    ∧ (wFifo [{ req0 (.store 8) with ctx := 1 }] []).admitsReq { req0 (.store 8) with ctx := 1 } = false := by unfold WaitsFor Held Single; decide +kernel
def tag0 (l : Bool) : TagEntry := { id := 7, off := 0x3FFF8, va := 0x800000000007FFF8, op := .stf, data := 9, thread := r0, block := 7, local_ := l, time := 0, ctx := 0 }
def wEntry (l : Bool) (c : CoreKey) : State := (wWait (.tagLocal 7 5)).modCore c (fun k => { k with tagWait := [tag0 l] })
theorem witness_RemoteEvents_tags : (∀ l, let s := wEntry l 0
      (s.core 0).tagWait.find? (fun x => x.id = 7) = some (tag0 l) ∧ s.tagReady 0 0x3FFF8 .stf = true ∧ Single s 0 ∧ (s.core 0).spadPoisonIn 0x3FFF8 8 = none ∧ WaitsFor s r0 (tag0 l).block (block0 (.tagLocal 7 5)) (.tagLocal 7 5))
    ∧ WaitsFor (wWait (.tagRemote 5)) r0 7 (block0 (.tagRemote 5)) (.tagRemote 5) ∧ w0.waiting? r0 7 = none
    ∧ ((wWait (.tagRemote 5)).slot 0 0).stopping = false ∧ (wWait (.tagRemote 5)).takeInterrupt 0 0 0x10000 = none
    ∧ WaitsFor (wWait (.monitorArm 5 3)) r0 7 (block0 (.monitorArm 5 3)) (.monitorArm 5 3) := by
  refine ⟨fun l => ?_, ?_⟩
  · unfold WaitsFor Held Single; cases l <;> decide +kernel
  · unfold WaitsFor Held Single; exact ⟨by decide +kernel, by decide +kernel, by decide +kernel, by rfl, by decide +kernel⟩
theorem witness_RemoteEvents_limits : (Plain (wWaitI (.tagRemote 5) (.ldfe 5 6 false .cl)) r0 ∧ WaitsFor (wWaitI (.tagRemote 5) (.ldfe 5 6 false .cl)) r0 7 (blockI (.tagRemote 5) (.ldfe 5 6 false .cl)) (.tagRemote 5)
      ∧ tagAddress (blockI (.tagRemote 5) (.ldfe 5 6 false .cl)).cur.instr = some 6)
    ∧ (Plain (wWaitI (.barWait bar0 0) (.barWt 1 .cl)) r0 ∧ WaitsFor (wWaitI (.barWait bar0 0) (.barWt 1 .cl)) r0 7 (blockI (.barWait bar0 0) (.barWt 1 .cl)) (.barWait bar0 0)
      ∧ (blockI (.barWait bar0 0) (.barWt 1 .cl)).cur.instr = .barWt 1 .cl)
    ∧ (Plain (wWaitI .receive (.mrecv 5 6 7)) r0 ∧ WaitsFor (wWaitI .receive (.mrecv 5 6 7)) r0 7 (blockI .receive (.mrecv 5 6 7)) .receive ∧ (blockI .receive (.mrecv 5 6 7)).cur.instr = .mrecv 5 6 7) := by
  unfold Plain WaitsFor Held Single
  exact ⟨⟨by decide +kernel, by decide +kernel, by rfl⟩, ⟨by decide +kernel, by decide +kernel, by rfl⟩, by decide +kernel, by decide +kernel, by rfl⟩
/-- A waiting thread with a latched monitor, with a limit that has passed, with neither. -/
def wLatch (b : Bool) (lim : BitVec 32) : State := wE 3 (fun sl => { sl with mlim := lim, monitors := sl.monitors.setIfInBounds 3 (some { mon0 0 with latched := b }), block := some (block0 (.wait 5)) })
def wMem : State := wE 0 (fun sl => { sl with monitors := sl.monitors.setIfInBounds 3 (some { at_ := .mem 0x20000, va := 0x20000, from_ := 0, latched := false }) })
/-- The barrier of the launch's four cores with every party arrived. -/
def wPhase (n : Nat) : State := { w0 with launches := [launch0], barriers := [{ bar := bar0, phase := 0, arrived := List.range n, count := 0, time := 5 }] }
/-- Core 1's mailbox with rings of one entry. -/
def wBox (en : Bool) (l : List RingMsg) (n : Nat) : State :=
  w0.modCore 1 (fun k => { k with mboxEn := en, rings := l, waiters := List.replicate n { thread := r1, id := 1, ring := 0 } })
def mreq : RemoteReq := req0 (.message 3 true 1 [8])
theorem witness_RemoteEvents_waits : (WaitsFor (wLatch true 0) r0 7 (block0 (.wait 5)) (.wait 5) ∧ ((wLatch true 0).slot 0 0).latches ≠ 0)
    ∧ (WaitsFor (wLatch false 10) r0 7 (block0 (.wait 5)) (.wait 5) ∧ ((wLatch false 10).slot 0 0).latches = 0 ∧ ((wLatch false 10).slot 0 0).mlim ≠ 0 ∧ 0 + ((wLatch false 10).slot 0 0).mlim.toNat ≤ (wLatch false 10).cycle)
    ∧ (((wLatch false 0).slot 0 0).latches = 0 ∧ ((wLatch false 0).slot 0 0).mlim = 0 ∧ WaitsFor (wLatch false 0) r0 7 (block0 (.wait 5)) (.wait 5))
    ∧ (Held wMem r0 ∧ (wMem.slot 0 0).monitor 3 = some { at_ := .mem 0x20000, va := 0x20000, from_ := 0, latched := false })
    ∧ ((wPhase 4).launch? bar0.launch = some launch0 ∧ ((wPhase 4).barrier bar0).arrived ≠ [] ∧ ((wPhase 4).barrier bar0).count = 0 ∧ launch0.parties bar0 ≤ launch0.arrivals ((wPhase 4).barrier bar0))
    ∧ ((wPhase 3).launch? bar0.launch = some launch0 ∧ ¬ launch0.parties bar0 ≤ launch0.arrivals ((wPhase 3).barrier bar0))
    ∧ WaitsFor (wWait (.barWait bar0 0)) r0 7 (block0 (.barWait bar0 0)) (.barWait bar0 0)
    ∧ (((wBox false [] 0).core 1).mboxEn = false ∧ mreq.op = .message 3 true 1 [8] ∧ mreq.target = 1)
    ∧ (((wBox true [] 0).core 1).mboxEn = true ∧ ((wBox true [] 0).core 1).rings.countP (fun m => m.ring = 7) < 2 ^ ((wBox true [] 0).core 1).mboxDepth.toNat ∧ Single (wBox true [] 0) 1 ∧ [(8 : Byte)].length = 1)
    ∧ (2 ^ ((wBox true [msg0] 15).core 1).mboxDepth.toNat ≤ ((wBox true [msg0] 15).core 1).rings.countP (fun m => m.ring = 7) ∧ ((wBox true [msg0] 15).core 1).waiters.length < 16)
    ∧ (16 ≤ ((wBox true [msg0] 16).core 1).waiters.length ∧ ((wBox true [msg0] 16).core 1).mboxEn = true) := by unfold WaitsFor Held Single; decide +kernel
theorem witness_RemoteEvents_replies : WaitsFor (wWaitI (.message mreq false) (.msend 6 7)) r0 mreq.id (blockI (.message mreq false) (.msend 6 7)) (.message mreq false) ∧ Plain (wWaitI (.message mreq false) (.msend 6 7)) r0
    ∧ (blockI (.message mreq false) (.msend 6 7)).cur.instr = .msend 6 7 ∧ ((wWaitI (.message mreq false) (.msend 6 7)).slot 0 0).stopping = false
    ∧ (wWaitI (.message mreq false) (.msend 6 7)).takeInterrupt 0 0 0x10000 = none
    ∧ (wWaitI (.message mreq false) (.msend 6 7)).cycle < 0 + ((wWaitI (.message mreq false) (.msend 6 7)).slot 0 0).wlim.toNat
    ∧ WaitsFor (wWait (.message mreq true)) r0 7 (block0 (.message mreq true)) (.message mreq true) := by
  unfold WaitsFor Plain Held Single
  exact ⟨by decide +kernel, by decide +kernel, by rfl, by decide +kernel, by rfl, by decide +kernel, by decide +kernel⟩

/-- A registry that has room for one entry, and a full one; a pool with one dead version; a committing transaction of two sectors. -/
def wReg (n : Nat) : State := w0.modPkg 0 (fun k => { k with registry := List.replicate n { time := 5, owner := .thread r1 } })
def wPool : State := ((w0.modClu 0 (fun k => { k with poolLen := 1, poolUsed := [(0, 0x20000)] })).modSector 0x20000 (fun x => { x with chain := [0] })).modSector 0x20040 (fun x => { x with lock := some r1 })
def tx1 (votes : List TxVote) : Tx := { tx0 with votes := votes, waiting := 1, sectors := [{ sector := 0x20000, home := 0, code := false, vas := [0x20000], data := 7, mask := 1 }, { sector := 0x20040, home := 0, code := false, vas := [0x20040], data := 7, mask := 1 }] }
def vote0 (a : Bool) : TxVote := { home := 0, abort := a, rts := 3, wts := 2, locked := [0x20000] }
def wTxc (votes : List TxVote) : State := wE 0 (fun sl => { sl with tx := some (tx1 votes), st := { sl.st with tx := true }, block := some (block0 (.txc 5)) })
noncomputable def wShoot (live : Bool) : State := { wWait .shootdown with
  shootdowns := [{ thread := r0, id := 7, loads := [3], stores := [], ports := [] }], agenda := if live then [{ due := 400, rank := 0, num := 1, ev := .homeLoad (acc0 .load) }] else [] }
theorem witness_VersionEvents : (((wReg 4095).pkg 0).registry.length < 4096 ∧ 4096 ≤ ((wReg 4096).pkg 0).registry.length) ∧ WaitsFor (wWait (.registry 5)) r0 7 (block0 (.registry 5)) (.registry 5)
    ∧ (getKey (wPool.clu 0).poolUsed (wPool.clu 0).sweep = some 0x20000 ∧ (wPool.sector 0x20000).chain.findIdx (· = (wPool.clu 0).sweep) = 0 ∧ 0 < (wPool.sector 0x20000).chain.length ∧ wPool.deadAt 0 0x20000 0 = true ∧ (wPool.clu 0).poolUsed ≠ [])
    ∧ ((w0.clu 0).poolUsed = [] ∧ (0xAA000000 : Word).toNat % 65536 + (0xAA000000 : Word).toNat / 65536 % 65536 ≤ 43520 ∧ ¬ (0xAA010000 : Word).toNat % 65536 + (0xAA010000 : Word).toNat / 65536 % 65536 ≤ 43520)
    ∧ (0x10000 + 4 * 1024 + 896 = (0x11380 : Word).toNat ∧ (0x11380 : Word).toNat % 1024 * 256 + 8 * 2 ^ min 4 ((0x11380 : Word).toNat / 1024 % 8) * 256 ≤ 262144
      ∧ ¬ (0x11381 : Word).toNat % 1024 * 256 + 8 * 2 ^ min 4 ((0x11381 : Word).toNat / 1024 % 8) * 256 ≤ 262144 ∧ Single w0 1)
    ∧ (WaitsFor (wTxc [vote0 false]) r0 7 (block0 (.txc 5)) (.txc 5) ∧ ((wTxc [vote0 false]).slot 0 0).tx = some (tx1 [vote0 false]) ∧ (tx1 []).waiting ≤ 1 ∧ (∀ v ∈ (tx1 [vote0 false]).votes, v.abort = false)
      ∧ ∀ x ∈ (tx1 []).sectors, (tx1 []).sectors.find? (fun y => y.sector = x.sector) = some x ∧ x.sector % 64 = 0)
    ∧ (((wTxc [vote0 true]).slot 0 0).tx = some (tx1 [vote0 true]) ∧ ∃ v ∈ (tx1 [vote0 true]).votes, v.abort = true)
    ∧ (0x20000 % 256 = 0 ∧ (∀ i < 4, (w0.sector (0x20000 + 64 * i)).lock = none) ∧ ∃ i < 4, (wPool.sector (0x20000 + 64 * i)).lock ≠ none) := by unfold WaitsFor Held Single; decide +kernel
/-- A publish of the line 0x2_0000 that waits, its mark still due or made. -/
def wPublish (due : Bool) : State :=
  { wWait (.cpub [0x20000] 300) with agenda := if due then [{ due := 400, rank := 0, num := 1, ev := .publishMark { thread := r0, id := 7, line := 0x20000 } 300 }] else [] }
theorem witness_VersionEvents_shootdowns : (WaitsFor (wPublish false) r0 7 (block0 (.cpub [0x20000] 300)) (.cpub [0x20000] 300) ∧ (wPublish false).marksDue r0 7 = false ∧ (wPublish true).marksDue r0 7 = true)
    ∧ (∀ b, (wShoot b).shootdowns.find? (fun d => d.thread = r0 ∧ d.id = 7) = some { thread := r0, id := 7, loads := [3], stores := [], ports := [] } ∧ WaitsFor (wShoot b) r0 7 (block0 .shootdown) .shootdown)
    ∧ (wShoot true).shootdownLive { thread := r0, id := 7, loads := [3], stores := [], ports := [] } = true ∧ (wShoot false).shootdownLive { thread := r0, id := 7, loads := [3], stores := [], ports := [] } = false := by
  unfold WaitsFor Held Single
  exact ⟨by decide +kernel, fun b => by cases b <;> decide +kernel, by decide +kernel, by decide +kernel⟩

/-! The copy engine, the tile unit and the rooks. -/

/-- A copy of 64 bytes in the engine, and one of its pieces. -/
def piece0 (read : Bool) (to_ : Option TlbEntry) (dst : Word) : CopyBlock :=
  { num := 9, src := ownAddr 0, dst := dst, len := 64, index := 0, to_ := to_, data := 0, poison := none, read := read, sent := false, asked := true }
def wCmd (f : CopyCmd → CopyCmd) (p : Nat) : State := { (wEngine none).modMyCore (fun k => { k with copy := { k.copy with cmds := [f (copy0 none)] } }) with now := 4 * 2088 + p, agenda := [] }
theorem witness_EngineEvents_copy : (Single (wCmd id 0) 0 ∧ (∀ y ∈ ((wCmd id 0).core 0).copy.cmds, y.stopped = none ∧ ∀ z ∈ y.blocks, z.asked = true) ∧ ((wCmd id 0).core 0).copy.reader = none
      ∧ ((wCmd id 0).core 0).copy.cmds.find? (fun y => !y.started) = some (copy0 none) ∧ (wCmd id 0).agenda.length = 0)
    ∧ (let x := { copy0 none with started := true }
      let s := wCmd (fun _ => x) 0
      (s.core 0).copy.reader = some x ∧ (∀ y ∈ (s.core 0).copy.cmds, y.id = x.id → y = x) ∧ (s.core 0).copyHalted x.id = false ∧ x.kind ≠ .wsld ∧ s.classify 0 (x.piece (s.core 0)).src = .spad 0 0
        ∧ s.classify 0 (x.piece (s.core 0)).dst = .spad 0 64 ∧ x.second (x.piece (s.core 0)) = none ∧ (x.piece (s.core 0)).len ≤ 64 ∧ x.credit = 64 ∧ x.next < x.total ∧ x.next + (x.piece (s.core 0)).units = x.total)
    ∧ (let x := { copy0 none with started := true, next := 64, blocks := [piece0 true none (ownAddr 64)] }
      let s := wCmd (fun _ => x) 2
      Single s 0 ∧ (s.core 0).copyCmd? 3 = some x ∧ s.block? 0 3 9 = some (piece0 true none (ownAddr 64)) ∧ (s.core 0).copyHalted 3 = false ∧ gcSwe x.gc = false ∧ gcBe x.gc = false
        ∧ (piece0 true none 0).sent = false ∧ x.kind ≠ .wsld
        ∧ s.classify 0 (ownAddr 0) = .spad 0 0 ∧ s.classify 0 (ownAddr 64) = .spad 0 64 ∧ s.phase = 2) := by unfold Single; decide +kernel
theorem witness_EngineEvents_copyBlocks : (∀ k ∈ [CopyKind.cpy, .gath], let x := { copy0 none with kind := k, started := true, next := 64, dst := 0x20000, blocks := [piece0 true (some (page false)) 0x20000] }
      let s := wCmd (fun _ => x) 2
      (s.core 0).copyCmd? 3 = some x ∧ s.block? 0 3 9 = some (piece0 true (some (page false)) 0x20000) ∧ (s.core 0).copyHalted 3 = false ∧ gcSwe x.gc = false ∧ gcBe x.gc = false ∧ s.classify 0 0x20000 = .global ∧ (k = .cpy → (s.joinUnit 0 x (piece0 true (some (page false)) 0x20000)).isSome = true))
    ∧ (let x := { copy0 none with kind := .wsld, started := true, next := 64, dst := 0, blocks := [piece0 true none 0] }
      let s := wCmd (fun _ => x) 2
      (s.core 0).copyCmd? 3 = some x ∧ s.block? 0 3 9 = some (piece0 true none 0) ∧ (s.core 0).copyHalted 3 = false ∧ gcEsz x.gc = 0 ∧ gcSwe x.gc = false ∧ gcBe x.gc = false ∧ (s.joinUnit 0 x (piece0 true none 0)).isSome = true)
    ∧ (let z : CopyBlock := { piece0 true none 0 with sent := true }
      let x := { copy0 none with kind := .wsld, started := true, next := 64, dst := 0, blocks := [z] }
      let s := wCmd (fun _ => x) 2
      (s.core 0).copyCmd? 3 = some x ∧ s.block? 0 3 9 = some z ∧ z.read = true ∧ z.sent = true ∧ (s.core 0).copyHalted 3 = false ∧ gcSwe x.gc = false ∧ gcBe x.gc = false)
    ∧ (let x := { copy0 none with gc := 0x7FFF00000040, started := true, next := 64, blocks := [piece0 true (some (page false)) 0x20000] }
      let s := wCmd (fun _ => { x with gc := 0x7FFF00000040 &&& 0x7FFFFFFFFFFF }) 2
      (s.core 0).copyCmd? 3 = some x ∧ s.block? 0 3 9 = some (piece0 true (some (page false)) 0x20000) ∧ gcSwe x.gc = true ∧ gcBe x.gc = false ∧ gcSync x.gc + 16 = 2 ^ 18) := by decide +kernel
/-- A command queued 8 cycles ago, one in its unit cycles, and the four joins of a quad. -/
def wTileQ (q : TileCmd) : State := { w0.modMyCore (fun k => { k with tile := { k.tile with queue := [q] } }) with now := 40 }
def wTileR (op : TileOp) : State := w0.modMyCore (fun k => { k with tile := { k.tile with run := some { cmd := { cmd0 with op := op }, next := 48, at_ := 8, lead := { cmd0 with op := op } } } })
def join0 : TileCmd := { cmd0 with op := .gmma }
def wJoin (n : Nat) : State := { (List.range n).foldl (fun s i => s.modCore i (fun k => { k with tile := { k.tile with queue := [join0] } })) w0 with now := 40 }
theorem witness_EngineEvents_tile : (((wTileQ cmd0).core 0).tile.run = none ∧ ((wTileQ cmd0).core 0).tile.queue = [cmd0] ∧ max (cmd0.issue + 8) (((wTileQ cmd0).core 0).tile.lastEnd + 1) ≤ (wTileQ cmd0).cycle ∧ cmd0.op ≠ .gmma)
    ∧ (((wTileQ join0).core 0).tile.queue = [join0] ∧ join0.op = .gmma)
    ∧ (∀ i < 4, (wJoin 4).joinHead (4 * 0 + i) = some join0) ∧ ((wJoin 3).joinHead (4 * 0) = some join0 ∧ (wJoin 3).joinHead (4 * 0 + 3) = none)
    ∧ (∃ x, ((wTileR .mma).core 0).tile.run = some x ∧ x.cmd.op = .mma)
    ∧ (WaitsFor (wWait .engine) r0 7 (block0 .engine) .engine)
    ∧ (let s := { (wE 0 (fun sl => { sl with parkLimit := some { acc := 1, since := some 0 } })).modCore 0 (fun k => { k with tile := { k.tile with queue := [join0] } }) with now := 4 * 1048576 }
      Plain s r0 ∧ (s.slot 0 0).occ = .thread ∧ (s.slot 0 0).parkLimit = some { acc := 1, since := some 0 } ∧ 0 + max 1 (s.slot 0 0).wlim.toNat ≤ s.cycle ∧ (s.core 0).onlyJoins r0 1 s.cycle = true) := by
  unfold WaitsFor Plain Held Single
  exact ⟨by decide +kernel, by decide +kernel, by decide +kernel, by decide +kernel, ⟨{ cmd := cmd0, next := 48, at_ := 8, lead := cmd0 }, by decide +kernel, by decide +kernel⟩, by decide +kernel, by decide +kernel⟩
theorem witness_EngineEvents_limits : (Plain (wWaitI (.syncWait 0 0 5) (.swwait 5 6 7)) r0 ∧ WaitsFor (wWaitI (.syncWait 0 0 5) (.swwait 5 6 7)) r0 7 (blockI (.syncWait 0 0 5) (.swwait 5 6 7)) (.syncWait 0 0 5)
      ∧ (blockI (.syncWait 0 0 5) (.swwait 5 6 7)).cur.instr = .swwait 5 6 7) ∧ (blockI .engine (.mwaitRel 1)).cur.instr = .mwaitRel 1 := by
  unfold Plain WaitsFor Held Single
  exact ⟨⟨by decide +kernel, by decide +kernel, by rfl⟩, by rfl⟩

/-- An image with the doublewords given, by offset. -/
def img0 (l : List (Nat × Word)) : List Word := l.foldl (fun a e => a.set (e.1 / 8) e.2) (List.replicate 1300 0)
/-- Rook 0 configured with an image for function 7 of context 0, and changed. -/
def wRook (l : List (Nat × Word)) (f : Rook → Rook) : State := w0.modRook 0 (fun r => f { r with cfg := some { ctx := 0, fid := 7, img := img0 l } })
def drain0 : DrainMsg := { thread := r0, cmd := 3, acc := 1, fid := 7, arg := 0, ctx := 0, sup := false, int8 := false, cluster := 0, time := 0 }
def call0 : CallMsg := { thread := r0, id := 3, serve := false, dst := 5, fid := 7, args := [], ctx := 0, sup := false, cluster := 0, time := 0, issue := 0 }
def packet0 (t : Option Token) : Packet := { num := 0, call := call0, tp := 0, fault := none, faultAt := (0, 0), result := t }
def wCallOut : State := wE 0 (fun sl => { sl with out := [op0 .call], regs := sl.regs.retag .pending (.g 5) })
def wServe : State := wE 0 (fun sl => { sl with out := [op0 .call], regs := sl.regs.retag .pending (.g 5), block := some (block0 .serve) })
/-- A valid record: ENTRY at the page 0x2_0000, one thread on one core, context 0. -/
def rec0 : List Word := 0x20000 :: List.replicate 31 0
/-- Tables of context 0 at 0x4_0000 to 0x6_0000 that map that page, and its descriptor at 0. -/
def tables0 : List Host.Cell := Memory.setN (Memory.setN (Memory.setN (Memory.setN [] 0 [1, 0, 4]) 0x40000 [1, 0, 5]) 0x50000 [1, 0, 6]) 0x60010 [0xDB, 0, 2]
def wTables : State := { w0 with mem := tables0, launches := [{ launch0 with record := rec0 }] }
/-- The function map of that context at the page 0x2_0000, its function 7 an image of zeros. -/
def wMapped : State := { wTables.modPkg 0 (fun k => { k with ctxs := [(0, { root := 0x40000, fmap := 0x20000, psa := 0 })] }) with mem := Memory.setN tables0 0x20070 [0, 0, 2, 0, 0, 0, 0, 0x80] }
theorem witness_EngineEvents_rooks : (∀ mode ∈ [0, 2], ∀ fr, let s := wRook [(0, BitVec.ofNat 64 (mode * 2 ^ 16))] (fun r => { r with frozen := fr })
      s.holder 0 0 7 = some 0 ∧ (s.rook 0).load = none ∧ imgMode (s.rook 0).img = mode ∧ (s.rook 0).frozen = fr)
    ∧ (drain0.cluster = 0 ∧ drain0.ctx = 0 ∧ drain0.fid = 7 ∧ drain0.thread = r0 ∧ Held (wE 0 (fun sl => { sl with out := [op0 .tileCommand] })) r0 ∧ (∀ x ∈ (w0.slot 0 0).drainRecs, x.1 ≠ drain0.acc))
    ∧ (wMapped.holder 0 0 7 = none ∧ (wMapped.clu 0).cached 0 7 = none ∧ wMapped.findImage 0 0 7 = .refused notMapped (wMapped.sectorLatency 0 0 0x20000) 0)
    ∧ (w0.holder 0 0 7 = none ∧ (w0.clu 0).cached 0 7 = none ∧ w0.findImage 0 0 7 = .unmapped { sub := 1, stage := 0, addr := 112 })
    ∧ (wImg.holder 0 0 1023 = none ∧ (wImg.clu 0).cached 0 1023 ≠ none)
    ∧ (let s := wRook [] (fun r => { r with calls := [call0] })
      (s.rook 0).acceptReady = true ∧ (s.rook 0).calls = [call0])
    ∧ (∀ k ∈ [0, 1], let t : Token := { val := 5, kind := k, poison := false, side := 0, pkt := none }
      let s := wRook [] (fun r => { r with resq := [t], nextPkt := 1, packets := [packet0 none] })
      (s.rook 0).resultReady = true ∧ (s.rook 0).resq = [t])
    ∧ (let t := dataToken 5 (some 0)
      let s := wRook [] (fun r => { r with packets := [packet0 (some t)] })
      (s.rook 0).packet? 0 = some (packet0 (some t)) ∧ (packet0 (some t)).result = some t)
    ∧ (Held wCallOut r0 ∧ ((wCallOut).core 0).portCycle ≠ wCallOut.cycle ∧ (wCallOut.slot 0 0).regs.tag (.g 5) = .pending ∧ (∃ o ∈ (wCallOut.slot 0 0).out, o.id = call0.id) ∧ call0.serve = false)
    ∧ WaitsFor wServe r0 7 (block0 .serve) .serve := by unfold WaitsFor Held Single; decide +kernel
def wNoRoom : State := wRook [] (fun r => r.modCell 63 (fun c => { c with dq := c.dq.setIfInBounds 1 [dataToken 1 none, dataToken 2 none] }))
def wLoads : State := wImg.modClu 0 (fun k => { k with rookWait := [.call { call0 with fid := 1023 }] })
/-- A load port of 8-byte accesses with the page in its entry, and one in flight; the stages of phases. -/
def wPort : State := wRook [(0x2240, 0x19)] (fun r => { r with nextPkt := 1, packets := [packet0 none], ports := r.ports.setIfInBounds 0 { MemPort.init with
  xlat := some (page false), inq := [dataToken 0x20000 (some 0)], busy := [{ seq := 7, pkt := some 0, va := 0x20000, store := false }] } })
def wRefill (w : Walk) : State := (wRook [(0x2240, 0x19)] id).modClu 0 (fun k => { k with walks := [w] })
theorem witness_EngineEvents_ports : ((wLoads.clu 0).rookWait = [.call { call0 with fid := 1023 }] ∧ (RookReq.call { call0 with fid := 1023 }).key = (0, 1023) ∧ wLoads.idleRook 0 = some 0 ∧ (wLoads.clu 0).cached 0 1023 = some [])
    ∧ (let l : RookLoad := { id := 7, cfg := { ctx := 0, fid := 7, img := [] }, waits := [.call call0], resume := false }
      let s := w0.modRook 0 (fun r => { r with load := some l })
      (s.rook 0).load = some l ∧ l.id = 7)
    ∧ (imgMode (wPort.rook 0).img ≠ 2 ∧ (wPort.rook 0).portReady 0 = true ∧ portKind (wPort.rook 0).img 0 = 1 ∧ (dataToken 0x20000 (some 0)).poison = false
      ∧ (wPort.rook 0).flagged (some 0) = none ∧ ((wPort.rook 0).port 0).check ((wPort.rook 0).caller 0 (some 0)).1 ((wPort.rook 0).caller 0 (some 0)).2.1 0x20000 (portSize (wPort.rook 0).img 0) false = .pass (page false)
      ∧ (page false).uncached = false)
    ∧ (((wPort.rook 0).port 0).busy.find? (fun x => x.seq = 7) = some { seq := 7, pkt := some 0, va := 0x20000, store := false } ∧ (wPort.rook 0).packet? 0 = some (packet0 none))
    ∧ (∀ w ∈ [{ walk0 none with stale := true }, walk0 (some none), walk0 (some (some (page false))), walk0 (some (some { page false with u := false }))],
      let s := wRefill w
      (s.clu 0).walks.find? (fun x => x.id = 7) = some w ∧ w.ports.contains (0 * 4 + 0) = true ∧ imgMode (s.rook 0).img ≠ 2 ∧ portKind (s.rook 0).img 0 = 1)
    ∧ (let u := (wRefill (walk0 none)).rook 0
      permitted (page false) .load (u.waitsAs 0) = true ∧ permitted { page false with u := false } .load (u.waitsAs 0) = false)
    ∧ (wGang3.launch? 0 = some launch0 ∧ (∀ x ∈ launch0.graph, (getKey launch0.acks x).isSome = true) ∧ wGang3.pcycNow 0 ≤ wGang3.pcycNow 0 ∧ wGang3.pcycNow 0 < wGang3.pcycNow 0 + 1)
    ∧ (let l := { launch0 with graph := [0], rooks := [0] }
      ({ wGang3 with launches := [l] } : State).launch? 0 = some l ∧ ∃ x ∈ l.graph, getKey l.acks x = none)
    ∧ (let s := wRook [(0, 0x10000)] (fun r => { r with running := true })
      s.phaseOver 0 = true ∧ (s.rook 0).next = none)
    ∧ (((wRook [] id).rook 0).frozen = false ∧ ((wRook [] (fun r => { r with frozen := true })).rook 0).frozen = true)
    ∧ (∀ s ∈ [wRook [] id, wNoRoom], (s.rook 0).live = true ∧ (s.rook 0).snapDone = false ∧ (s.rook 0).saved 63 = false ∧ (s.rook 0).snap = none)
    ∧ (((wRook [] id).rook 0).snapRoom 63 1 = true ∧ (wNoRoom.rook 0).snapRoom 63 1 = false) := by decide +kernel
theorem witness_EngineEvents_access : (wPort.rook 0).portNext 0 = .access 0x20000 0 [dataToken 0x20000 (some 0)] := by decide +kernel

/-- Cell 63 with one instruction: its operands an immediate and the local register 3, its control input from the north. -/
def wCell (op : Nat) : State :=
  wRook [(0x40 + 128 * 63, BitVec.ofNat 64 (op * 2 ^ 58 + 5 * 2 ^ 55 + 6 * 2 ^ 52 + 6 * 2 ^ 49 + 3 * 2 ^ 39 + 0xFFFFFFFF)), (0x2040 + 8 * 63, 1)] (fun r => r.modCell 63 (fun c => { c with cq := c.cq.setIfInBounds 0 [true] }))
theorem witness_RookEvents_cells : ∀ n ∈ List.range 0x1B, let s := wCell (n + 1)
    let c := (s.rook 0).cell 63
    let i := imgInstr (s.rook 0).img 63 c.pc
    i.op = n + 1 ∧ (s.rook 0).cellAct 63 = .fire ∧ sourceOf c i i.sa = some (0xFFFFFFFFFFFFFFFF, none) ∧ sourceOf c i i.sb = some (0, none) ∧ sourceOf c i i.sc = some (0, none) := by decide +kernel
/-- A marker at the north of cell 0; a chain of one iteration; a token at a reduction unit, at a special-function unit, at the butterfly; room for a link's token, and none. -/
def wMark : State :=
  wRook [(0x40, BitVec.ofNat 64 (1 * 2 ^ 58 + 1 * 2 ^ 55)), (0x2040, 1)] (fun r => r.modCell 0 (fun c => { c with dq := c.dq.setIfInBounds 0 [markerToken 1 none] }))
def wChain (n1 : Word) : State := wRook [(0x2340, 0x8000000000000001), (0x2348, n1), (0x2358, 1)] (fun r => { r with chains := Vector.replicate 2 { i0 := 0, i1 := 0, i2 := 0, next := 0, marks := [], runs := 1, exhausted := false } })
def wRed (m : Token) : State := wRook [(0x23C0, 0x10)] (fun r => { r with reds := Vector.replicate 2 { acc := none, poison := none, pkt := none, inq := [m], outq := [] } })
def wSfu : State := wRook [(0x2240 + 64 * 8, 0x80)] (fun r => { r with sfus := Vector.replicate 4 { inq := [dataToken 1 none] } })
def wFly : State := wRook [(0x2240 + 64 * 12, 0x200)] (fun r => { r with butterfly := { r.butterfly with inq := [dataToken 1 none] } })
theorem witness_RookEvents_units : ((wMark.rook 0).cellAct 0 = .marker ∧ 0 ∈ (imgInstr (wMark.rook 0).img 0 0).reads ∧ (((wMark.rook 0).cell 0).queue 0).head? = some (markerToken 1 none))
    ∧ (((wChain 1).rook 0).chainReady 0 (wChain 1).cycle = true ∧ (((wChain 1).rook 0).chain 0).marks = [] ∧ ((wChain 1).rook 0).exhausted = false)
    ∧ (((wChain 2).rook 0).chainReady 0 (wChain 2).cycle = true ∧ (((wChain 2).rook 0).chain 0).marks = [] ∧ ((wChain 2).rook 0).exhausted = false)
    ∧ (∀ k ∈ [dataToken 5 none, markerToken 1 none], ((wRed k).rook 0).redReady 0 = true ∧ (((wRed k).rook 0).red 0).outq = [] ∧ (((wRed k).rook 0).red 0).inq = [k] ∧ (((wRed k).rook 0).red 0).poison = none
      ∧ wordBits (imgBlock ((wRed k).rook 0).img 6 0) 5 4 = 1 ∧ ((wRed k).rook 0).emitRoom 70 = true)
    ∧ ((wSfu.rook 0).sfuReady 0 = true ∧ (wSfu.rook 0).sfuIn 0 = [dataToken 1 none])
    ∧ ((wFly.rook 0).butterflyReady = true ∧ (wFly.rook 0).butterfly.inq = [dataToken 1 none] ∧ (wFly.rook 0).butterfly.outq = [] ∧ (wFly.rook 0).butterfly.block = [] ∧ (wFly.rook 0).emitRoom 76 = true
      ∧ wordBits (imgBlock (wFly.rook 0).img 12 0) 2 0 = 0 ∧ wordBits (imgBlock (wFly.rook 0).img 12 0) 4 3 = 0)
    ∧ ((dataToken 1 none).kind ≠ 5 ∧ ((wRook [] id).rook 0).saved 87 = false ∧ (((wRook [] id).rook 0).link 7).inbuf = [] ∧ ((wRook [] id).rook 0).emitRoom 87 = true)
    ∧ ((wNoRoom.rook 0).emitRoom 87 = false ∧ ((wNoRoom.rook 0).link 7).inbuf = []) := by decide +kernel

/-! Launch units, the host and the management plane. -/

/-- lnch of the record at 0x2_0000; that record in memory, with the launch unit of die 0 at time 5. -/
def lnch0 : LnchMsg := { thread := r0, id := 3, dst := 5, va := 0x20000, sectors := [0x20000, 0x20040, 0x20080, 0x200C0], time := 0, issue := 0 }
def wordsOf (l : List Word) : List Byte := l.flatMap (fun w => natBytes 8 w.toNat)
def wRec (r : List Word) : State := { wTables.modDie 0 (fun k => { k with time := 5 }) with mem := Memory.setN tables0 0x20000 (wordsOf r) }
def dev0 : DevRecord := { record := rec0, from_ := r0, addr := 0, launch := 5, queue := none, ctx := 0, entered := 0, time := 0 }
def lnchVerdict (s : State) : Verdict :=
  ((lnch0.sectors.foldl (fun s pa => s.readAsUnit 0 pa 64) s).judgeRecordOf 0 (lnchRecord (lnch0.sectors.flatMap (fun pa => bytesWords (Memory.getN s.mem pa 64))) rec0) true).1
/-- A record whose weight-load list of one entry stands in a locked sector. -/
def wListLocked : State := (wRec ((rec0.set 2 0x100).set 22 0x28000)).modSector 0x28000 (fun x => { x with lock := some r1 })
theorem witness_LaunchEvents_lnch : (dieOf lnch0.thread.core = 0 ∧ 15 < 16 ∧ w0.launch? (w0.slot 0 0).launch = none)
    ∧ ((wRec rec0).launch? ((wRec rec0).slot 0 0).launch = some { launch0 with record := rec0 } ∧ ((wRec rec0).die 0).devq.length < 64)
    ∧ 64 ≤ ((wTables.modDie 0 (fun k => { k with devq := List.replicate 64 dev0 })).die 0).devq.length
    ∧ ((∀ pa ∈ lnch0.sectors, (wRec rec0).unitLocked ((wRec rec0).die 0).time pa = false) ∧ ∀ pa ∈ lnch0.sectors, ((wRec rec0).sector pa).poison = none)
    ∧ (let s := (wRec rec0).modSector 0x200C0 (fun x => { x with lock := some r1 })
      ∃ pa ∈ lnch0.sectors, s.unitLocked (s.die 0).time pa = true)
    ∧ (∃ pa ∈ lnch0.sectors, (((wRec rec0).modSector 0x200C0 (fun x => { x with poison := some 1 })).sector pa).poison ≠ none)
    ∧ lnchVerdict (wRec rec0) = .ok [] [] ∧ lnchVerdict (wRec (rec0.set 0 0x30000)) = .invalid 0x081 none ∧ lnchVerdict { wRec rec0 with lines := [(0x20000, .written)] } = .unpublished
    ∧ lnchVerdict wListLocked = .wait := by decide +kernel
/-- Host queue 15 with one record at its head, and nothing in the others. -/
def wHost (r : List Word) (sel : Option Selected) : State :=
  ({ wTables with mem := Memory.setN wTables.mem 0x100000 (wordsOf r) }.modQueue 0 15 (fun k => { k with qbase := 0x100000, tail := 1 })).modDie 0 (fun k => { k with selected := sel })
def place0 : PlaceMsg := { round := 1, home := 1, die := 0, record := rec0, ctx := 0, pri := 0, snap := false }
def wRequest (cpd : Nat) : State × PlaceMsg := let m := { place0 with record := rec0.set 1 (BitVec.ofNat 64 (cpd * 2 ^ 8)) }; (w0.modDie 0 (fun k => { k with requests := [m] }), m)
def wSnapRequest (n : Nat) : State := (wReg n).modDie 0 (fun k => { k with requests := [{ place0 with snap := true }] })
def round0 : Round := { num := 1, waiting := [0], ready := [], notReady := [], full := [], times := [] }
theorem witness_LaunchEvents_admission : ((∀ i < 16, ((w0.die 0).queue i).head = ((w0.die 0).queue i).tail) ∧ (w0.die 0).devq = [] ∧ (w0.die 0).requests = [] ∧ (w0.die 0).selected = none ∧ w0.launches = [])
    ∧ (let s := wHost (rec0.set 24 1) none
      (∀ l ∈ s.launches, l.tau ≠ 0) ∧ (s.die 0).selected = none ∧ (s.die 0).round = none ∧ firstCandidate (s.candidates 0) = some (.queue 15, 0, 1, 15)
        ∧ (∀ i < 4, s.unitLocked (s.die 0).time (((s.die 0).queue 15).recordAt 0 ((s.die 0).queue 15).head + 64 * i) = false)
        ∧ s.poisonAt (((s.die 0).queue 15).recordAt 0 ((s.die 0).queue 15).head) 256 = none ∧ s.formBad 0 (s.headRecord 0 15) false = true)
    ∧ (place0.die = 0 ∧ place0 ∉ (w0.die 0).requests) ∧ ((wRequest 0).2 ∈ ((wRequest 0).1.die 0).requests ∧ (wRequest 0).2.snap = false)
    ∧ ((wRequest 24).2 ∈ ((wRequest 24).1.die 0).requests ∧ (wRequest 24).1.placeDie 0 (wRequest 24).2.record = none)
    ∧ (∀ n ∈ [4095, 4096], let s := wSnapRequest n
      { place0 with snap := true } ∈ (s.die 0).requests ∧ (s.placeDie 0 rec0).isSome = true ∧ (s.pkg 0).registry.length = n)
    ∧ (place0.home = 1 ∧ ((w0.modDie 1 (fun k => { k with round := some round0 })).die 1).round = some round0 ∧ round0.num = place0.round ∧ (w0.die 1).round = none) := by decide +kernel
def selected0 : Selected := { src := .queue 15, record := rec0, addr := 0x100000, wsl := [], graph := [] }
def wSelected : State := wHost rec0 (some selected0)
theorem witness_LaunchEvents_placed : let s := wSelected
    (∀ l ∈ s.launches, l.tau ≠ 0) ∧ (s.die 0).selected = some selected0 ∧ launchDies 0 rec0 = [0] ∧ recSnap rec0 = false ∧ recMirr rec0 = false ∧ s.launch? ((s.die 0).seq) = none
      ∧ s.placeDie 0 rec0 = some [(0, 1)] ∧ (wRequest 0).1.placeDie 0 (wRequest 0).2.record = some [(0, 1)] ∧ (s.core 0).needsScrub (recCtx rec0) = false ∧ (s.clu (cluOf 0)).stale (recCtx rec0) = false := by decide +kernel
theorem witness_LaunchEvents_select : wSelected.select 0 = wSelected := by
  have h : firstCandidate (wSelected.candidates 0) = some (.queue 15, 0, 1, 15) := by decide +kernel
  have p : (wSelected.die 0).selected = some selected0 := by decide +kernel
  have o : (wSelected.die 0).offers 15 = true := by decide +kernel
  unfold State.select
  simp only [p, Option.map_some, selected0, o, if_true, h]
  rfl
/-- A launch of one slot in core 1, live, ended, or aborted. -/
def wLaunch (alive : Nat) (a : Option Nat) : State := { w0 with launches := [{ launch0 with record := rec0, slots := [(1, 3)], alive := alive, aborted := a }] }
/-- A launch of one rook, a store of whose port is in flight. -/
def wStoring : State := { w0.modRook 0 (fun r => { r with reserved := some 0, ports := r.ports.setIfInBounds 0 { MemPort.init with busy := [{ seq := 1, pkt := none, va := 0, store := true }] } }) with launches := [{ launch0 with alive := 0, rooks := [0] }] }
def report0 : Report := { queue := some 15, entry := [1, 2, 3, 4], done := 0, doneTime := 0, ctx := 0 }
def wReport (n : BitVec 32) : State := (w0.modDie 0 (fun k => { k with reports := [report0] })).modQueue 0 15 (fun k => { k with ctail := n })
def wNamed : State := wE 0 (fun sl => { sl with idx := 9 })
theorem witness_LaunchEvents_ends : (∃ l, (wLaunch 1 none).launch? 0 = some l ∧ l.aborted = none ∧ recMirr l.record = false ∧ (∀ e ∈ l.slots, Single (wLaunch 1 none) e.1 ∧ e.2 < 16) ∧ l.slots.Nodup ∧ l.alive ≠ 0 ∧ (0, 1, 3) ∈ numbered l.slots)
    ∧ (∃ l, (wLaunch 0 none).launch? 0 = some l ∧ l.alive = 0 ∧ l.aborted = none ∧ (∀ r ∈ l.rooks, r ∈ l.rooksDone) ∧ (wLaunch 0 none).rookStores l = false)
    ∧ (wStoring.launch? 0 = some { launch0 with alive := 0, rooks := [0] } ∧ wStoring.rookStores { launch0 with alive := 0, rooks := [0] } = true) ∧ (∃ l, (wLaunch 1 (some 0x1A3)).launch? 0 = some l ∧ l.aborted ≠ none)
    ∧ (((wReport 0).die 0).reports = [report0] ∧ ((wReport 0).die 0).hcalls = [] ∧ report0.queue = some 15 ∧ (((wReport 0).die 0).queue 15).hasRoom = true ∧ report0.done = 0 ∧ report0.entry.length = 4)
    ∧ (((wReport 1).die 0).queue 15).hasRoom = false
    ∧ ((wNamed.slot 0 0).isSaved = false ∧ (wNamed.slot 0 0).movedTo = none ∧ (∃ y, (0, y) ∈ wNamed.cores) ∧ (∀ e ∈ wNamed.cores, ∀ j < 16, ((e.2.slot j).occ = .thread ∧ (e.2.slot j).launch = 0 ∧ (e.2.slot j).idx = 9 ∧ e.2.shadowOf = none) ↔ e.1 = 0 ∧ j = 0)
      ∧ (∀ e ∈ wNamed.cores, e.1 = 0 → e.2 = wNamed.core 0) ∧ ∀ e ∈ wNamed.cores, ∀ j < 16, ¬ ((e.2.slot j).occ = .thread ∧ (e.2.slot j).launch = 0 ∧ (e.2.slot j).idx = 8 ∧ e.2.shadowOf = none)) := by
  unfold Single
  exact ⟨⟨{ launch0 with record := rec0, slots := [(1, 3)], alive := 1, aborted := none }, by decide +kernel⟩, ⟨{ launch0 with record := rec0, slots := [(1, 3)], alive := 0, aborted := none }, by decide +kernel⟩, by decide +kernel,
    ⟨{ launch0 with record := rec0, slots := [(1, 3)], alive := 1, aborted := some 0x1A3 }, by decide +kernel⟩, by decide +kernel, by decide +kernel, by decide +kernel, by decide +kernel, ⟨wNamed.core 0, by decide +kernel⟩, by decide +kernel, by decide +kernel, by decide +kernel⟩
/-- Context 7 of package 0 being saved or resumed, its core 0, cluster 0 and rook 0 still to be written. -/
def save0 (resume written : Bool) : Preempt :=
  { ctx := 0, resume := resume, start := 0, clusters := [0], launches := [], coresLeft := [0], rooksLeft := [0], weightsLeft := [0], jobs := [], lastWrite := 0, maxTime := 0, psa := 0x20000, retire := none, written := written }
def wSave (resume written : Bool) (f : Slot → Slot) : State := (w0.modMe f).modPkg 0 (fun k => { k with preempt := some (save0 resume written) })
def wHeader : State := { wTables with mem := Memory.setN (Memory.setN wTables.mem 24 [0, 0, 2]) 0x20000 [0, 0, 0, 0, 0, 0, 0, 0x80] }
theorem witness_LaunchEvents_preemption : ((wSave false false id).pkg 0).preempt ≠ none ∧ ((w0.pkg 0).preempt = none ∧ (∀ e ∈ w0.clusters, pkgOfClu e.1 = 0 → e.2.retiring = false) ∧ w0.ctxLaunches 0 7 = [] ∧ w0.readDescriptor 0 7 = none)
    ∧ (let s := wTables.modPkg 0 (fun k => { k with ctxs := [(0, { root := 0x40000, fmap := 0, psa := 0 })] })
      s.ctxLaunches 0 0 ≠ [] ∧ (s.pkg 0).ctxs.find? (fun e => e.1 = 0) ≠ none)
    ∧ (Held (wSave false false id) r0 ∧ ((wSave false false id).slot 0 0).occ = .thread ∧ ((wSave false false id).slot 0 0).ctx = (save0 false false).ctx ∧ (save0 false false).resume = false)
    ∧ (let s := wSave false false (fun sl => { sl with block := some (block0 .saved) })
      0 ∈ (save0 false false).coresLeft ∧ (s.core 0).maySave = true ∧ (s.core 0).mirror = none) ∧ 1 ∉ (save0 false false).coresLeft ∧ 0 ∈ (save0 false false).weightsLeft ∧ 0 ∈ (save0 false false).rooksLeft
    ∧ (((wSave false true id).pkg 0).preempt = some (save0 false true) ∧ ((wSave true false id).pkg 0).preempt = some (save0 true false))
    ∧ (wHeader.readDescriptor 0 0 = some { root := 0x40000, fmap := 0, psa := 0x20000 } ∧ (let y : CtxDesc := { root := 0x40000, fmap := 0, psa := 0x20000 }
      let s' := wHeader.modPkg 0 (fun k => { k with ctxs := setKey k.ctxs 0 y })
      s'.areaDw 0 0 y.psa 0 / 2 ^ 63 ≠ 0 ∧ s'.areaDw 0 0 y.psa 0 % 2 ^ 16 = 0 ∧ s'.areaDw 0 0 y.psa 0 / 2 ^ 16 % 512 = 0)) := by unfold Held Single; decide +kernel
def wHcall (n : Nat) : State := wTables.modDie 0 (fun k => { k with hcalls := List.replicate n (none, 0, []) })
/-- The first sector of the page is locked, and the launch unit of die 0 is at time 5. -/
def wLockedPage : State := ((wTables.modPkg 0 (fun k => { k with ctxs := [(0, { root := 0x40000, fmap := 0, psa := 0 })] })).modDie 0 (fun k => { k with time := 5 })).modSector 0x20000 (fun x => { x with lock := some r1 })
theorem witness_LaunchEvents_host : (hostMem (2 ^ 42 - 1) 2 = false ∧ hostMem 0 1 = true ∧ (w0.pkg 0).hostWait = [] ∧ (w0.pkg 0).hwv = false ∧ (w0.pkg 0).hostOut = [])
    ∧ ((w0.modPkg 0 (fun k => { k with hostOut := [5] })).pkg 0).hostOut ≠ [] ∧ ((List.replicate 8 0 : List Byte).length = 8)
    ∧ (4 ≤ ((wHcall 4).die 0).hcalls.length ∧ ((wHcall 3).die 0).hcalls.length < 4 ∧ ((wHcall 3).modPkg 0 (fun k => { k with ctxs := [(0, { root := 0x40000, fmap := 0, psa := 0 })] })).unitRead 0 0 0 0x20000 24 = .ok (List.replicate 24 0)
      ∧ wTables.unitRead 0 1 0 0x20000 24 = .fail 1 0x20000 ∧ wLockedPage.unitRead 0 0 5 0x20000 24 = .wait)
    ∧ (w0.hostReadLocked 0 0x20000 64 = false ∧ (w0.raiseDie 0 5).hostReadLocked 0 0x20000 64 = false ∧ wLockedPage.hostReadLocked 0 0x20000 64 = true)
    ∧ [5].filter (· != 5) = ([] : List Nat) := by decide +kernel
theorem witness_LaunchEvents_hostWait : ((w0.modPkg 0 (fun k => { k with hostWait := [.hostRead 0 0 1] })).pkg 0).hostWait ≠ [] := by
  show ([Instr.hostRead 0 0 1] : List Instr) ≠ []
  simp

def wPair (f : Mirror → Mirror) : State := { w0.modCore 0 (fun k => { k with mirror := some (f mirror0) }) with agenda := [] }
def cluster0 (spares : List Nat) : State := w0.modDie 0 (fun k => { k with spares := spares })
def wStep (n : Nat) : State := w0.modPkg 0 (fun k => { k with yamus := { k.yamus with step := n } })
/-- Two messages from die 0 to die 1 on one channel, and one within die 0. -/
noncomputable def wFlits : State :=
  { w0 with agenda := [{ due := 40, rank := 0, num := 1, ev := .fillArrival fill0, wire := some { vc := 0, src := 0, dst := 1 } }, { due := 44, rank := 0, num := 2, ev := .fillArrival fill0, wire := some { vc := 0, src := 0, dst := 1 } }
    , { due := 48, rank := 0, num := 3, ev := .fillArrival fill0 }] }
/-- What a bring-up finds that passes every test. -/
def bringUp0 (lp : Bool) : BringUp :=
  { image := { header := [], body := [] }, badClusters := [], badVaults := [], lpddrOk := lp, diePairsOk := true, humir := []
    birsyn := { serial := 0, rates := [200], lanes := [{ partner := 0, inverted := false, passes := [200] }, { partner := 1, inverted := false, passes := [200] }] } }
def telemetry0 : Telemetry := { measured := [], mean := 0, clock := 0, corr := [], links := [], faultCode := 0 }
def wReady : State := w0.modPkg 0 (fun k => { k with yamus := { k.yamus with recovery := none, readings := some telemetry0 } })
theorem witness_ManagementEvents : (Held w0 r0 ∧ fixedReg (.g 1) = false ∧ (w0.slot 0 0).regs.tag (.g 1) = .full) ∧ (w0.core 0).mirror = none ∧ crUnit 0 0x010 = none ∧ crUnit 0 0x142 = some 0
    ∧ ((∀ p ∈ wFlits.agenda, wFlits.agenda.find? (fun z => z.num = p.num) = some p) ∧ wFlits.agenda.map Pending.crosses = [true, true, false] ∧ wFlits.late = [])
    ∧ ((wPair id).core 0).mirror = some mirror0 ∧ (mirror0.waits = false ∧ ((wPair id).core 0).stopUntil ≤ (wPair id).cycle ∧ ({ wPair id with now := 40 } : State).phase = 0)
    ∧ (((wPair (fun m => { m with waits := true })).core 0).localBusy = false ∧ ((wPair (fun m => { m with waits := true })).core 1).localBusy = false ∧ (wPair (fun m => { m with waits := true })).rollbackDue 0 = false ∧ (wPair (fun m => { m with waits := true })).agenda.length = 0)
    ∧ (mirror0.shadow ≠ 0 ∧ mirror0.mismatched = false)
    ∧ ((w0.clu 0).retiring = false ∧ ((cluster0 []).die 0).spares = [] ∧ ((cluster0 [24]).die 0).spares = [24] ∧ ((cluster0 [24]).die 0).remaps.count (0 % 24) < 2)
    ∧ (0 < (w0.die 0).groupFree.length) ∧ ((wStep 8).pkg 0).yamus.step = 8 ∧ ((wStep 8).pkg 0).podPkg = 0 ∧ ((wStep 9).pkg 0).yamus.step ≠ 8 ∧ (w0.pkg 0).podN = 0
    ∧ (let s := w0.modPkg 0 (fun k => { k with podN := 1, podPkg := 1 })
      (s.pkg 0).podN ≠ 0 ∧ (s.pkg 0).podPkg ≠ 0 ∧ (s.pkg 0).released = true)
    ∧ (0 % 512 ≤ 511 % 512 ∧ 0 % 512 ≤ 0 ∧ (w0.pkg 0).yamus.step ≠ 8 ∧ ∀ z ∈ ([] : List (Nat × Nat × List Nat)), ∀ port ∈ z.2.2, w0.portUp 0 port = true) ∧ (w0.pkg 0).yamus.recovery = none ∧ (wReady.pkg 0).yamus.recovery = none ∧ (wReady.pkg 0).yamus.readings = some telemetry0
    ∧ ((w0.modPkg 0 (fun k => { k with yamus := { k.yamus with recovery := some (bringUp0 true) } })).pkg 0).yamus.recovery = some (bringUp0 true)
    ∧ ((w0.pkg 0).released = true) ∧ (800 ≤ 800 ∧ 2600 ≤ 2600 ∧ 799 < 800 ∧ 2600 < 2601) := by unfold Held Single; decide +kernel
/-- The outcomes of a reset: an image whose counter is too low is refused. That an image is accepted rests on the digests and signatures of log 15, which no concrete image can show; the other conditions of its clauses hold of bringUp0. -/
theorem witness_ManagementEvents_bringUp : fwAccepted { header := [], body := [] } (fwCounter { header := [], body := [] } + 1) = false
    ∧ (∃ r2 r3, repairDies (w0.pkg 0).yamus.record (bringUp0 true).badClusters = some r2 ∧ retireVaults r2 (bringUp0 true).badVaults (bringUp0 true).badClusters = some r3)
    ∧ (bringUp0 false).lpddrOk = false ∧ (bringUp0 true).lpddrOk = true ∧ (bringUp0 true).diePairsOk = true ∧ trainBirsyn (bringUp0 true).birsyn ≠ none :=
  ⟨by simp [fwAccepted], ⟨_, _, rfl, rfl⟩, by decide +kernel, by decide +kernel, by decide +kernel, by decide +kernel⟩

/-! The machine as a whole. -/

theorem witness_TransactionAbort : wTx.cur.slot < 16 ∧ wTx.primaryOf wTx.cur.core = none ∧ wTx.me.tx = some tx0 := by decide +kernel
/-- The doubleword of `add g1, g1, g1`, alone and before `nop`, and of the pair `ld.d ‖ addi` of chapter 3, at the place where the next bundle is fetched. -/
noncomputable def wWord (d : Nat) : State := (State.reset.placeWord d).modSlot 0 0 (fun sl => { sl with regs := Regs.allFull })
theorem witness_StepRunsDecoded : ∀ d ∈ [0x20846100, 0x21885FFF83A42000], let s := wWord d
    s.phase = 1 ∧ s.dueResume = none ∧ s.forced = [] ∧ s.nextCore = some (0, 0, 0) ∧ 0 = s.scanCore ∧ s.scanIssued = none ∧ (s.core 0).reservedCycle ≠ some s.cycle ∧ (s.slot 0 0).stopping = false
      ∧ (s.slot 0 0).st.role = .independent ∧ (s.core 0).mirror = none := by decide +kernel
theorem witness_StepRunsDecoded_fetch : (wWord 0x20846100).dueEvent = none ∧ (wWord 0x20846100).takeInterrupt 0 0 0x10000 = none ∧ ∃ d s1, (wWord 0x20846100).fetch 0 0 = .word d s1 ∧ (s1.core 0).mirror = none ∧ (s1.slot 0 0).st.role = .independent ∧ (s1.core 0).hasRoom (.add 1 3 1) = true ∧ s1.judge 0 0 [(.add 1 3 1, 0)] = .ready ∧ d = 0x20846100 :=
  ⟨by rfl, by rfl, _, _, rfl, by decide +kernel, by decide +kernel, by decide +kernel, by decide +kernel, by decide +kernel⟩
theorem witness_StepRunsDecoded_pair : ∃ d s1, (wWord 0x21885FFF83A42000).fetch 0 0 = .word d s1 ∧ (s1.core 0).hasRoom (.ldD 9 1 0) = true ∧ (s1.core 0).hasRoom (.addi 2 2 0x1FFF) = true
    ∧ s1.judge 0 0 [(.ldD 9 1 0, 0), (.addi 2 2 0x1FFF, 1)] = .ready ∧ d = 0x21885FFF83A42000 :=
  ⟨_, _, rfl, by decide +kernel, by decide +kernel, by decide +kernel, by decide +kernel⟩
theorem witness_StepRunsDecoded_words : decodeInstr 0x20846100 = some (.add 1 3 1) ∧ decodeInstr (0x83A42000 % 2 ^ 30) = some (.ldD 9 1 0) ∧ decodeInstr 0x21885FFF = some (.addi 2 2 0x1FFF)
    ∧ (Instr.ldD 9 1 0).mayPair = true ∧ sameDest (.ldD 9 1 0) (.addi 2 2 0x1FFF) = false ∧ modeIllegal false (.ldD 9 1 0) = false := by decide +kernel
theorem witness_StepRunsDecoded_bundle : checkBundle 0x10000 true false 0x21885FFF83A42000 = .pair (.ldD 9 1 0) (.addi 2 2 0x1FFF) := by rfl
theorem witness_StepTakesUpEvents : State.reset.dueResume = none ∧ (∃ p rest, ({ State.reset with now := 4 * 850000 } : State).agenda = p :: rest ∧ p.due ≤ 4 * 850000)
    ∧ (State.reset.dueEvent = none ∧ State.reset.dueForced = none ∧ State.reset.phase ≠ 1) :=
  ⟨by decide +kernel, ⟨_, _, rfl, by decide +kernel⟩, by rfl, by rfl, by decide +kernel⟩
/-- The invariant of StepKeepsMemoryForm holds at reset, and a step from a state in which it holds answers a next state. -/
theorem witness_StepKeepsMemoryForm : Memory.wf State.reset.mem = true ∧ Memory.wf (placed (ar 0x41 0) []).mem = true ∧ (match step (placed (ar 0x41 0) []) with | .next _ => true | _ => false) = true := by decide +kernel
theorem witness_DecodeEncodeAgree : ({ pair := true, hold := true, instr := .ldD 9 1 0 } : Bundled).instr.wf = true ∧ (Instr.ldD 9 1 0).mayPair = true
    ∧ encode { pair := true, hold := true, instr := .ldD 9 1 0 } = some 0xC3A42000 ∧ decode 0xC3A42000 = some { pair := true, hold := true, instr := .ldD 9 1 0 } := by decide +kernel

end Sys2Proof.Tests
end

section
/-! PROOFS of the family 01 (thread state): R9, the constant registers, and R14, vector results under a mask. -/

namespace Sys2Proof.Machine

open Sys2Proof

/-! ### Results under a mask (R14) -/

/-- 32 ones moved to a lane stand at the bits of that lane alone. -/
theorem getLsbD_laneOnes {j : Nat} (hj : j < 512) (n : Nat) : (0xFFFFFFFF#512 <<< (32 * n)).getLsbD j = decide (j / 32 = n) := by
  have ones (i : Nat) : (0xFFFFFFFF : Nat).testBit i = decide (i < 32) := Nat.testBit_two_pow_sub_one 32 i
  rw [BitVec.getLsbD_shiftLeft, BitVec.getLsbD_ofNat, ones]
  simp only [← decide_not, ← Bool.decide_and]
  exact decide_eq_decide.mpr (by omega)

/-- The first n lanes of a mask cover the bits of the enabled ones among them and no others. -/
theorem getLsbD_laneMask_below (m : MWord) {j : Nat} (hj : j < 512) (n : Nat) :
    ((List.range n).foldl (fun a i => if m.getLsbD i then a ||| (0xFFFFFFFF#512 <<< (32 * i)) else a) 0).getLsbD j
      = (decide (j / 32 < n) && m.getLsbD (j / 32)) := by
  induction n with
  | zero => simp
  | succ n ih =>
    have lane_n (a : VWord) : (if m.getLsbD n then a ||| (0xFFFFFFFF#512 <<< (32 * n)) else a).getLsbD j
        = (a.getLsbD j || (decide (j / 32 = n) && m.getLsbD n)) := by
      cases m.getLsbD n
      case true => rw [if_pos rfl, BitVec.getLsbD_or, getLsbD_laneOnes hj, Bool.and_true]
      case false => rw [if_neg Bool.false_ne_true, Bool.and_false, Bool.or_false]
    rw [List.range_succ, List.foldl_append, List.foldl_cons, List.foldl_nil, lane_n, ih]
    by_cases hn : j / 32 = n
    · simp [hn]
    · simp [hn, Nat.le_iff_lt_or_eq]

/-- A bit of a vector lies under the mask bit of its lane (R8). -/
theorem getLsbD_laneMask (m : MWord) {j : Nat} (hj : j < 512) : (laneMask m).getLsbD j = m.getLsbD (j / 32) := by
  have hlane : j / 32 < 16 := by omega
  rw [laneMask, getLsbD_laneMask_below m hj, decide_eq_true hlane, Bool.true_and]

/-- The bits of a lane. -/
theorem getLsbD_lane (x : VWord) (l : Nat) {i : Nat} (hi : i < 32) : (lane x l).getLsbD i = x.getLsbD (32 * l + i) := by
  rw [lane, BitVec.getLsbD_setWidth, BitVec.getLsbD_ushiftRight, decide_eq_true hi, Bool.true_and]

/-- A lane is the slice of its 32 bits. -/
theorem extractLsb'_eq_lane (x : VWord) (l : Nat) : x.extractLsb' (32 * l) 32 = lane x l :=
  BitVec.eq_of_getLsbD_eq fun i hi => by
    rw [getLsbD_lane x l hi, BitVec.getLsbD_extractLsb', decide_eq_true hi, Bool.true_and]

/-- A lane under a mask: the result's where the mask bit is 1, else 0 for a Void destination and the old one for any other (R14). -/
theorem lane_mergeLanes (old : Reg 512) (m : MWord) (x : VWord) {l : Nat} (hl : l < 16) :
    lane (mergeLanes old m x) l = if m.getLsbD l then lane x l else if old.tag = .void then 0 else lane old.val l := by
  refine BitVec.eq_of_getLsbD_eq fun i hi => ?_
  have hw : 32 * l + i < 512 := by omega
  have hbit : (laneMask m).getLsbD (32 * l + i) = m.getLsbD l := by
    rw [getLsbD_laneMask m hw, show (32 * l + i) / 32 = l by omega]
  rw [getLsbD_lane _ l hi, mergeLanes, BitVec.getLsbD_or, BitVec.getLsbD_and, BitVec.getLsbD_and, BitVec.getLsbD_not, hbit]
  cases hm : m.getLsbD l
  case true => rw [if_pos rfl, getLsbD_lane x l hi, Bool.and_true, Bool.not_true, Bool.and_false, Bool.and_false, Bool.or_false]
  case false => by_cases hv : old.tag = .void <;> simp [hv, hw, getLsbD_lane old.val l hi]

end Sys2Proof.Machine

namespace Sys2Proof

open Sys2Proof.Machine

/-- The running thread's v register after a result under a mask (R14). -/
theorem getV_putVMasked (s : State) (h : s.cur.slot < 16) (d : Fin 16) (k : Fin 8) (x : VWord) :
    (s.putVMasked d k x).me.regs.getV d = Reg.full (mergeLanes (s.cur.regs.getV d) (s.mval k) x) := by
  simp [State.putVMasked, State.putV, h]

/-- Settles O53: the register holds the merged lanes, and a write of a v register leaves all else. -/
theorem maskedVectorWrites : Obligations.MaskedVectorWrites := by
  unfold Obligations.MaskedVectorWrites
  intro s d k x h
  refine ⟨fun l hl => ?_, ?_, onlyRegs_putV s h d _⟩
  · simp only [getV_putVMasked s h, extractLsb'_eq_lane]
    exact lane_mergeLanes _ _ _ hl
  · rw [getV_putVMasked s h]
    rfl

/-! ### The constant registers (R9) -/

/-- A result written into g0 leaves the running thread's slot (R9). -/
theorem me_putG_zero (s : State) (h : s.cur.slot < 16) (x : Word) : (s.putG 0 x).me = s.me := by
  simp [State.putG, h]

/-- A result written into m0 leaves the running thread's slot (R9). -/
theorem me_putM_zero (s : State) (h : s.cur.slot < 16) (x : MWord) : (s.putM 0 x).me = s.me := by
  simp [State.putM, h]

/-- An instruction that leaves the running thread's slot and the latch completes, traps nowhere and changes no register. -/
theorem completes_of_me_eq {s t : State} {i : Instr} (e : exec i s = .next t) (hme : t.me = s.me) (hcur : t.cur = s.cur) :
    ∃ t, exec i s = .next t ∧ t.me.regs = s.me.regs ∧ t.cur.status = s.cur.status ∧ t.me.pc = s.me.pc :=
  ⟨t, e, by rw [hme], by rw [hcur], by rw [hme]⟩

/-- Settles O52: a write of g0 or m0 is the identity on the registers, and each instruction ends in such a write. -/
theorem constantRegisters : Obligations.ConstantRegisters := by
  unfold Obligations.ConstantRegisters
  refine ⟨fun r => ?accessors, rfl, rfl, fun s a b j k h i hi => ?instructions⟩
  case accessors =>
    exact ⟨r.getG_zero, r.getM_zero, rfl, rfl, r.setG_zero, r.setM_zero, fun _ => ⟨r.setG_zero _, r.setM_zero _⟩,
      fun _ _ => ⟨r.setG_zero _, r.setM_zero _⟩⟩
  case instructions =>
    simp only [List.mem_cons, List.not_mem_nil, or_false] at hi
    obtain rfl | rfl | rfl | rfl := hi
    · exact completes_of_me_eq (t := s.putG 0 (s.gval a + s.gval b)) rfl (me_putG_zero s h _) rfl
    · exact completes_of_me_eq (t := s.putG 0 (s.gval a * s.gval b)) rfl (me_putG_zero s h _) rfl
    · exact completes_of_me_eq (t := s.putM 0 (s.mval j &&& s.mval k)) rfl (me_putM_zero s h _) rfl
    · exact completes_of_me_eq (t := s.putM 0 (s.mval j ^^^ s.mval k)) rfl (me_putM_zero s h _) rfl

end Sys2Proof
end

section
/-! PROOFS of the family 02 (number formats): R49, vector reductions by the fixed pairwise tree. -/

namespace Sys2Proof.Machine

open Sys2Proof

/-! ### Two changes of the running thread's slot are one -/

/-- Only the last value stored under a key stays. -/
theorem setKey_setKey_self {α : Type} (l : List (Nat × α)) (k : Nat) (x y : α) : setKey (setKey l k x) k y = setKey l k y := by
  induction l with
  | nil => simp [setKey]
  | cons e r ih =>
    obtain ⟨j, z⟩ := e
    simp only [setKey]
    split
    · simp [setKey]
    · split <;> simp_all [setKey]

/-- Two changes of a slot are the change by the one after the other. -/
theorem Core.modSlot_modSlot (k : Core) {i : Nat} (h : i < 16) (f g : Slot → Slot) :
    (k.modSlot i f).modSlot i g = k.modSlot i (fun sl => g (f sl)) := by
  rw [Core.modSlot, Core.slot_modSlot_self k f h]
  simp [Core.modSlot]

/-- Two changes of a core are the change by the one after the other. -/
theorem State.modCore_modCore (s : State) (c : CoreKey) (f g : Core → Core) : (s.modCore c f).modCore c g = s.modCore c (fun k => g (f k)) := by
  rw [State.modCore, State.core_modCore_self]
  simp only [State.modCore, setKey_setKey_self]

/-- Two changes of the running thread's slot are the change by the one after the other. -/
theorem State.modMe_modMe (s : State) (h : s.cur.slot < 16) (f g : Slot → Slot) :
    (s.modMe f).modMe g = s.modMe (fun sl => g (f sl)) := by
  simp only [State.modMe, State.modSlot]
  refine (State.modCore_modCore s s.cur.core _ _).trans (congrArg (s.modCore s.cur.core) (funext fun k => ?_))
  exact k.modSlot_modSlot h f g

/-! ### Flags (R34) -/

/-- To raise no flag leaves cr.fcsr. -/
@[simp] theorem Fcsr.raise_none (c : Fcsr) : c.raise Flags.none = c := by
  simp [Fcsr.raise, Flags.none]

/-- No flag and no flag are no flag. -/
@[simp] theorem Flags.none_or_none : Flags.none.or Flags.none = Flags.none := rfl

/-- The running thread's slot after flags are raised. -/
theorem State.me_raiseFlags (s : State) (h : s.cur.slot < 16) (f : Flags) : (s.raiseFlags f).me = { s.me with fcsr := s.me.fcsr.raise f } :=
  s.me_modMe _ h

/-- Flags raised and a g result are one change of the running thread's slot. -/
theorem State.raiseFlags_putG (s : State) (h : s.cur.slot < 16) (f : Flags) (d : Fin 32) (x : Word) :
    (s.raiseFlags f).putG d x = s.modMe (fun sl => { sl with fcsr := sl.fcsr.raise f, regs := sl.regs.setG d (Reg.full x) }) :=
  s.modMe_modMe h _ _

/-- A g result that raises no flag is the g result alone. -/
theorem State.raiseFlags_none_putG (s : State) (h : s.cur.slot < 16) (d : Fin 32) (x : Word) : (s.raiseFlags Flags.none).putG d x = s.putG d x := by
  rw [s.raiseFlags_putG h]
  simp only [Fcsr.raise_none, State.putG]

/-! ### The tree (R49) -/

/-- The pairwise tree over the values of the 16 lanes, its levels written out. -/
def pairTree {α : Type} (node : α → α → α) (leaf : Nat → α) : α :=
  let quarter (k : Nat) := node (node (leaf k) (leaf (k + 1))) (node (leaf (k + 2)) (leaf (k + 3)))
  node (node (quarter 0) (quarter 4)) (node (quarter 8) (quarter 12))

/-- Four levels of pairs over the 16 lanes are that tree. -/
theorem tree16_lanes {α : Type} (node : α → α → α) (dflt : α) (leaf : Nat → α) :
    tree16 node dflt ((List.range 16).map leaf) = pairTree node leaf := rfl

/-- What holds of every leaf and is kept by every node holds of the tree. -/
theorem pairTree_induction {α : Type} {p : α → Prop} {node : α → α → α} {leaf : Nat → α} (hleaf : ∀ k, p (leaf k))
    (hnode : ∀ x y, p x → p y → p (node x y)) : p (pairTree node leaf) := by
  have quarter (k : Nat) : p (node (node (leaf k) (leaf (k + 1))) (node (leaf (k + 2)) (leaf (k + 3)))) :=
    hnode _ _ (hnode _ _ (hleaf _) (hleaf _)) (hnode _ _ (hleaf _) (hleaf _))
  exact hnode _ _ (hnode _ _ (quarter 0) (quarter 4)) (hnode _ _ (quarter 8) (quarter 12))

/-- A leaf of a reduction: an enabled lane, or the identity for a disabled one (R171). -/
def reductionLeaf (s : State) (a : Fin 16) (mk : Fin 8) (ident : BitVec 32) (k : Nat) : BitVec 32 × Flags :=
  (if (s.mval mk).getLsbD k then lane (s.vval a) k else ident, Flags.none)

/-- A node of a reduction: the operation on the values, and its flags beside those from below (R171). -/
def reductionNode (g : BitVec 32 → BitVec 32 → BitVec 32 × Flags) (p q : BitVec 32 × Flags) : BitVec 32 × Flags :=
  ((g p.1 q.1).1, (p.2.or q.2).or (g p.1 q.1).2)

/-- The value and the flags of a reduction's tree. -/
def reduction (s : State) (a : Fin 16) (mk : Fin 8) (ident : BitVec 32) (g : BitVec 32 → BitVec 32 → BitVec 32 × Flags) : BitVec 32 × Flags :=
  pairTree (reductionNode g) (reductionLeaf s a mk ident)

/-- A reduction raises its tree's flags once and writes its tree's value, extended (R171). -/
theorem vecReduce_eq (ident : BitVec 32) (g : BitVec 32 → BitVec 32 → BitVec 32 × Flags) (signed : Bool) (d : Fin 32) (a : Fin 16) (mk : Fin 8) (s : State) :
    vecReduce ident g signed d a mk s = .next ((s.raiseFlags (reduction s a mk ident g).2).putG d
      (if signed then sext (reduction s a mk ident g).1 else zext (reduction s a mk ident g).1)) := by
  rw [reduction, ← tree16_lanes _ (ident, Flags.none)]
  rfl

/-- A reduction by an operation without flags has none (R35). -/
theorem reduction_flags_none (s : State) (a : Fin 16) (mk : Fin 8) (ident : BitVec 32) (g : BitVec 32 → BitVec 32 → BitVec 32) :
    (reduction s a mk ident (fun x y => (g x y, Flags.none))).2 = Flags.none := by
  refine pairTree_induction (p := fun r : BitVec 32 × Flags => r.2 = Flags.none) (fun _ => rfl) (fun x y hx hy => ?_)
  rw [reductionNode, hx, hy, Flags.none_or_none, Flags.none_or_none]

/-! ### Least and greatest of two lanes -/

/-- The signed less of two lanes, by their integers. -/
theorem ite_slt_min (x y : BitVec 32) : (if y.slt x then y else x) = if x.toInt ≤ y.toInt then x else y := by
  simp only [BitVec.slt, decide_eq_true_eq, ← Int.not_le, ite_not]

/-- The signed greater of two lanes, by their integers. -/
theorem ite_slt_max (x y : BitVec 32) : (if x.slt y then y else x) = if y.toInt ≤ x.toInt then x else y := by
  simp only [BitVec.slt, decide_eq_true_eq, ← Int.not_le, ite_not]

/-- The unsigned less of two lanes, by their numbers. -/
theorem ite_ult_min (x y : BitVec 32) : (if y.ult x then y else x) = if x.toNat ≤ y.toNat then x else y := by
  simp only [BitVec.ult, decide_eq_true_eq, ← Nat.not_le, ite_not]

/-- The unsigned greater of two lanes, by their numbers. -/
theorem ite_ult_max (x y : BitVec 32) : (if x.ult y then y else x) = if y.toNat ≤ x.toNat then x else y := by
  simp only [BitVec.ult, decide_eq_true_eq, ← Nat.not_le, ite_not]

end Sys2Proof.Machine

namespace Sys2Proof

open Sys2Proof.Machine

/-- Flags raised and one g result change that register and the flags and nothing else (R34). -/
theorem onlyRegsFlags_raiseFlags_putG (s : State) (h : s.cur.slot < 16) (f : Flags) (d : Fin 32) (x : Word) :
    OnlyRegsFlags s ((s.raiseFlags f).putG d x) [.g d] := by
  obtain ⟨regs, -, -⟩ := onlyRegs_putG (s.raiseFlags f) h d x
  refine ⟨fun r hr => ?register, ?slot, ?fcsr, ?others⟩
  case register =>
    have kept := regs r hr
    cases r <;> simpa only [SameReg, s.me_raiseFlags h] using kept
  case slot => rw [s.raiseFlags_putG h, s.me_modMe _ h]
  case fcsr => rw [s.raiseFlags_putG h, s.me_modMe _ h]; rfl
  case others => rw [s.raiseFlags_putG h]; exact onlyMySlot_modMe s _

/-- A meaning that raises flags and writes one g register gives it its value, ORs the flags and changes nothing else. -/
theorem givesGFlags_of_raiseFlags_putG {s : State} {i : Instr} {d : Fin 32} {x : Word} {f : Flags} (h : s.cur.slot < 16)
    (e : exec i s = .next ((s.raiseFlags f).putG d x)) : GivesGFlags s i d x f := by
  refine ⟨_, e, ?_, ?_, onlyRegsFlags_raiseFlags_putG s h f d x⟩
  · by_cases hd : d = 0 <;> simp [s.raiseFlags_putG h, h, hd]
  · rw [s.raiseFlags_putG h, s.me_modMe _ h]

/-- An FP32 reduction gives the value of its tree and ORs the tree's flags (R171). -/
theorem givesGFlags_of_vecReduceFp {s : State} {i : Instr} {ident : BitVec 32} {g : Nat → Nat → Nat × Flags} {d : Fin 32} {a : Fin 16} {mk : Fin 8}
    (h : s.cur.slot < 16) (e : exec i s = vecReduceFp ident g d a mk s) :
    GivesGFlags s i d (zext (reduction s a mk ident (fun x y => lane32 (g x.toNat y.toNat))).1)
      (reduction s a mk ident (fun x y => lane32 (g x.toNat y.toNat))).2 :=
  givesGFlags_of_raiseFlags_putG h (e.trans (vecReduce_eq _ _ _ _ _ _ _))

/-- An integer reduction gives the value of its tree and no flag (R171), by any operation that agrees with its own. -/
theorem givesG_of_vecReduceInt {s : State} {i : Instr} {ident : BitVec 32} {g g' : BitVec 32 → BitVec 32 → BitVec 32} {signed : Bool} {d : Fin 32}
    {a : Fin 16} {mk : Fin 8} (h : s.cur.slot < 16) (e : exec i s = vecReduceInt ident g signed d a mk s) (hg : ∀ x y, g x y = g' x y) :
    GivesG s i d (if signed then sext (reduction s a mk ident (fun x y => (g' x y, Flags.none))).1
      else zext (reduction s a mk ident (fun x y => (g' x y, Flags.none))).1) := by
  obtain rfl : g = g' := funext₂ hg
  refine givesG_of_putG h (e.trans ?_)
  rw [vecReduceInt, vecReduce_eq, reduction_flags_none, s.raiseFlags_none_putG h]

/-- Settles O11: every reduction is the tree of R49; the integer ones raise nothing. -/
theorem reductionResults : Obligations.ReductionResults := by
  unfold Obligations.ReductionResults
  intro s d a mk h rm z leaf node tree fp int
  have htree (ident : BitVec 32) (g : BitVec 32 → BitVec 32 → BitVec 32 × Flags) : tree ident g = reduction s a mk ident g := rfl
  have fpGives {i : Instr} {ident : BitVec 32} {g : Nat → Nat → Nat × Flags} (e : exec i s = vecReduceFp ident g d a mk s) : fp i ident g := by
    simp only [fp, htree]
    exact givesGFlags_of_vecReduceFp h e
  have intGives {i : Instr} {ident : BitVec 32} {signed : Bool} {g g' : BitVec 32 → BitVec 32 → BitVec 32}
      (hg : ∀ x y, g x y = g' x y) (e : exec i s = vecReduceInt ident g signed d a mk s) : int i ident signed g' := by
    simp only [int, htree]
    exact givesG_of_vecReduceInt h e hg
  -- From here on only fpGives and intGives speak of fp and int: their bodies would be unfolded in every part.
  clear_value fp int
  exact ⟨fpGives rfl, fpGives rfl, fpGives rfl, intGives (fun _ _ => rfl) rfl, intGives ite_slt_min rfl, intGives ite_slt_max rfl, intGives ite_ult_min rfl,
    intGives ite_ult_max rfl, intGives (fun _ _ => rfl) rfl, intGives (fun _ _ => rfl) rfl, intGives (fun _ _ => rfl) rfl⟩

end Sys2Proof
end

section
/-! PROOFS of the family 05 (memory and synchronisation): R154, what txa leaves and what it changes where the state lists no die twice, and a state that lists one twice. -/

namespace Sys2Proof.Machine

open Sys2Proof

/-! ### Events are only added -/

/-- An event of the agenda stays in it when another is inserted. -/
theorem mem_insertPending_of_mem {l : List Pending} {p : Pending} (q : Pending) (h : p ∈ l) : p ∈ insertPending l q := by
  induction l with
  | nil => cases h
  | cons x r ih =>
    rw [insertPending]
    split
    · exact List.mem_cons_of_mem _ h
    · rcases List.mem_cons.mp h with rfl | hr
      · exact List.mem_cons_self
      · exact List.mem_cons_of_mem _ (ih hr)

/-- A launch unit that is woken is due already, or becomes due in that cycle. -/
theorem State.wakeUnit_eq (s : State) (d : DieKey) (cycle : Nat) :
    s.wakeUnit d cycle = s ∨ s.wakeUnit d cycle = s.postAt cycle (2 ^ 50) (.launchAdmission d) := by
  unfold State.wakeUnit
  split
  · exact .inl rfl
  · exact .inr rfl

/-! ### Rounds that begin anew (R367) -/

/-- All that differs from s to t is that dies have given up a round, each with an entry whose round passes the test, and that events have been added. -/
structure RoundsRestarted (entries : List (DieKey × Die)) (held : Round → Bool) (s t : State) : Prop where
  others : { t with dies := s.dies, agenda := s.agenda, fresh := s.fresh } = s
  events : ∀ p ∈ s.agenda, p ∈ t.agenda
  dieOthers : ∀ d, { t.die d with round := (s.die d).round } = s.die d
  rounds : ∀ d, (t.die d).round = (s.die d).round ∨ ((t.die d).round = none ∧ ∃ k, (d, k) ∈ entries ∧ k.round.any held = true)

section
variable {entries : List (DieKey × Die)} {held : Round → Bool} {s t u : State}

theorem RoundsRestarted.refl : RoundsRestarted entries held s s :=
  ⟨rfl, fun _ h => h, fun _ => rfl, fun _ => .inl rfl⟩

theorem RoundsRestarted.trans (h : RoundsRestarted entries held s t) (h' : RoundsRestarted entries held t u) : RoundsRestarted entries held s u where
  others := by
    have e : { u with dies := s.dies, agenda := s.agenda, fresh := s.fresh } = { t with dies := s.dies, agenda := s.agenda, fresh := s.fresh } :=
      congrArg (fun x : State => { x with dies := s.dies, agenda := s.agenda, fresh := s.fresh }) h'.others
    exact e.trans h.others
  events p hp := h'.events p (h.events p hp)
  dieOthers d := by
    have e : { u.die d with round := (s.die d).round } = { t.die d with round := (s.die d).round } :=
      congrArg (fun x : Die => { x with round := (s.die d).round }) (h'.dieOthers d)
    exact e.trans (h.dieOthers d)
  rounds d := by
    rcases h'.rounds d with same | gone
    · exact same ▸ h.rounds d
    · exact .inr gone

/-- The waking of a launch unit adds an event at most. -/
theorem RoundsRestarted.wakeUnit (s : State) (d : DieKey) (cycle : Nat) : RoundsRestarted entries held s (s.wakeUnit d cycle) := by
  rcases s.wakeUnit_eq d cycle with e | e
  · rw [e]; exact .refl
  · rw [e]; exact ⟨rfl, fun _ hp => mem_insertPending_of_mem _ hp, fun _ => rfl, fun _ => .inl rfl⟩

/-- A die with an entry whose round passes the test gives up its round. -/
theorem RoundsRestarted.giveUp {x : DieKey} {k : Die} (s : State) (hk : (x, k) ∈ entries) (hround : k.round.any held = true) :
    RoundsRestarted entries held s (s.modDie x (fun k => { k with round := none })) where
  others := rfl
  events _ hp := hp
  dieOthers d := by
    by_cases hd : d = x
    · subst hd; simp
    · simp [hd]
  rounds d := by
    by_cases hd : d = x
    · subst hd; exact .inr ⟨by simp, k, hk, hround⟩
    · simp [hd]

/-- R367: only rounds that pass the test begin anew. -/
theorem roundsRestarted_restartRounds (s : State) (held : Round → Bool) : RoundsRestarted s.dies held s (s.restartRounds held) := by
  unfold State.restartRounds
  refine List.foldlRecOn s.dies _ .refl fun t ht e he => ?_
  obtain ⟨x, k⟩ := e
  dsimp only
  split
  next hround => exact ht.trans ((RoundsRestarted.giveUp t he hround).trans (.wakeUnit _ x _))
  next => exact ht

/-- The package's registry loses the released entries, and rounds that it held back may begin anew (R364, R367). -/
theorem roundsRestarted_releaseEntries (s : State) (p : PkgKey) (f : RegEntry → Bool) :
    RoundsRestarted s.dies (fun r => r.full.contains p) (s.modPkg p (fun k => { k with registry := k.registry.filter (fun e => !f e) }))
      (s.releaseEntries p f) := by
  unfold State.releaseEntries
  dsimp only
  split
  · exact roundsRestarted_restartRounds (s.modPkg p _) _
  · exact .refl

/-- What does not read the dies, the agenda and the next number reads the same after a restart of rounds. -/
theorem RoundsRestarted.reads_same {α : Sort*} (h : RoundsRestarted entries held s t) (f : State → α)
    (hf : ∀ (x : State) dies agenda fresh, f { x with dies := dies, agenda := agenda, fresh := fresh } = f x) : f t = f s := by
  rw [← hf t s.dies s.agenda s.fresh, h.others]

end

/-- The entry of a key in a list that names each key once. -/
theorem getKey_of_mem {α : Type} {l : List (Nat × α)} (hl : (l.map Prod.fst).Nodup) {k : Nat} {x : α} (h : (k, x) ∈ l) : getKey l k = some x := by
  induction l with
  | nil => cases h
  | cons e r ih =>
    obtain ⟨a, y⟩ := e
    obtain ⟨ha, hr⟩ := List.nodup_cons.mp hl
    rcases List.mem_cons.mp h with e | hmem
    · obtain ⟨rfl, rfl⟩ := Prod.mk.inj e
      simp [getKey]
    · have hne : a ≠ k := by
        rintro rfl
        exact ha (List.mem_map.mpr ⟨_, hmem, rfl⟩)
      simp only [getKey, if_neg hne, ih hr hmem]

/-- Where no die is listed twice, an entry of a die is what the state reads of it. -/
theorem State.die_of_mem {s : State} (hl : (s.dies.map Prod.fst).Nodup) {d : DieKey} {k : Die} (h : (d, k) ∈ s.dies) : s.die d = k := by
  rw [State.die, getKey_of_mem hl h, Option.getD_some]

/-! ### The end of a transaction -/

/-- A core of no mirrored pair stands alone in its pair (R395). -/
theorem State.pairOf_eq_singleton {s : State} {c : CoreKey} (h : s.primaryOf c = none) : s.pairOf c = [c] := by
  simp only [State.pairOf, h]

/-- The slot after its transaction has ended (R154). -/
def Slot.endTx (sl : Slot) (tx : Tx) : Slot :=
  { sl with tx := none, snap := tx.savedSnap, snapThread := false, st := { sl.st with tx := false } }

/-- The state after the registry of the running thread's package has released the entry of its transaction (R154, R364). -/
def State.releaseTx (s : State) : State := s.releaseEntries (pkgOf s.cur.core) (fun e => e.owner = .txn s.meRef)

/-- The package's registry without the entry of the running thread's transaction. -/
def State.dropTx (s : State) : State :=
  s.modPkg (pkgOf s.cur.core) (fun k => { k with registry := k.registry.filter (fun e => e.owner ≠ .txn s.meRef) })

/-- To release a transaction's entry is to drop it, and to let rounds begin anew that the registry held back. -/
theorem roundsRestarted_releaseTx (s : State) :
    RoundsRestarted s.dies (fun r => r.full.contains (pkgOf s.cur.core)) s.dropTx s.releaseTx := by
  have h := roundsRestarted_releaseEntries s (pkgOf s.cur.core) (fun e => e.owner = .txn s.meRef)
  simp only [← decide_not] at h
  exact h

theorem State.releaseTx_now (s : State) : s.releaseTx.now = s.now := ((roundsRestarted_releaseTx s).reads_same State.now fun _ _ _ _ => rfl).trans rfl
theorem State.releaseTx_cur (s : State) : s.releaseTx.cur = s.cur := ((roundsRestarted_releaseTx s).reads_same State.cur fun _ _ _ _ => rfl).trans rfl
theorem State.me_releaseTx (s : State) : s.releaseTx.me = s.me := ((roundsRestarted_releaseTx s).reads_same State.me fun _ _ _ _ => rfl).trans rfl
theorem State.pairOf_releaseTx (s : State) (c : CoreKey) : s.releaseTx.pairOf c = s.pairOf c :=
  ((roundsRestarted_releaseTx s).reads_same (State.pairOf · c) fun _ _ _ _ => rfl).trans rfl
theorem State.pkg_releaseTx (s : State) (p : PkgKey) : s.releaseTx.pkg p = s.dropTx.pkg p :=
  (roundsRestarted_releaseTx s).reads_same (State.pkg · p) fun _ _ _ _ => rfl

/-- txa in a transaction of a core that is not mirrored: the release, then one change of the running thread's slot (R154). -/
theorem exec_txa {s : State} {tx : Tx} (hpair : s.primaryOf s.cur.core = none) (htx : s.me.tx = some tx) :
    exec .txa s = .next (s.releaseTx.modMe (fun sl => sl.endTx tx)) := by
  have ended : s.endTx s.meRef = (s.releaseTx.pairOf s.cur.core).foldl (fun t c => t.modSlot c s.cur.slot (fun sl => sl.endTx tx)) s.releaseTx := by
    have hslot : (s.slot s.cur.core s.cur.slot).tx = some tx := htx
    simp only [State.endTx, State.meRef, State.refOf, hslot]
    rfl
  change execTxa s = _
  rw [execTxa, ended, s.pairOf_releaseTx, State.pairOf_eq_singleton hpair, State.modMe, s.releaseTx_cur, List.foldl_cons, List.foldl_nil]

end Sys2Proof.Machine

namespace Sys2Proof

open Sys2Proof.Machine

/-- What TransactionAbort says of one state and its transaction. -/
def AbortsTransaction (s : State) (tx : Tx) : Prop :=
  ∃ t, exec .txa s = .next t ∧ t.now = s.now ∧ t.cur.status = s.cur.status
    ∧ t.me = { s.me with tx := none, snap := tx.savedSnap, snapThread := false, st := { s.me.st with tx := false } }
    ∧ (t.pkg (pkgOf s.cur.core)).registry = (s.pkg (pkgOf s.cur.core)).registry.filter (fun e => e.owner ≠ .txn s.meRef)
    ∧ (∀ p, { t.pkg p with registry := (s.pkg p).registry } = s.pkg p)
    ∧ (∀ d, { t.die d with round := (s.die d).round } = s.die d) ∧ (∀ p ∈ s.agenda, p ∈ t.agenda)
    ∧ (∀ d, (t.die d).round = (s.die d).round ∨ ((t.die d).round = none ∧ ∃ r, (s.die d).round = some r ∧ pkgOf s.cur.core ∈ r.full))
    ∧ OnlyMySlot s { t with pkgs := s.pkgs, dies := s.dies, agenda := s.agenda, fresh := s.fresh }

/-- R154, R367: txa does what the statement says in every state that lists no die twice. -/
theorem abortsTransaction_of_nodup {s : State} {tx : Tx} (hdies : (s.dies.map Prod.fst).Nodup) (hslot : s.cur.slot < 16)
    (hpair : s.primaryOf s.cur.core = none) (htx : s.me.tx = some tx) : AbortsTransaction s tx := by
  have release := roundsRestarted_releaseTx s
  refine ⟨_, exec_txa hpair htx, s.releaseTx_now, congrArg Cur.status s.releaseTx_cur, ?slot, ?registry, ?packages, release.dieOthers, release.events, ?rounds, ?others⟩
  case slot =>
    rw [State.me_modMe _ _ (s.releaseTx_cur ▸ hslot), s.me_releaseTx]
    rfl
  case registry =>
    change (s.releaseTx.pkg _).registry = _
    rw [s.pkg_releaseTx, State.dropTx, State.pkg_modPkg_self]
  case packages =>
    intro p
    change ({ s.releaseTx.pkg p with registry := _ } : Package) = _
    rw [s.pkg_releaseTx]
    by_cases hp : p = pkgOf s.cur.core
    · subst hp; simp [State.dropTx]
    · simp [State.dropTx, hp]
  case rounds =>
    refine fun d => (release.rounds d).imp_right fun ⟨gone, k, hk, hround⟩ => ⟨gone, ?_⟩
    obtain ⟨r, hr, hfull⟩ := (Option.any_eq_true ..).mp hround
    exact ⟨r, State.die_of_mem hdies hk ▸ hr, by simpa using hfull⟩
  case others =>
    have restored := release.reads_same
      (fun x : State => { x.modMe (fun sl => sl.endTx tx) with pkgs := s.pkgs, dies := s.dies, agenda := s.agenda, fresh := s.fresh })
      fun _ _ _ _ => rfl
    rw [restored]
    exact onlyMySlot_modMe s _

/-! ### A die that is listed twice -/

/-- A transaction at time 5 that has written nothing. -/
def txOpen : Tx := { time := 5, savedSnap := 0, sectors := [], failed := false, discards := false, votes := [], waiting := 0, commit := 0 }

/-- The thread in slot 0 of core 0 runs that transaction, which the registry of package 0 holds; the list of dies is given. -/
def txState (dies : List (DieKey × Die)) : State :=
  let thread : ThreadRef := { core := 0, slot := 0, gen := 0 }
  ({ State.reset with dies := dies }.modPkg 0 (fun k => { k with registry := [{ time := 5, owner := .txn thread }] })).modSlot 0 0
    (fun sl => { sl with tx := some txOpen, st := { sl.st with tx := true } })

/-- A die in round 1, which the registries of some packages hold back. -/
def dieInRound (full : List PkgKey) : Die :=
  { Die.init with round := some { num := 1, waiting := [], ready := [], notReady := [], full := full, times := [] } }

/-- The premises of abortsTransaction_of_nodup are met: with the die listed once, txa lets its round begin anew. -/
theorem txState_once_restarts : AbortsTransaction (txState [(0, dieInRound [0])]) txOpen
    ∧ ∃ t, exec .txa (txState [(0, dieInRound [0])]) = .next t ∧ (t.die 0).round = none :=
  ⟨abortsTransaction_of_nodup (by decide) (by decide) rfl rfl, _, rfl, rfl⟩

/-- A second entry of die 0, which the state never reads, is in a round that package 0 holds back: txa ends the round of the first entry, which no package holds back. -/
theorem not_abortsTransaction_twice : ¬ AbortsTransaction (txState [(0, dieInRound []), (0, dieInRound [0])]) txOpen := by
  rintro ⟨t, hexec, -, -, -, -, -, -, -, hround, -⟩
  obtain rfl := Host.Outcome.next.inj hexec
  obtain same | ⟨-, r, hr, hfull⟩ := hround 0
  case inl => cases same
  case inr =>
    obtain rfl := Option.some.inj hr
    cases hfull

/-- Refutes O54: the statement has no premise on the list of dies, and where that list names a die twice, restartRounds tests the entry that State.die does not read. abortsTransaction_of_nodup is the statement with that premise. -/
theorem not_transactionAbort : ¬ Obligations.TransactionAbort := fun h =>
  not_abortsTransaction_twice (h _ txOpen (by decide) rfl rfl)

end Sys2Proof
end
